-- ==== Sys2Proof/Word.lean ====
section
/-!
DEFINITION. The words of the Exdom E4: bytes, 32-bit instruction words, 64-bit registers, and the
register names of the assembly language (00 R8, 08 R170, 11 R233, R236).
-/
namespace Sys2Proof

/-- A byte of memory. -/
abbrev Byte := BitVec 8
/-- An instruction word or a record word (R8). -/
abbrev W32 := BitVec 32
/-- A register of a group, or a generic address (R33, R170). -/
abbrev W64 := BitVec 64

/-- s0 to s63 (R170). -/
abbrev SReg := Fin 64
/-- v0 to v1,023; the group holds those below nv (R170, R172). -/
abbrev VReg := Fin 1024
/-- m0 to m7 (R170). -/
abbrev MReg := Fin 8
/-- k0 to k15 (R170). -/
abbrev KReg := Fin 16
/-- acc0 and acc1 (R170). -/
abbrev AccReg := Fin 2
/-- A clause's flag choice: a completion flag f0 to f11, or none (code 15) (R242). -/
abbrev FlagSel := Option (Fin 12)

end Sys2Proof
end

