-- ==== Sys2Proof/Machine/Table.lean ====
section
/-!
DEFINITION. Sparse tables: lists of (key, value) in one canonical form, keys strictly rising and no
entry equal to the table's default, so that equal tables are equal data. Also the few list and bit
helpers that the rest of the machine shares.
-/
namespace Sys2Proof.Machine

/-- The value at a key; an unlisted key holds the default. -/
def tblGet {α : Type} (d : α) : List (Nat × α) → Nat → α
  | [], _ => d
  | (a, v) :: t, k => if a = k then v else tblGet d t k

/-- Put a value other than the default at a key. -/
def tblPut {α : Type} : List (Nat × α) → Nat → α → List (Nat × α)
  | [], k, v => [(k, v)]
  | (a, x) :: t, k, v =>
    if k < a then (k, v) :: (a, x) :: t
    else if k = a then (k, v) :: t
    else (a, x) :: tblPut t k v
/-- Remove the entry of a key. -/
def tblDrop {α : Type} (t : List (Nat × α)) (k : Nat) : List (Nat × α) := t.filter fun e => e.1 != k
/-- Set the value at a key, keeping the canonical form: the default removes the entry. -/
def tblSet {α : Type} [DecidableEq α] (d : α) (t : List (Nat × α)) (k : Nat) (v : α) : List (Nat × α) :=
  if v = d then tblDrop t k else tblPut t k v

/-- Keys rise strictly from a bound, and no value is the default. -/
def tblWfFrom {α : Type} [DecidableEq α] (d : α) : Nat → List (Nat × α) → Bool
  | _, [] => true
  | lo, (a, v) :: t => decide (lo ≤ a) && decide (v ≠ d) && tblWfFrom d (a + 1) t
/-- The canonical form. -/
def tblWf {α : Type} [DecidableEq α] (d : α) (t : List (Nat × α)) : Bool := tblWfFrom d 0 t

/-- Set the values at consecutive keys. -/
def tblSetMany {α : Type} [DecidableEq α] (d : α) (t : List (Nat × α)) : List (Nat × α) → List (Nat × α)
  | [] => t
  | (k, v) :: r => tblSetMany d (tblSet d t k v) r

/-- Keep the entries whose key satisfies a test. -/
def tblKeep {α : Type} (p : Nat → Bool) (t : List (Nat × α)) : List (Nat × α) :=
  t.filter fun e => p e.1

/-- The first element that satisfies a test. -/
def findFirst {α : Type} (p : α → Bool) : List α → Option α
  | [] => none
  | a :: l => if p a then some a else findFirst p l
/-- Remove the first element that satisfies a test. -/
def dropFirst {α : Type} (p : α → Bool) : List α → List α
  | [] => []
  | a :: l => if p a then l else a :: dropFirst p l
/-- Change the first element that satisfies a test. -/
def modFirst {α : Type} (p : α → Bool) (f : α → α) : List α → List α
  | [] => []
  | a :: l => if p a then f a :: l else a :: modFirst p f l
/-- Put an element in its place in a list that rises in a measure. -/
def insertBy {α : Type} (f : α → Nat) (a : α) : List α → List α
  | [] => [a]
  | b :: l => if f a ≤ f b then a :: b :: l else b :: insertBy f a l
/-- Sort a list by a measure. -/
def sortBy {α : Type} (f : α → Nat) : List α → List α
  | [] => []
  | a :: l => insertBy f a (sortBy f l)
/-- Fold over a list from the left. -/
def foldL {α β : Type} (f : β → α → β) : β → List α → β
  | b, [] => b
  | b, a :: l => foldL f (f b a) l
/-- The element at an index, or a default. -/
def nthD {α : Type} (l : List α) (n : Nat) (d : α) : α := l.getD n d
/-- 0 to n - 1. -/
def upTo : Nat → List Nat
  | 0 => []
  | n + 1 => upTo n ++ [n]
/-- a, a + 1 up to n elements. -/
def from_ : Nat → Nat → List Nat
  | _, 0 => []
  | a, n + 1 => a :: from_ (a + 1) n

/-- A table over the keys below n, from a function. -/
def tabulate {α : Type} [DecidableEq α] (d : α) (n : Nat) (f : Nat → α) : List (Nat × α) :=
  (List.range n).filterMap fun k => if f k = d then none else some (k, f k)

/-- Bits [lo + n - 1 : lo] of a number. -/
def field (w lo n : Nat) : Nat := w / 2 ^ lo % 2 ^ n
/-- The number that some bytes spell, least significant first (00 R8). -/
def leNat : List Byte → Nat
  | [] => 0
  | b :: r => b.toNat + 256 * leNat r
/-- n bytes of a number, least significant first. -/
def leBytes : Nat → Nat → List Byte
  | 0, _ => []
  | n + 1, w => BitVec.ofNat 8 w :: leBytes n (w / 256)
/-- How many of a number's lowest n bits are 1. -/
def popN : Nat → Nat → Nat
  | 0, _ => 0
  | n + 1, w => w % 2 + popN n (w / 2)
/-- The lowest of a number's lowest n bits that is 1, counted from a base; none if there is none. -/
def lowBit : Nat → Nat → Nat → Option Nat
  | 0, _, _ => none
  | n + 1, b, w => if w % 2 = 1 then some b else lowBit n (b + 1) (w / 2)
/-- The places of the 1 bits among a number's lowest n, ascending. -/
def bitsOn (n w : Nat) : List Nat := (upTo n).filter fun j => w / 2 ^ j % 2 == 1
/-- Leading zeros of a w-bit number. -/
def clzN : Nat → Nat → Nat
  | 0, _ => 0
  | w + 1, x => if 2 ^ w ≤ x % 2 ^ (w + 1) then 0 else 1 + clzN w x
/-- A w-bit number as two's complement. -/
def toInt (w x : Nat) : Int := if x % 2 ^ w < 2 ^ (w - 1) then x % 2 ^ w else (x % 2 ^ w : Nat) - (2 ^ w : Nat)
/-- An integer modulo 2^w. -/
def ofInt (w : Nat) (i : Int) : Nat := (i % (2 ^ w : Nat)).toNat
/-- Sign-extension from n bits. -/
def sext64 (v : W32) : W64 := v.signExtend 64

end Sys2Proof.Machine
end

