-- ==== Sys2Proof/Syntax.lean ====
section
/-!
DEFINITION. The syntax of the Exdom E4: one constructor of `Instr` for every row of the table of
operations and events. An operand type says which of the encoding's forms the instruction took, so
that its length is a fact about the term (11 R233 to R241). A register a form cannot name is refused
by `WellFormed`.
-/
namespace Sys2Proof

/-- Integer element and access sizes .b .h .w .d (R235, R247). -/
inductive Size | b | h | w | d
  deriving DecidableEq, Repr
/-- Float types .s2 .h4 .b4 (R247). -/
inductive FType | s2 | h4 | b4
  deriving DecidableEq, Repr
/-- The types of VFCVT (R247). -/
inductive CType | s2 | h4 | b4 | w
  deriving DecidableEq, Repr
/-- Scopes (R93). -/
inductive Scope | grp | core | clu | die | dev | fab
  deriving DecidableEq, Repr
/-- Atomic orderings (R105). -/
inductive Ord | rlx | acq | rel | ar
  deriving DecidableEq, Repr
/-- Integer conditions (R249). -/
inductive Cond | eq | ne | lt | le | gt | ge | ltu | leu
  deriving DecidableEq, Repr
/-- Float conditions (R249). -/
inductive FCond | eq | ne | lt | le | gt | ge | ord | unord
  deriving DecidableEq, Repr
/-- Mask conditions (R249). -/
inductive MCond | any | all | none | nall
  deriving DecidableEq, Repr
/-- Rounding modes of VFRND and VFCVT to .w (R289, R291). -/
inductive RMode | near | zero | down | up
  deriving DecidableEq, Repr
/-- Combining operations of XRED and XSCAN (R298). -/
inductive RedOp | add | adds | min | max | minu | maxu | and | or | xor | fadd | fmin | fmax
  deriving DecidableEq, Repr
/-- Space codes of R31. -/
inductive Space | global | chip | cluster | core | lane
  deriving DecidableEq, Repr
/-- Atomic sizes (R248). -/
inductive ASize | w | d
  deriving DecidableEq, Repr

/-- The second operand of uniform arithmetic: sC in one word, sC in the extended form, or IMM (R265). -/
inductive UC | r1 (c : SReg) | r3 (c : SReg) | imm (v : W32)
  deriving DecidableEq, Repr
/-- SEL's operands c and d: in one word d is the destination (R267). -/
inductive SelForm | one (c : SReg) | ext (c d : SReg) | extImm (v : W32) (d : SReg)
  deriving DecidableEq, Repr
/-- LEA's forms (R268). -/
inductive LeaForm
  | two (sh : Fin 64) (disp : BitVec 24) | three (sh : Fin 64) (disp : BitVec 24) (d : SReg)
  deriving DecidableEq, Repr
/-- Where a bit field's position and length come from (R269). -/
inductive BitForm
  | lit2 (pos : Fin 64) (len : Fin 128) (x : Bool)
  | lit3 (pos : Fin 64) (len : Fin 128) (x : Bool)
  | reg (c : SReg)
  deriving DecidableEq, Repr
/-- NOP with a tag: the two-word form, or the three-word form (R255). -/
inductive NopForm | lit (v : W32) | three
  deriving DecidableEq, Repr
/-- A vector instruction's form: one word under m0, or extended under a named mask (R238). -/
inductive VForm | one | ext (m : MReg)
  deriving DecidableEq, Repr
/-- A vector source in field C, or IMM in its place (R279). -/
inductive VC | reg (c : VReg) | imm (v : W32)
  deriving DecidableEq, Repr
/-- An s source in field C, or IMM in its place (XSHF, XROT: R279). -/
inductive XC | reg (c : SReg) | imm (v : W32)
  deriving DecidableEq, Repr
/-- Data and base of a memory access, uniform or vector (R241, R303). -/
inductive MOpnd | u (a b : SReg) | v (a b : VReg)
  deriving DecidableEq, Repr
/-- An address operand alone, uniform or vector (PFG: R310). -/
inductive POpnd | u (b : SReg) | v (b : VReg)
  deriving DecidableEq, Repr
/-- Displacement of a memory access: DISP6 times the size, LIT, or IMM (R241). -/
inductive Disp | d6 (n : Fin 64) | lit (v : W32) | ext (v : W32) (m : MReg)
  deriving DecidableEq, Repr
/-- One word, or extended with a displacement (and a mask, in a vector form). -/
inductive DForm | one | ext (v : W32) (m : MReg)
  deriving DecidableEq, Repr
/-- ATOM's registers: old value, address, operand (R312). -/
inductive AOpnd | u (a b c : SReg) | v (a b c : VReg)
  deriving DecidableEq, Repr
/-- ACAS's registers: old value, address, expected value, new value (R312). -/
inductive CasOpnd | u (a b c d : SReg) | v (a b c d : VReg)
  deriving DecidableEq, Repr
/-- RED's registers: address, operand (R312). -/
inductive ROpnd | u (b c : SReg) | v (b c : VReg)
  deriving DecidableEq, Repr
/-- The small fields of an atomic (R248). -/
structure AtomAttr where
  size : ASize
  ord : Ord
  scope : Scope
  imm : W32
  mask : MReg
  deriving DecidableEq, Repr
/-- A parameter word: a literal payload or a substitution marker (R240). -/
inductive PWord | lit (v : BitVec 30) | sub (n : SReg)
  deriving DecidableEq, Repr
/-- The four parameter words (R240). -/
structure PBlock where
  p1 : PWord
  p2 : PWord
  p3 : PWord
  p4 : PWord
  deriving DecidableEq, Repr
/-- The completion object of a Riddle instruction (R358). -/
inductive Compl | tok (k : KReg) | bar (s : SReg) | cnt (s : SReg)
  deriving DecidableEq, Repr
/-- TLBINV's byte count (R412). -/
inductive TC | reg (c : SReg) | imm (v : W32)
  deriving DecidableEq, Repr

/-- What issues instructions: a group in a core's resident slot, or a section in a Damper context
(R176, R371). -/
inductive UnitId | core (core slot : Nat) | damper (damper ctx : Nat)
  deriving DecidableEq, Repr

/-- A fabric packet: the fields of its header flit and its payload bytes (R382). -/
structure Packet where
  typ : BitVec 6 := 0
  cls : BitVec 2 := 0
  hop : BitVec 3 := 0
  ndata : BitVec 3 := 0
  dst : BitVec 10 := 0
  src : BitVec 10 := 0
  stubs : BitVec 2 := 0
  relayed : Bool := false
  redir : Bool := false
  unit : BitVec 16 := 0
  seqn : W32 := 0
  addr : W64 := 0
  aux : W32 := 0
  len : W32 := 0
  opnd : BitVec 128 := 0
  psn : W64 := 0
  data : List Byte := []
  deriving DecidableEq, Repr

/-- A firmware image as the flash holds it (R400): the outcome of the signature check is a fact about
the image that the boot ROM reads. -/
structure FwImage where
  svn : W32
  sigOk : Bool
  hash : BitVec 256
  deriving DecidableEq, Repr

/-- A word of data that an error is in, by the memory that holds it (R404, R405). -/
inductive BadWord
  /-- An aligned 8-byte word of a memory, by the key of its first byte div 8. -/
  | mem (w : Nat)
  /-- Word `w` of a line of a core's L1. -/
  | l1 (core line w : Nat)
  /-- A word among a group's private bytes, or among a core's narrow-published ones. -/
  | own (gid w : Nat)
  | narrow (core w : Nat)
  /-- An accumulator element of a core pair. -/
  | acc (pair elem : Nat)
  /-- Payload word `w` of packet `i` of those that wait in the device. -/
  | packet (i w : Nat)
  deriving DecidableEq, Repr
/-- A detected error, as its detector describes it (R404, R407). -/
structure ErrInfo where
  kind : Nat
  correctable : Bool
  die : BitVec 8
  inst : BitVec 12
  addr : W64
  tag : W64
  /-- The words whose data the error is in, when it is in data. -/
  words : List BadWord
  deriving DecidableEq, Repr

/-- Every step of the part: first its instructions, then its events (opcode_table.json). -/
inductive Instr
  /-- CLAUSE (R242, R243). -/
  | clause (wait : BitVec 12) (fa fb : FlagSel) (hot last stream : Bool)
  /-- BR (R258). -/
  | br (off : W32)
  /-- BRC (R258). -/
  | brc (cond : Cond) (a b : SReg) (off : W32)
  /-- BRM (R258). -/
  | brm (cond : MCond) (a : MReg) (off : W32)
  /-- JMP (R258). -/
  | jmp (a : SReg)
  /-- CALL (R258). -/
  | call (a : SReg) (off : W32)
  /-- RET (R258). -/
  | ret (a : SReg)
  /-- LOOP (R261). -/
  | loop (a : SReg) (off : W32)
  /-- EXIT (R262). -/
  | exit
  /-- YIELD (R256). -/
  | yield
  /-- WAITF (R255). -/
  | waitf (mask : BitVec 12)
  /-- NOP (R255). -/
  | nop
  /-- NOP_TAG (R255). -/
  | nopTag (f : NopForm)
  /-- TRAP (R264). -/
  | trap (code : BitVec 12)
  /-- TRET (R219, R264). -/
  | tret
  /-- BKPT (R264). -/
  | bkpt
  /-- ADD (R265). -/
  | add (a b : SReg) (c : UC)
  /-- SUB (R265). -/
  | sub (a b : SReg) (c : UC)
  /-- MULL (R265). -/
  | mull (a b : SReg) (c : UC)
  /-- MULH (R265, R266). -/
  | mulh (u : Bool) (a b : SReg) (c : UC)
  /-- DIV (R265, R266). -/
  | div (u : Bool) (a b : SReg) (c : UC)
  /-- REM (R265, R266). -/
  | rem (u : Bool) (a b : SReg) (c : UC)
  /-- MIN (R265, R266). -/
  | min (u : Bool) (a b : SReg) (c : UC)
  /-- MAX (R265, R266). -/
  | max (u : Bool) (a b : SReg) (c : UC)
  /-- AND (R265). -/
  | and (a b : SReg) (c : UC)
  /-- OR (R265). -/
  | or (a b : SReg) (c : UC)
  /-- XOR (R265). -/
  | xor (a b : SReg) (c : UC)
  /-- SHL (R265). -/
  | shl (a b : SReg) (c : UC)
  /-- SHR (R265). -/
  | shr (a b : SReg) (c : UC)
  /-- SHRA (R265). -/
  | shra (a b : SReg) (c : UC)
  /-- ROT (R265). -/
  | rot (a b : SReg) (c : UC)
  /-- CLZ (R265). -/
  | clz (ext : Bool) (a b : SReg)
  /-- POPC (R265). -/
  | popc (ext : Bool) (a b : SReg)
  /-- MOV (R267). -/
  | mov (ext : Bool) (a b : SReg)
  /-- MOV_IMM (R267). -/
  | movImm (a : SReg) (v : W32)
  /-- MOVI (R267). -/
  | movi (a : SReg) (v : W32)
  /-- MOVI_Q (R239). -/
  | moviQ (a : SReg) (v : W64)
  /-- ADDI (R267). -/
  | addi (a b : SReg) (v : W32)
  /-- SEL (R267). -/
  | sel (a b : SReg) (f : SelForm)
  /-- LEA (R268). -/
  | lea (a b c : SReg) (f : LeaForm)
  /-- BEXT (R269). -/
  | bext (a b : SReg) (f : BitForm)
  /-- BINS (R269). -/
  | bins (a b : SReg) (f : BitForm)
  /-- SETC (R270). -/
  | setc (cond : Cond) (a b : SReg) (c : UC)
  /-- MSET (R271). -/
  | mset (a : MReg) (b : SReg)
  /-- MAND (R271). -/
  | mand (a b c : MReg)
  /-- MOR (R271). -/
  | mor (a b c : MReg)
  /-- MXOR (R271). -/
  | mxor (a b c : MReg)
  /-- MNOT (R271). -/
  | mnot (a b : MReg)
  /-- MPOP (R271, R272). -/
  | mpop (a : SReg) (b : MReg)
  /-- MFIRST (R271, R272). -/
  | mfirst (a : SReg) (b : MReg)
  /-- MMOV (R271, R272). -/
  | mmov (a : SReg) (b : MReg)
  /-- CSRRD (R273). -/
  | csrrd (a : SReg) (num : BitVec 15)
  /-- CSRWR (R273). -/
  | csrwr (a : SReg) (num : BitVec 15)
  /-- VADD (R281). -/
  | vadd (z : Size) (f : VForm) (a b : VReg) (c : VC)
  /-- VSUB (R281). -/
  | vsub (z : Size) (f : VForm) (a b : VReg) (c : VC)
  /-- VADDS (R281). -/
  | vadds (z : Size) (f : VForm) (a b : VReg) (c : VC)
  /-- VSUBS (R281). -/
  | vsubs (z : Size) (f : VForm) (a b : VReg) (c : VC)
  /-- VMUL (R281). -/
  | vmul (z : Size) (f : VForm) (a b : VReg) (c : VC)
  /-- VMULH (R281). -/
  | vmulh (z : Size) (f : VForm) (a b : VReg) (c : VC)
  /-- VMAD (R281). -/
  | vmad (z : Size) (f : VForm) (a b : VReg) (c : VC) (d : VReg)
  /-- VNEG (R281). -/
  | vneg (z : Size) (f : VForm) (a b : VReg)
  /-- VAND (R282). -/
  | vand (z : Size) (f : VForm) (a b : VReg) (c : VC)
  /-- VOR (R282). -/
  | vor (z : Size) (f : VForm) (a b : VReg) (c : VC)
  /-- VXOR (R282). -/
  | vxor (z : Size) (f : VForm) (a b : VReg) (c : VC)
  /-- VNOT (R282). -/
  | vnot (z : Size) (f : VForm) (a b : VReg)
  /-- VSHL (R282). -/
  | vshl (z : Size) (f : VForm) (a b : VReg) (c : VC)
  /-- VSHR (R282). -/
  | vshr (z : Size) (f : VForm) (a b : VReg) (c : VC)
  /-- VSHRA (R282). -/
  | vshra (z : Size) (f : VForm) (a b : VReg) (c : VC)
  /-- VCLZ (R282). -/
  | vclz (z : Size) (f : VForm) (a b : VReg)
  /-- VMIN (R283). -/
  | vmin (z : Size) (f : VForm) (a b : VReg) (c : VC)
  /-- VMAX (R283). -/
  | vmax (z : Size) (f : VForm) (a b : VReg) (c : VC)
  /-- VMIN_U (R283). -/
  | vminU (z : Size) (f : VForm) (a b : VReg) (c : VC)
  /-- VMAX_U (R283). -/
  | vmaxU (z : Size) (f : VForm) (a b : VReg) (c : VC)
  /-- VABS (R283). -/
  | vabs (z : Size) (f : VForm) (a b : VReg)
  /-- VABSS (R283). -/
  | vabss (z : Size) (f : VForm) (a b : VReg)
  /-- VPOPC (R283). -/
  | vpopc (z : Size) (f : VForm) (a b : VReg)
  /-- VCMP (R284). -/
  | vcmp (cond : Cond) (z : Size) (f : VForm) (a : MReg) (b : VReg) (c : VC)
  /-- VMOV (R285). -/
  | vmov (z : Size) (f : VForm) (a b : VReg)
  /-- VMOV_IMM (R285). -/
  | vmovImm (z : Size) (m : MReg) (a : VReg) (v : W32)
  /-- VMOVI (R285). -/
  | vmovi (z : Size) (a : VReg) (v : W32)
  /-- VMOVI_Q (R285). -/
  | vmoviQ (a : VReg) (v : W64)
  /-- VBCAST (R285). -/
  | vbcast (z : Size) (f : VForm) (a : VReg) (b : SReg)
  /-- VEXTS (R285). -/
  | vexts (z : Size) (f : VForm) (a b : VReg) (nm1 : Fin 64)
  /-- VPACK (R285). -/
  | vpack (z : Size) (f : VForm) (a b : VReg) (c : VC)
  /-- VUNPK (R285). -/
  | vunpk (z : Size) (f : VForm) (a b : VReg) (h : Bool)
  /-- VSEL (R285). -/
  | vsel (z : Size) (f : VForm) (a b : VReg) (c : VC) (d : VReg)
  /-- VFADD (R287). -/
  | vfadd (t : FType) (f : VForm) (a b : VReg) (c : VC)
  /-- VFSUB (R287). -/
  | vfsub (t : FType) (f : VForm) (a b : VReg) (c : VC)
  /-- VFMUL (R287). -/
  | vfmul (t : FType) (f : VForm) (a b : VReg) (c : VC)
  /-- VFMA (R287). -/
  | vfma (t : FType) (f : VForm) (a b : VReg) (c : VC) (d : VReg)
  /-- VFMIN (R287). -/
  | vfmin (t : FType) (f : VForm) (a b : VReg) (c : VC)
  /-- VFMAX (R287). -/
  | vfmax (t : FType) (f : VForm) (a b : VReg) (c : VC)
  /-- VFABS (R286). -/
  | vfabs (t : FType) (f : VForm) (a b : VReg)
  /-- VFNEG (R286). -/
  | vfneg (t : FType) (f : VForm) (a b : VReg)
  /-- VFRCP (R288). -/
  | vfrcp (t : FType) (f : VForm) (a b : VReg)
  /-- VFRSQ (R288). -/
  | vfrsq (t : FType) (f : VForm) (a b : VReg)
  /-- VFSQRT (R288). -/
  | vfsqrt (t : FType) (f : VForm) (a b : VReg)
  /-- VFDIV (R288). -/
  | vfdiv (t : FType) (f : VForm) (a b : VReg) (c : VC)
  /-- VFEXP2 (R288). -/
  | vfexp2 (t : FType) (f : VForm) (a b : VReg)
  /-- VFLOG2 (R288). -/
  | vflog2 (t : FType) (f : VForm) (a b : VReg)
  /-- VFRND (R289). -/
  | vfrnd (t : FType) (f : VForm) (a b : VReg) (mode : RMode)
  /-- VFCLASS (R289). -/
  | vfclass (t : FType) (f : VForm) (a b : VReg)
  /-- VFCMP (R290). -/
  | vfcmp (cond : FCond) (t : FType) (f : VForm) (a : MReg) (b : VReg) (c : VC)
  /-- VFCVT (R291). -/
  | vfcvt (dt st : CType) (f : VForm) (a b : VReg) (h : Bool) (mode : RMode)
  /-- VQNT (R294). -/
  | vqnt (t : FType) (f : VForm) (a b : VReg) (c : VC)
  /-- VDQNT (R294). -/
  | vdqnt (t : FType) (f : VForm) (a b : VReg) (c : VC)
  /-- VDITH (R293). -/
  | vdith (t : FType) (f : VForm) (a b : VReg) (c : SReg)
  /-- VSCALE (R293). -/
  | vscale (t : FType) (f : VForm) (a b : VReg) (c : SReg)
  /-- VRAND (R295). -/
  | vrand (z : Size) (f : VForm) (a : VReg) (b : SReg)
  /-- XSEL (R297). -/
  | xsel (z : Size) (f : VForm) (a b : VReg) (c : VC)
  /-- XSHF (R297). -/
  | xshf (z : Size) (f : VForm) (a b : VReg) (c : XC)
  /-- XROT (R297). -/
  | xrot (z : Size) (f : VForm) (a b : VReg) (c : XC)
  /-- XBFLY (R297). -/
  | xbfly (z : Size) (f : VForm) (a b : VReg) (p : Fin 8)
  /-- XRED (R298). -/
  | xred (op : RedOp) (z : Size) (f : VForm) (a b : VReg)
  /-- XSCAN (R299). -/
  | xscan (op : RedOp) (x : Bool) (z : Size) (f : VForm) (a b : VReg)
  /-- XBAL (R300). -/
  | xbal (z : Size) (f : VForm) (a : MReg) (b : VReg)
  /-- LD (R302). -/
  | ld (z : Size) (o : MOpnd) (d : Disp) (f : Bool)
  /-- ST (R302). -/
  | st (z : Size) (o : MOpnd) (d : Disp)
  /-- LDG (R302). -/
  | ldg (z : Size) (o : MOpnd) (d : Disp) (f : Bool)
  /-- STG (R302). -/
  | stg (z : Size) (o : MOpnd) (d : Disp)
  /-- LDS (R302). -/
  | lds (z : Size) (o : MOpnd) (d : Disp) (f : Bool)
  /-- STS (R302). -/
  | sts (z : Size) (o : MOpnd) (d : Disp)
  /-- LDC (R302). -/
  | ldc (z : Size) (o : MOpnd) (d : Disp) (f : Bool)
  /-- STC (R302). -/
  | stc (z : Size) (o : MOpnd) (d : Disp)
  /-- LDL (R302). -/
  | ldl (z : Size) (o : MOpnd) (d : Disp) (f : Bool)
  /-- STL (R302). -/
  | stl (z : Size) (o : MOpnd) (d : Disp)
  /-- LDX (R302). -/
  | ldx (z : Size) (o : MOpnd) (d : Disp) (f : Bool)
  /-- STX (R302). -/
  | stx (z : Size) (o : MOpnd) (d : Disp)
  /-- STQ (R307, R308). -/
  | stq (a b : VReg) (c : SReg)
  /-- STQ_COORD (R307, R308). -/
  | stqCoord (m : MReg) (a b : VReg) (c : SReg) (d : VReg) (v : W32)
  /-- PFG (R310). -/
  | pfg (o : POpnd) (f : DForm)
  /-- PFG_LLC (R310). -/
  | pfgLlc (o : POpnd) (f : DForm)
  /-- SPTEST (R39, R311). -/
  | sptest (o : MOpnd) (f : VForm)
  /-- SPCAST_G (R40, R311). -/
  | spcastG (o : MOpnd) (f : VForm) (c : Space)
  /-- SPCAST_S (R40, R311). -/
  | spcastS (o : MOpnd) (f : VForm) (c : Space)
  /-- ATOM_ADD (R312, R313). -/
  | atomAdd (o : AOpnd) (t : AtomAttr) (f : Bool)
  /-- ATOM_AND (R312, R313). -/
  | atomAnd (o : AOpnd) (t : AtomAttr) (f : Bool)
  /-- ATOM_OR (R312, R313). -/
  | atomOr (o : AOpnd) (t : AtomAttr) (f : Bool)
  /-- ATOM_XOR (R312, R313). -/
  | atomXor (o : AOpnd) (t : AtomAttr) (f : Bool)
  /-- ATOM_MIN (R312, R313). -/
  | atomMin (o : AOpnd) (t : AtomAttr) (f : Bool)
  /-- ATOM_MAX (R312, R313). -/
  | atomMax (o : AOpnd) (t : AtomAttr) (f : Bool)
  /-- ATOM_XCHG (R312, R313). -/
  | atomXchg (o : AOpnd) (t : AtomAttr) (f : Bool)
  /-- ATOM_INCWRAP (R312, R313). -/
  | atomIncwrap (o : AOpnd) (t : AtomAttr) (f : Bool)
  /-- ATOM_FADD (R312, R313). -/
  | atomFadd (o : AOpnd) (t : AtomAttr) (f : Bool)
  /-- ACAS (R312, R313). -/
  | acas (o : CasOpnd) (t : AtomAttr) (f : Bool)
  /-- RED_ADD (R312, R313). -/
  | redAdd (o : ROpnd) (t : AtomAttr)
  /-- RED_FADD (R312, R313). -/
  | redFadd (o : ROpnd) (t : AtomAttr)
  /-- RED_MIN (R312, R313). -/
  | redMin (o : ROpnd) (t : AtomAttr)
  /-- RED_MAX (R312, R313). -/
  | redMax (o : ROpnd) (t : AtomAttr)
  /-- FENCE (R107, R315). -/
  | fence (s : Scope) (k : KReg)
  /-- FWAIT (R108, R315). -/
  | fwait (k : KReg)
  /-- PHASE (R104, R315). -/
  | phase (s : Scope)
  /-- ACQ (R104, R315). -/
  | acq (s : Scope)
  /-- REL (R104, R315). -/
  | rel (s : Scope)
  /-- BARARV (R317, R319). -/
  | bararv (s : Scope) (a b : SReg) (f : DForm)
  /-- BARARV_DROP (R317, R319). -/
  | bararvDrop (s : Scope) (a b : SReg) (f : DForm)
  /-- BARARV_JOIN (R317, R319). -/
  | bararvJoin (s : Scope) (a b : SReg) (f : DForm)
  /-- BARARV_FZ (R317, R319). -/
  | bararvFz (s : Scope) (a b : SReg) (f : DForm)
  /-- BAREXP (R320). -/
  | barexp (b c : SReg) (f : DForm)
  /-- BARWAIT (R321). -/
  | barwait (t : Bool) (s : Scope) (a b : SReg) (f : DForm)
  /-- BARTEST (R321). -/
  | bartest (s : Scope) (a b : SReg) (f : DForm)
  /-- CNTWAIT (R323). -/
  | cntwait (a b c : SReg) (f : DForm)
  /-- CNTTEST (R323). -/
  | cnttest (a b c : SReg) (f : DForm)
  /-- TSPAWN (R325). -/
  | tspawn (f : Bool) (m : VForm) (a b : VReg)
  /-- TCLAIM (R326). -/
  | tclaim (f : Bool) (a b : SReg) (d : DForm)
  /-- TCLAIM_CLU (R191, R326). -/
  | tclaimClu (f : Bool) (a b : SReg) (d : DForm)
  /-- TCLAIMW (R326). -/
  | tclaimw (f : Bool) (a : SReg) (ext : Bool)
  /-- TDONE (R188, R327). -/
  | tdone (ext : Bool)
  /-- LAUNCH (R210, R327). -/
  | launch (b : SReg) (d : DForm)
  /-- EVSET (R327). -/
  | evset (b c : SReg) (ext : Bool)
  /-- MMA (R332, R335). -/
  | mma (p : PBlock)
  /-- MZERO (R339). -/
  | mzero (a : AccReg) (ext : Bool)
  /-- MDRAIN (R341). -/
  | mdrain (f : Bool) (a b c : SReg) (d : DForm)
  /-- MLOADC (R342). -/
  | mloadc (b c : SReg) (d : DForm)
  /-- MSTAT (R343). -/
  | mstat (f : Bool) (a : SReg) (ext : Bool)
  /-- MSTAT_IDLE (R343). -/
  | mstatIdle (f : Bool) (a : SReg) (ext : Bool)
  /-- MFREEZE (R344). -/
  | mfreeze (ext : Bool)
  /-- MTHAW (R344). -/
  | mthaw (ext : Bool)
  /-- KICK (R356). -/
  | kick (b : SReg)
  /-- EQUIESCE (R357). -/
  | equiesce
  /-- GATHER (R358, R361, R362). -/
  | gather (base : SReg) (co : Compl) (tr : Bool) (p : PBlock)
  /-- SCATTER (R358, R361, R362). -/
  | scatter (base : SReg) (co : Compl) (tr : Bool) (p : PBlock)
  /-- SCATADD (R358, R361, R362). -/
  | scatadd (base : SReg) (co : Compl) (tr : Bool) (p : PBlock)
  /-- MCST (R358, R365). -/
  | mcst (off : SReg) (co : Compl) (p : PBlock)
  /-- SHIP (R368, R369). -/
  | ship (ent : SReg) (kt : KReg) (narg : Fin 7) (nres : Fin 5) (p : PBlock)
  /-- SRET (R372). -/
  | sret
  /-- WAITTOK (R367). -/
  | waittok (k : KReg)
  /-- TOKTEST (R366, R367). -/
  | toktest (a : SReg) (k : KReg)
  /-- TLBINV (R412). -/
  | tlbinv (b : SReg) (c : TC)
  /-- L1WB (R412). -/
  | l1wb
  /-- L1INV (R412). -/
  | l1inv
  /-- PMARK (R412). -/
  | pmark (tag : BitVec 12)
  /-- SNAPTRIG (R412). -/
  | snaptrig (tag : BitVec 8)
  -- The events of the table: steps of the hardware, the firmware, the host and the peers.
  /-- DEFERRED_POISON_TRAP (R460). -/
  | deferredPoisonTrap (u : UnitId)
  /-- RESULT_WRITEBACK (R244). -/
  | resultWriteback (u : UnitId) (i : Nat)
  /-- BLOCKED_WAIT_WAKE (R192). -/
  | blockedWaitWake (u : UnitId)
  /-- REFUSED_REQUEST_RETRY (R192). -/
  | refusedRequestRetry (u : UnitId)
  /-- GTS_PERIODIC_RAISE (R193). -/
  | gtsPeriodicRaise (u : UnitId)
  /-- TCLAIM_DELIVERY (R191). -/
  | tclaimDelivery
  /-- FENCE_TOKEN_COMPLETE (R107). -/
  | fenceTokenComplete (u : UnitId) (k : KReg)
  /-- L1_MISS (R54). -/
  | l1Miss (core : Nat)
  /-- PUBLICATION (R99). -/
  | publication (u : UnitId) (k : KReg)
  /-- FORCED_PUBLISH (R59). -/
  | forcedPublish (core : Nat)
  /-- ATOMIC_AT_HOME (R116). -/
  | atomicAtHome
  /-- BARRIER_UPDATE (R319). -/
  | barrierUpdate
  /-- COUNTER_ADDITION (R67). -/
  | counterAddition
  /-- TLB_WALK (R74). -/
  | tlbWalk (die : Nat)
  /-- TLB_INVALIDATION_DONE (R75). -/
  | tlbInvalidationDone
  /-- COMBINE_WINDOW (R129). -/
  | combineWindow
  /-- ENGINE_RECORD_START (R346). -/
  | engineRecordStart (core : Nat)
  /-- ENGINE_OP_COMPLETE (R352). -/
  | engineOpComplete (core op : Nat)
  /-- LOOP_REFILL (R351). -/
  | loopRefill (core op : Nat)
  /-- RIDDLE_OP_COMPLETE (R361). -/
  | riddleOpComplete (op : Nat)
  /-- SECTION_START (R371). -/
  | sectionStart (damper : Nat)
  /-- MMA_STREAM_END (R330). -/
  | mmaStreamEnd (pair : Nat)
  /-- MMA_CONVERSION_END (R330). -/
  | mmaConversionEnd (pair : Nat)
  /-- ARRAY_FREEZE (R227). -/
  | arrayFreeze (pair : Nat)
  /-- TASK_DISPATCH (R186). -/
  | taskDispatch (launch : Nat)
  /-- TASK_COMMIT (R185). -/
  | taskCommit (launch : Nat)
  /-- TASK_LAUNCH_END (R189). -/
  | taskLaunchEnd (launch : Nat)
  /-- QUANTUM_END (R133). -/
  | quantumEnd (launch : Nat)
  /-- DET_TURN_GRANT (R135). -/
  | detTurnGrant (launch : Nat)
  /-- DISPATCH_DECISION (R206). -/
  | dispatchDecision
  /-- PACKET_RESERVATION (R206). -/
  | packetReservation (slot : Nat)
  /-- CONTEXT_SWITCH_CLEAR (R207). -/
  | contextSwitchClear (core : Nat)
  /-- LAUNCH_COMPLETE (R204). -/
  | launchComplete (launch : Nat)
  /-- CONTEXT_MARK_DEAD (R211). -/
  | contextMarkDead (ctx : Nat)
  /-- STOKER_READY_CLEAR (R197). -/
  | stokerReadyClear (queue : Nat)
  /-- SLOT_BIND (R209). -/
  | slotBind (slot : Nat)
  /-- SLOT_UNBIND (R208). -/
  | slotUnbind (slot : Nat)
  /-- UNBIND_ACK (R208). -/
  | unbindAck (slot : Nat)
  /-- SLICE_EXPIRY (R209). -/
  | sliceExpiry (slot : Nat)
  /-- QUEUE_IDLE_TIMEOUT (R209). -/
  | queueIdleTimeout (slot : Nat)
  /-- PREEMPT_SIGNAL (R226). -/
  | preemptSignal (ctx : Nat) (pairs : List Nat)
  /-- PREEMPT_TRAP (R226). -/
  | preemptTrap (u : UnitId)
  /-- CONTEXT_RESTORE (R232). -/
  | contextRestore (ctx : Nat) (cores : List (Nat × Nat))
  /-- POWER_GATE_ENTRY (R214). -/
  | powerGateEntry (core : Nat)
  /-- POWER_GATE_OFF (R215). -/
  | powerGateOff (core : Nat)
  /-- CORE_WAKE (R215). -/
  | coreWake (core : Nat)
  /-- WAKE_EXIT_DONE (R215). -/
  | wakeExitDone (core : Nat)
  /-- MIGRATION_STEP (R84). -/
  | migrationStep (page : W64)
  /-- STUB_RECLAIM_START (R89). -/
  | stubReclaimStart (page : W64)
  /-- STUB_COND_INVAL (R89). -/
  | stubCondInval (page : W64) (old : Nat)
  /-- STUB_INVAL_ACK (R89). -/
  | stubInvalAck (page : W64) (old : Nat)
  /-- STUB_RECLAIM_RESULT (R90). -/
  | stubReclaimResult (page : W64) (fail : Option Nat)
  /-- READ (R58). -/
  | read (p : Packet)
  /-- READX (R126). -/
  | readx (p : Packet)
  /-- WRITE (R58). -/
  | write (p : Packet)
  /-- WRITEBACK (R58). -/
  | writeback (p : Packet)
  /-- ATOMIC_REQUEST (R130). -/
  | atomicRequest (p : Packet)
  /-- INVAL (R127). -/
  | inval (p : Packet)
  /-- OWNERQ (R80). -/
  | ownerq (p : Packet)
  /-- SHIP_REQUEST (R370). -/
  | shipRequest (p : Packet)
  /-- MCAST (R390). -/
  | mcast (p : Packet)
  /-- REMOTE_WRITE (R446). -/
  | remoteWrite (p : Packet)
  /-- DATA (R82). -/
  | data (p : Packet)
  /-- ACK (R446). -/
  | ack (p : Packet)
  /-- MIGRATION_CHAIN (R82). -/
  | migrationChain (p : Packet)
  /-- NOT_OWNER (R82). -/
  | notOwner (p : Packet)
  /-- RETRY (R378). -/
  | retry (p : Packet)
  /-- UNREACHABLE (R380). -/
  | unreachable (p : Packet)
  /-- HELD (R380). -/
  | held (p : Packet)
  /-- MACK (R390). -/
  | mack (p : Packet)
  /-- SECTION_RESULT (R372). -/
  | sectionResult (p : Packet)
  /-- STOKER_MESSAGE (R383). -/
  | stokerMessage (p : Packet)
  /-- ROUTE_MARKER (R379). -/
  | routeMarker (p : Packet)
  /-- ROUTE_MARKER_RETURN (R379). -/
  | routeMarkerReturn (p : Packet)
  /-- PACKET_FORWARD (R377). -/
  | packetForward (p : Packet)
  /-- FLIT_RECEIVE (R384). -/
  | flitReceive (port : Nat) (bytes : List Byte)
  /-- REPLAY_TIMEOUT (R385). -/
  | replayTimeout (port : Nat)
  /-- ACK_TIMER (R384). -/
  | ackTimer (port : Nat)
  /-- REQUEST_TIMEOUT (R380). -/
  | requestTimeout (tag : W64)
  /-- HELD_TIMER (R380). -/
  | heldTimer (i : Nat)
  /-- MCAST_CHILD_TIMEOUT (R461). -/
  | mcastChildTimeout (i : Nat) (port : Nat)
  /-- FABRIC_LINK_TRAINED (R375). -/
  | fabricLinkTrained (port : Nat) (badLanes : BitVec 16) (far : Option (Nat × Nat))
  /-- FABRIC_LANE_FAIL (R386). -/
  | fabricLaneFail (port lane : Nat)
  /-- LINK_RETRAIN_TIMEOUT (R396). -/
  | linkRetrainTimeout (port : Nat)
  /-- DIE_LINK_LANE_FAIL (R16). -/
  | dieLinkLaneFail (link group : Nat)
  /-- SET_ID (R374). -/
  | setId
  /-- CTX_CREATE (R396). -/
  | ctxCreate
  /-- CTX_TEARDOWN (R211). -/
  | ctxTeardown
  /-- QUEUE_REG (R196). -/
  | queueReg
  /-- QUEUE_UNREG (R396). -/
  | queueUnreg
  /-- SHOOTDOWN (R75). -/
  | shootdown
  /-- RESOLVE_RESUME (R221). -/
  | resolveResume
  /-- RESOLVE_SKIP (R221). -/
  | resolveSkip
  /-- RESOLVE_TERMINATE (R221). -/
  | resolveTerminate
  /-- RESOLVE_ABORT (R225). -/
  | resolveAbort
  /-- MIGRATE (R83). -/
  | migrate
  /-- ROUTE_WRITE (R376). -/
  | routeWrite
  /-- GROUP_WRITE (R389). -/
  | groupWrite
  /-- HCOPY_TO_HOST (R396). -/
  | hcopyToHost
  /-- HCOPY_TO_DEVICE (R396). -/
  | hcopyToDevice
  /-- HCOPY_DONE (R396). -/
  | hcopyDone (i : Nat)
  /-- STUB_FREE (R90). -/
  | stubFree
  /-- NBR_READ (R375). -/
  | nbrRead
  /-- MIG_ABORT (R86). -/
  | migAbort
  /-- LINK_RETRAIN (R396). -/
  | linkRetrain
  /-- GROUP_DRAIN (R392). -/
  | groupDrain
  /-- MBOX_BAD_CODE (R396). -/
  | mboxBadCode
  /-- READY_SET (R394). -/
  | readySet (j : Nat) (v : W32)
  /-- APERTURE_WRITE (R395). -/
  | apertureWrite (off : Nat) (bytes : List Byte)
  /-- APERTURE_READ (R405). -/
  | apertureRead (off len : Nat)
  /-- FRING_RPTR (R397). -/
  | fringRptr (v : W64)
  /-- FAULT_RECORD_WRITE (R397). -/
  | faultRecordWrite
  /-- ATT_DOOR (R402). -/
  | attDoor (v : W32)
  /-- ATT_REPORT_DONE (R402). -/
  | attReportDone
  /-- SNAP_TRIG (R410). -/
  | snapTrig (v : W32)
  /-- SNAPSHOT_LATCH (R410). -/
  | snapshotLatch
  /-- ERRCNT (R409). -/
  | errcnt (kind : Nat) (v : W32)
  /-- REGISTER_WRITE (R9). -/
  | registerWrite (off : Nat) (v : W64)
  /-- ERROR_DETECTED (R404). -/
  | errorDetected (e : ErrInfo)
  /-- THERMAL_THROTTLE (R416). -/
  | thermalThrottle (degrees : Nat)
  /-- COLD_RESET (R398). -/
  | coldReset
  /-- FUNCTION_RESET (R398). -/
  | functionReset
  /-- BOOT_STEP_COMPLETE (R399). -/
  | bootStepComplete
  /-- BANK_ACCESS_PERFORMED (R103). -/
  | bankAccessPerformed (core : Nat)
  /-- ENGINE_WRITE_PERFORMED (R120). -/
  | engineWritePerformed (op : Nat)
  /-- UNASSIGNED_ENCODING (R250). -/
  | unassignedEncoding (info : W64)
  /-- INSTRUCTION_FETCH_FAULT (R245). -/
  | instructionFetchFault (cause : BitVec 8) (addr info : W64)
  /-- THERMAL_CONDITION_CLEAR (R416). -/
  | thermalConditionClear
  /-- POWER_GOOD_LOSS (R398). -/
  | powerGoodLoss
  /-- FIRMWARE_IMAGE_WRITE (R400). -/
  | firmwareImageWrite (img : FwImage)
  deriving DecidableEq, Repr

end Sys2Proof
end

