-- ==== Sys2Proof/Machine/Fp.lean ====
section
/-!
DEFINITION. Floating arithmetic on exact dyadic numbers with one rounding at the end (07 R138 to R143,
13 R286 to R291). A stored value is a Nat below 2 to the format's width.
-/
namespace Sys2Proof.Machine

/-- A floating format (07 R138). -/
structure Fmt where
  eb : Nat
  fb : Nat
  bias : Nat
  /-- Subnormal inputs and results become zero (07 R140). -/
  flush : Bool
  deriving DecidableEq, Repr
/-- FP32. -/
def fp32 : Fmt := ⟨8, 23, 127, false⟩
/-- FP16. -/
def fp16 : Fmt := ⟨5, 10, 15, true⟩
/-- BF16. -/
def bf16 : Fmt := ⟨8, 7, 127, true⟩
/-- Width of a format in bits. -/
def Fmt.bits (f : Fmt) : Nat := 1 + f.eb + f.fb

/-- A value: not a number, an infinity, or (-1)^neg m 2^e exactly. -/
inductive Fp
  | nan
  | inf (neg : Bool)
  | num (neg : Bool) (m : Nat) (e : Int)
  deriving DecidableEq, Repr

/-- Zero of a sign. -/
def Fp.zero (neg : Bool) : Fp := .num neg 0 0
/-- A sign as a factor. -/
def signed_ (neg : Bool) (m : Nat) : Int := if neg then -(m : Int) else m
/-- Multiply by a power of two that may be negative only where the result stays whole. -/
def shl_ (m : Nat) (k : Int) : Nat := m * 2 ^ k.toNat

/-- The value of an encoding (07 R138), its subnormals kept. -/
def Fmt.raw (f : Fmt) (x : Nat) : Fp :=
  let neg := x / 2 ^ (f.eb + f.fb) % 2 == 1
  let e := x / 2 ^ f.fb % 2 ^ f.eb
  let m := x % 2 ^ f.fb
  if e = 2 ^ f.eb - 1 then if m = 0 then .inf neg else .nan
  else if e = 0 then .num neg m (1 - (f.bias : Int) - f.fb)
  else .num neg (m + 2 ^ f.fb) ((e : Int) - f.bias - f.fb)
/-- The value of an operand: a flushing format takes a subnormal as zero (07 R139, R140). -/
def Fmt.dec (f : Fmt) (x : Nat) : Fp :=
  if f.flush && x / 2 ^ f.fb % 2 ^ f.eb == 0 then .zero (x / 2 ^ (f.eb + f.fb) % 2 == 1) else f.raw x

/-- The sign bit in place. -/
def Fmt.sign (f : Fmt) (neg : Bool) : Nat := if neg then 2 ^ (f.eb + f.fb) else 0
/-- An infinity's encoding. -/
def Fmt.infBits (f : Fmt) (neg : Bool) : Nat := f.sign neg + (2 ^ f.eb - 1) * 2 ^ f.fb
/-- The canonical NaN (07 R138, R141). -/
def Fmt.nanBits (f : Fmt) : Nat := (2 ^ f.eb - 1) * 2 ^ f.fb + 2 ^ (f.fb - 1)

/-- m / 2^d to nearest, ties to even; more says that a little more than m was meant. -/
def rneShift (m d : Nat) (more : Bool) : Nat :=
  if d = 0 then m
  else
    let n := m / 2 ^ d
    let r := m % 2 ^ d
    let h := 2 ^ (d - 1)
    if r > h ∨ (r = h ∧ (more ∨ n % 2 = 1)) then n + 1 else n

/-- Round a magnitude m 2^e, or a little more where `more` says so (then m has at least four bits more
than the format), to nearest with ties to even (07 R139, R140). -/
def Fmt.round (f : Fmt) (neg : Bool) (m : Nat) (e : Int) (more : Bool) : Nat :=
  if m = 0 then f.sign neg
  else
    let q0 : Int := e + (Nat.log2 m : Int) - f.fb
    let emin : Int := 1 - (f.bias : Int) - f.fb
    let q := if f.flush then q0 else if q0 < emin then emin else q0
    let n := if q ≤ e then shl_ m (e - q) else rneShift m (q - e).toNat more
    let (n, q) := if n = 2 ^ (f.fb + 1) then (2 ^ f.fb, q + 1) else (n, q)
    let E : Int := q + f.fb + f.bias
    if n < 2 ^ f.fb then f.sign neg + n
    else if E < 1 then f.sign neg
    else if (2 ^ f.eb - 1 : Nat) ≤ E then f.infBits neg
    else f.sign neg + E.toNat * 2 ^ f.fb + (n - 2 ^ f.fb)

/-- Encode a value, rounding once. -/
def Fmt.enc (f : Fmt) : Fp → Nat
  | .nan => f.nanBits
  | .inf neg => f.infBits neg
  | .num neg m e => f.round neg m e false

/-! ## Exact operations (13 R287). -/

/-- Negate. -/
def Fp.neg : Fp → Fp
  | .nan => .nan
  | .inf n => .inf (!n)
  | .num n m e => .num (!n) m e
/-- A signed exact number; an exact zero gets the sign given. -/
def ofSigned (i : Int) (e : Int) (zneg : Bool) : Fp :=
  if i = 0 then .zero zneg else .num (decide (i < 0)) i.natAbs e
/-- Add exactly: a zero sum of opposite signs is +0 (13 R287). -/
def Fp.add : Fp → Fp → Fp
  | .nan, _ => .nan
  | _, .nan => .nan
  | .inf a, .inf b => if a = b then .inf a else .nan
  | .inf a, _ => .inf a
  | _, .inf b => .inf b
  | .num a m e, .num b n d =>
    let q := min e d
    ofSigned (signed_ a (shl_ m (e - q)) + signed_ b (shl_ n (d - q))) q (a && b)
/-- Multiply exactly. -/
def Fp.mul : Fp → Fp → Fp
  | .nan, _ => .nan
  | _, .nan => .nan
  | .inf a, .inf b => .inf (a != b)
  | .inf a, .num b n _ => if n = 0 then .nan else .inf (a != b)
  | .num a m _, .inf b => if m = 0 then .nan else .inf (a != b)
  | .num a m e, .num b n d => .num (a != b) (m * n) (e + d)

/-- Numeric order of two values that are not NaN; -0 is below +0 where `signs` says so. -/
def Fp.lt (signs : Bool) : Fp → Fp → Bool
  | .nan, _ => false
  | _, .nan => false
  | .inf a, .inf b => a && !b
  | .inf a, .num .. => a
  | .num .., .inf b => !b
  | .num a m e, .num b n d =>
    let q := min e d
    let x := signed_ a (shl_ m (e - q))
    let y := signed_ b (shl_ n (d - q))
    decide (x < y) || (signs && decide (m = 0) && decide (n = 0) && a && !b)
/-- The value is a NaN. -/
def Fp.isNan : Fp → Bool
  | .nan => true
  | _ => false
/-- Numeric equality; -0 equals +0 and a NaN equals nothing (13 R290). -/
def Fp.eq (a b : Fp) : Bool := !a.isNan && !b.isNan && !a.lt false b && !b.lt false a
/-- The smaller; any NaN operand gives NaN (13 R287). -/
def Fp.min_ (a b : Fp) : Fp := if a.isNan || b.isNan then .nan else if b.lt true a then b else a
/-- The larger. -/
def Fp.max_ (a b : Fp) : Fp := if a.isNan || b.isNan then .nan else if a.lt true b then b else a

/-- Float conditions (11 R249, 13 R290). -/
def fcondHolds (c : FCond) (a b : Fp) : Bool :=
  match c with
  | .eq => a.eq b
  | .ne => !a.eq b
  | .lt => a.lt false b
  | .le => a.lt false b || a.eq b
  | .gt => b.lt false a
  | .ge => b.lt false a || a.eq b
  | .ord => !a.isNan && !b.isNan
  | .unord => a.isNan || b.isNan

/-! ## Functions, correctly rounded (13 R288). -/

/-- Newton's steps to the integer square root from above. -/
def sqrtIter : Nat → Nat → Nat → Nat
  | 0, _, g => g
  | k + 1, n, g =>
    let h := (g + n / g) / 2
    if h < g then sqrtIter k n h else g
/-- The integer square root. -/
def isqrt (n : Nat) : Nat := if n = 0 then 0 else sqrtIter 64 n (2 ^ (Nat.log2 n / 2 + 1))

/-- b / c, rounded (13 R288). -/
def Fmt.div (f : Fmt) (b c : Fp) : Nat :=
  match b, c with
  | .nan, _ => f.nanBits
  | _, .nan => f.nanBits
  | .inf _, .inf _ => f.nanBits
  | .inf a, .num b _ _ => f.infBits (a != b)
  | .num a _ _, .inf b => f.sign (a != b)
  | .num a m e, .num b n d =>
    if n = 0 then if m = 0 then f.nanBits else f.infBits (a != b)
    else
      let k := 64 + Nat.log2 n
      f.round (a != b) (m * 2 ^ k / n) (e - d - k) (decide (m * 2 ^ k % n ≠ 0))
/-- 1 / x. -/
def Fmt.rcp (f : Fmt) (x : Fp) : Nat := f.div (.num false 1 0) x
/-- The square root. -/
def Fmt.sqrt (f : Fmt) (x : Fp) : Nat :=
  match x with
  | .nan => f.nanBits
  | .inf neg => if neg then f.nanBits else f.infBits false
  | .num neg m e =>
    if m = 0 then f.sign neg
    else if neg then f.nanBits
    else
      let odd := (e % 2).toNat
      let n := m * 2 ^ (64 + odd)
      let r := isqrt n
      f.round false r ((e - odd - 64) / 2) (decide (r * r ≠ n))
/-- 1 over the square root. -/
def Fmt.rsq (f : Fmt) (x : Fp) : Nat :=
  match x with
  | .nan => f.nanBits
  | .inf neg => if neg then f.nanBits else f.sign false
  | .num neg m e =>
    if m = 0 then f.infBits neg
    else if neg then f.nanBits
    else
      let odd := (e % 2).toNat
      let n := m * 2 ^ odd
      let r := isqrt (2 ^ 128 / n)
      f.round false r (-64 - (e - odd) / 2) (decide (r * r * n ≠ 2 ^ 128))

/-- Fraction bits of the series below: far past any case that could round the other way. -/
def prec : Nat := 320
/-- The sum of z^(2k+1) / (2k+1) from a term on, in units of 2^-prec. -/
def atanhSum : Nat → Nat → Nat → Nat → Nat
  | 0, _, _, _ => 0
  | n + 1, k, t, zz => t / (2 * k + 1) + atanhSum n (k + 1) (t * zz / 2 ^ prec) zz
/-- The natural logarithm of a / b, for b ≤ a ≤ 2b, in units of 2^-prec. -/
def lnRatio (a b : Nat) : Nat :=
  let z := (a - b) * 2 ^ prec / (a + b)
  2 * atanhSum 104 0 z (z * z / 2 ^ prec)
/-- The sum of y^k / k! from a term on. -/
def expSum : Nat → Nat → Nat → Nat → Nat
  | 0, _, _, _ => 0
  | n + 1, k, t, y => t + expSum n (k + 1) (t * y / 2 ^ prec / (k + 1)) y

/-- 2^x, rounded (13 R288). (DESIGN CHOICE, log entry 42.) -/
def Fmt.exp2 (f : Fmt) (x : Fp) : Nat :=
  match x with
  | .nan => f.nanBits
  | .inf neg => if neg then f.sign false else f.infBits false
  | .num neg m e =>
    if (0 ≤ e ∧ 1024 ≤ shl_ m e) ∨ (e < 0 ∧ 1024 ≤ m / 2 ^ (-e).toNat) then
      if neg then f.sign false else f.infBits false
    else
      let i : Int := if 0 ≤ e then signed_ neg (shl_ m e) * 2 ^ prec
        else signed_ neg (shl_ m (prec + e))
      let n := i / (2 ^ prec : Nat)
      let y := (i % (2 ^ prec : Nat)).toNat
      if y = 0 then f.round false 1 n false
      else
        let r := expSum 90 0 (2 ^ prec) (y * lnRatio 2 1 / 2 ^ prec)
        f.round false (r / 2 ^ 64) (n - prec + 64) true
/-- The base-2 logarithm, rounded (13 R288). (DESIGN CHOICE, log entry 42.) -/
def Fmt.log2 (f : Fmt) (x : Fp) : Nat :=
  match x with
  | .nan => f.nanBits
  | .inf neg => if neg then f.nanBits else f.infBits false
  | .num neg m e =>
    if m = 0 then f.infBits true
    else if neg then f.nanBits
    else
      let n : Int := e + (Nat.log2 m : Int)
      let p := 2 ^ Nat.log2 m
      if m = p then f.round (decide (n < 0)) n.natAbs 0 false
      else
        let l := lnRatio m p * 2 ^ prec / lnRatio 2 1
        let v : Int := n * 2 ^ prec + l
        f.round (decide (v < 0)) (v.natAbs / 2 ^ 64) (64 - (prec : Int)) true

/-! ## Rounding to integers, classes, conversions (13 R289, R291). -/

/-- The magnitude of m 2^e rounded to an integer by a mode. -/
def integral (mode : RMode) (neg : Bool) (m : Nat) (e : Int) : Nat :=
  if 0 ≤ e then shl_ m e
  else
    let d := (-e).toNat
    let up := if m % 2 ^ d = 0 then 0 else 1
    match mode with
    | .near => rneShift m d false
    | .zero => m / 2 ^ d
    | .down => m / 2 ^ d + if neg then up else 0
    | .up => m / 2 ^ d + if neg then 0 else up
/-- VFRND (13 R289). -/
def Fmt.rnd (f : Fmt) (mode : RMode) (x : Fp) : Nat :=
  match x with
  | .nan => f.nanBits
  | .inf neg => f.infBits neg
  | .num neg m e => f.round neg (integral mode neg m e) 0 false
/-- VFCLASS: the stored encoding's class (13 R289). -/
def Fmt.classBits (f : Fmt) (x : Nat) : Nat :=
  let neg := x / 2 ^ (f.eb + f.fb) % 2 == 1
  let e := x / 2 ^ f.fb % 2 ^ f.eb
  let m := x % 2 ^ f.fb
  2 ^ (if e = 2 ^ f.eb - 1 then if m ≠ 0 then 8 else if neg then 0 else 7
    else if e = 0 then if m = 0 then (if neg then 3 else 4) else if neg then 2 else 5
    else if neg then 1 else 6)
/-- Float to a signed 32-bit integer (13 R291). -/
def toWord (mode : RMode) (x : Fp) : Nat :=
  match x with
  | .nan => 0
  | .inf neg => if neg then 2 ^ 31 else 2 ^ 31 - 1
  | .num neg m e =>
    let i := signed_ neg (integral mode neg m e)
    ofInt 32 (max (-(2 ^ 31)) (min i (2 ^ 31 - 1)))

/-- Format of a float type. -/
def ftFmt : FType → Fmt
  | .s2 => fp32
  | .h4 => fp16
  | .b4 => bf16
/-- The conversion of one sub-element (13 R291). -/
def convert (d s : CType) (mode : RMode) (x : Nat) : Nat :=
  let fmt : CType → Fmt := fun t => match t with
    | .h4 => fp16
    | .b4 => bf16
    | _ => fp32
  match d, s with
  | .w, .w => x
  | .w, _ => toWord mode ((fmt s).dec x)
  | _, .w =>
    let i := toInt 32 x
    (fmt d).round (decide (i < 0)) i.natAbs 0 false
  | _, _ => (fmt d).enc ((fmt s).dec x)

/-- FP32 addition of two encodings (07 R139). -/
def fadd32 (a b : Nat) : Nat := fp32.enc ((fp32.dec a).add (fp32.dec b))

end Sys2Proof.Machine
end

