-- ==== Sys2Proof/Config.lean ====
section
/-!
DEFINITION. The values that the spec leaves to an implementation, to firmware or to the moment.
Each free value is an opaque function: nothing in Lean can evaluate it or prove a value of it, so a
statement about the model holds for every value. The argument is the counter `State.draws`, or the
thing the value belongs to (00 R459, 01 R27, 03 R54, 10 R218, 18 R402).
-/
namespace Sys2Proof.Config

/-- A lease length that a slice chooses (03 R54: 'a lease length of its own choosing'). -/
opaque freeLease : Nat → W64
/-- Cycles that pass during one step beyond the first (00 R459). -/
opaque freeCycles : Nat → W64
/-- TVEC as the running firmware image chooses it, on the given boot; never 0 (10 R218). -/
opaque freeTvec : Nat → W64
/-- SAVEBASE as the Stoker chooses it at bind; never 0 (10 R218). -/
opaque freeSaveBase : Nat → W64
/-- Where a group's part of the save area begins, past SAVEBASE, by core and resident slot; the layout is the firmware's (10
R230). -/
opaque freeSaveAt : Nat → Nat → W64
/-- How many K steps a streaming MMA completes at a moment, by draw (10 R227). -/
opaque freeKsteps : Nat → BitVec 9
/-- Whether the array reads a code ahead of its step at a moment, by draw and place (15 R336, 03 R62). -/
opaque freeRead : Nat → Nat → Bool
/-- What an accumulator element holds after its array has lost its contents, by draw and element (09 R214). -/
opaque freeAcc : Nat → Nat → W32
/-- The requester's tables give the page of a request another size than its owner's, by the request's tag and address
(04 R72). -/
opaque freeSize : W64 → W64 → Bool
/-- A signature word of an attestation report, by draw and word (18 R402). -/
opaque freeSignature : Nat → Nat → Byte
/-- A function reset finds a last-level line's bytes changed and not written back, by draw and line (18 R398). -/
opaque freeDirty : Nat → Nat → Bool
/-- What memory holds under such a line, and its mark, by draw and place (18 R398). -/
opaque freeOld : Nat → Nat → Byte
opaque freeOldMark : Nat → Nat → Bool
/-- Byte of the device's certificate chain, as BAR0 shows it (18 R401). -/
opaque certByte : Nat → Byte
/-- Bits of a register whose place the spec names but whose value it leaves undefined. -/
opaque freeWord : Nat → W64

/-- TVEC of a boot: the free value, kept from being 0 (10 R218: 'It is never 0 while a group
runs') and aligned as a clause header is (11 R233). -/
def tvecOf (n : Nat) : W64 := (freeTvec n ||| 4#64) &&& ~~~3#64 &&& ~~~(1#64 <<< 63)
/-- SAVEBASE of a bind: the free value, kept from being 0 and a global address (10 R218). -/
def saveBaseOf (n : Nat) : W64 := (freeSaveBase n ||| 64#64) &&& ~~~63#64 &&& ~~~(1#64 <<< 63)

end Sys2Proof.Config
end

