-- ==== Sys2Proof/Machine/State.lean ====
section
/-!
DEFINITION. The state of the Exdom E4: plain data, holding everything the spec gives the device.
A list of pairs whose first component is a Nat is a sparse table: rising keys, no entry equal to
the table's default (Machine/Table.lean). Every record's docstring cites the rule that names it.
-/
namespace Sys2Proof.Machine

/-- What the machine stops with. Every instruction and event that the spec gives an effect takes it; a
program's own errors are traps, which are next states. -/
inductive Fault
  /-- Raised by APERTURE_READ and APERTURE_WRITE of physical memory that is not installed: the spec
  gives such an access no effect (03 R57, 17 R395). Safe: the model stops. -/
  | notInstalled (pa : Nat)
  deriving DecidableEq, Repr

/-- Why an instruction is refused. -/
inductive Refusal
  /-- Raised by `exec` for an instruction without a meaning. Safe. -/
  | notModelled (mnemonic : String)
  deriving DecidableEq, Repr

/-- Operations of the atomics (14 R313). -/
inductive AtomOp | add | and | or | xor | min | max | xchg | incwrap | fadd | cas
  deriving DecidableEq, Repr
/-- Forms of a barrier arrival (14 R319). -/
inductive ArrKind | plain | drop | join
  deriving DecidableEq, Repr

/-- A destination register of a pending result: an s register, or a v register of a thread. -/
inductive Dest | s (r : Nat) | v (r t : Nat)
  deriving DecidableEq, Repr

/-- A place in memory: whether its channel is managed (05), and the key of its first byte in `mem`. -/
structure Place where
  glob : Bool
  key : Nat
  deriving DecidableEq, Repr

/-- Registers a result has not yet reached (11 R244). -/
structure Pend where
  /-- Names the result for whatever will supply it. -/
  id : Nat
  /-- The completion flag it holds, if any. -/
  flag : Option Nat
  /-- Each destination with its value once it is there, and whether its data was poisoned. -/
  writes : List (Dest × Option (W64 × Bool))
  /-- Effective address of the access (10 R460). -/
  addr : W64
  /-- Address of the instruction (10 R460). -/
  ipc : W64
  /-- It is the result of a shipped section, not of the group's own access (12 R262). -/
  sect : Bool := false
  /-- The instruction at `ipc` still waits for it, and has not retired (10 R460). -/
  sync : Bool := false
  deriving DecidableEq, Repr

/-- Kinds of token (16 R366). -/
inductive TokKind | none | fence | engine | sect | mcast
  deriving DecidableEq, Repr
/-- A k register (08 R170, 16 R366). -/
structure Tok where
  kind : TokKind := .none
  pending : Bool := false
  scope : Scope := .dev
  cause : BitVec 8 := 0
  code : BitVec 16 := 0
  count : W32 := 0
  /-- Sections still to end, for a section token (16 R372). -/
  left : Nat := 0
  deriving DecidableEq, Repr

/-- A byte a group or core holds unpublished: its value and whether its word was written poisoned. -/
abbrev Held := Option (Byte × Bool)

/-- What an update at a home does (05 R116, 03 R65, R67). -/
inductive HomeAct
  | rmw (op : AtomOp) (z : ASize) (c d : W64)
  | arrive (k : ArrKind)
  | expect (n : W32)
  /-- An engine's bytes, with or without an arrival, and its failure code if any (16 R352). -/
  | bytes (n : Nat) (arv : Bool) (code : BitVec 16)
  /-- A counter addition and the status written before it. -/
  | count (n : W64) (status : W32)
  /-- A section's store of n bytes to an unmanaged space. -/
  | store (n : Nat) (data : W64)
  deriving DecidableEq, Repr

/-- An update on its way to its home. -/
structure HomeOp where
  act : HomeAct
  place : Place
  /-- Generic address, for records and traps. -/
  addr : W64
  /-- Context whose tables a completion write is checked in (16 R458). -/
  ctx : Nat
  /-- The issuing group, and the pending result it fills. -/
  gid : Nat := 0
  pend : Option Nat := none
  dest : Option Dest := none
  /-- It is a RED: it returns nothing, and reports poison itself (14 R314). -/
  red : Bool := false
  tag : W64 := 0
  /-- Results of the group's po-earlier loads and atomics that it does not perform before (05 R97). -/
  after : List Nat := []
  /-- The group's private bytes that travel with it (05 R106). -/
  own : List (Nat × Held) := []
  /-- The group is deterministic (06 R129). -/
  det : Bool := false
  /-- The engine or Riddle operation whose completion it is, or 0. -/
  op : Nat := 0
  deriving DecidableEq, Repr

/-- A fence's release part in progress (05 R107). -/
structure FenceRec where
  /-- The k register of its token; 16 where it has none. -/
  k : Nat
  scope : Scope
  /-- Bytes it covers that no release has published yet. -/
  cover : List (Nat × Held)
  /-- What it covers has been published at its scope. -/
  published : Bool
  /-- Results of po-earlier loads and atomics that it still waits for. -/
  waits : List Nat := []
  /-- BARARV.fz: the arrival that is sent when the release part is done (14 R319). -/
  arv : Option HomeOp := none
  deriving DecidableEq, Repr

/-- One register's part of a load of global memory that waits for a line, for a page or for an earlier access of its
group to the bytes (03 R58, 04 R84, 05 R97). -/
structure LoadOp where
  /-- The pending result it fills. -/
  pend : Nat
  dest : Dest
  addr : W64
  keys : List Nat
  /-- The group's private bytes among them when it was issued. -/
  own : List (Nat × Held)
  deriving DecidableEq, Repr

/-- Why a group is blocked (08 R192). -/
inductive Block
  /-- A clause's wait mask or WAITF. -/
  | flags (mask : BitVec 12)
  /-- A register whose result is pending. -/
  | result
  /-- A k register whose token is pending. -/
  | token (k : Nat)
  /-- A full flag count. -/
  | fullFlag (f : Nat)
  /-- BARWAIT: the object and the parity waited for. -/
  | barrier (p : Place) (parity : Bool)
  /-- CNTWAIT: the object and its target. -/
  | counter (p : Place) (target : W64)
  /-- TCLAIMW with an empty queue. -/
  | claim
  /-- EQUIESCE. -/
  | quiesce
  /-- A KICK at a full queue. -/
  | engineFull
  /-- A LAUNCH at a full list. -/
  | launchFull
  /-- A matrix instruction the array cannot yet take. -/
  | array
  /-- A cluster claim waiting for room. -/
  | room
  /-- An atomic refused at a full replay filter. -/
  | replay
  /-- Something only a peer device's reply supplies. -/
  | peer (line : Nat)
  /-- A section's or task's own tokens or results. -/
  | drain
  /-- TLBINV, until the invalidation completes (04 R75). -/
  | tlb
  /-- A deterministic turn (06 R135). -/
  | turn
  /-- A quantum end (06 R133). -/
  | quantum
  deriving DecidableEq, Repr

/-- A group's place in its deterministic domain (06 R132 to R136). -/
structure Det where
  quant : Nat
  /-- The group has reached a quantum end and waits for the others. -/
  atEnd : Bool
  /-- The group holds the turn. -/
  turn : Bool
  /-- The group has exited and publishes at the next quantum end. -/
  leaving : Bool
  deriving DecidableEq, Repr

/-- A group of a task-mode launch (08 R186, R188). -/
inductive TaskSt | off | idle | running (slot succ next nextn : W64)
  deriving DecidableEq, Repr

/-- Who shipped a section (16 R369 to R372). -/
structure Sender where
  dev : Nat
  gid : Nat
  launch : Nat
  gidx : W32
  thread : Nat
  ctx : Nat
  k : Nat
  pend : Nat
  tag : W64
  deriving DecidableEq, Repr

/-- A section request (16 R369). -/
structure SecReq where
  sender : Sender
  entry : W64
  lock : W64
  args : List W64
  nres : Nat
  /-- Its scope, fixed as it is issued (06 R124). -/
  scope : Scope := .dev
  /-- It came in a packet, and whether a stub or an anchor had relayed that (04 R82). -/
  far : Bool := false
  relayed : Bool := false
  deriving DecidableEq, Repr

/-- A resident group, or a running section (08 R165 to R182, 16 R371). -/
structure Group where
  unit : UnitId
  /-- The model's own name of the group; it outlives a pre-emption. -/
  gid : Nat := 0
  /-- The group is resident. -/
  live : Bool := false
  ctx : Nat := 0
  launch : Nat := 0
  /-- CORE_TEAM (02 R34). -/
  team : BitVec 12 := 0
  /-- Threads 0 to n0 - 1 are present (08 R165). -/
  n0 : Nat := 32
  /-- v registers (08 R171). -/
  nv : Nat := 64
  /-- Bytes of a lane-private window (03 R45). -/
  W : Nat := 0
  pc : W64 := 0
  /-- The governing clause header and its flags (11 R242, R243). -/
  hdr : W64 := 0
  fa : FlagSel := none
  fb : FlagSel := none
  s : List (Nat × W64) := []
  /-- v register r of thread t has key 32r + t. -/
  v : List (Nat × W64) := []
  m : List (Nat × W32) := []
  k : List (Nat × Tok) := []
  f : List (Nat × Nat) := []
  pend : List Pend := []
  loads : List LoadOp := []
  fences : List FenceRec := []
  /-- The trap registers (10 R218). -/
  trapCause : W64 := 0
  trapPc : W64 := 0
  trapAddr : W64 := 0
  trapInfo : W64 := 0
  trapMask : W64 := 0
  trapHdr : W64 := 0
  save0 : W64 := 0
  save1 : W64 := 0
  utvec : W64 := 0
  handler : Bool := false
  ufwd : Bool := false
  saveBase : W64 := 0
  retired : W64 := 0
  gts : Nat := 0
  /-- Private global bytes (05 R98). -/
  priv : List (Nat × Held) := []
  /-- Random-number state (13 R295). -/
  rngKey : W64 := 0
  rngCtr : List (Nat × W32) := []
  /-- TCLAIMW's delivery queue, oldest first (08 R191). -/
  claims : List W64 := []
  gidx : W32 := 0
  ngrp : W32 := 0
  localNum : Nat := 0
  onCore : Nat := 1
  /-- Level indices 1 to 7 and counts 0 to 7 (08 R178). -/
  lvlIdx : List Nat := []
  lvlCnt : List Nat := []
  /-- Core-local number of the launch's producer group on the core (08 R179). -/
  producer : Option Nat := none
  block : Option Block := none
  /-- The next fetch is a launch's, task's or section's entry, which must be a clause header (11 R242). -/
  atEntry : Bool := false
  yielded : Bool := false
  /-- Suspended on a fault: the number of its fault record (10 R221, R224). -/
  suspended : Option Nat := none
  preempting : Bool := false
  /-- The Stoker has restored the group: its handler is to return (10 R232). -/
  restored : Bool := false
  det : Option Det := none
  task : TaskSt := .off
  exiting : Bool := false
  /-- The request a section runs, on a Damper (16 R371). -/
  sec : Option SecReq := none
  deriving DecidableEq, Repr

/-- An unmanaged access that a core's port has accepted (05 R103): a store, unless it says otherwise. -/
structure BankAcc where
  keys : List Nat
  /-- What a store writes; a load's effective address. -/
  data : W64
  gid : Nat
  /-- Results of the group's po-earlier loads and atomics that it does not perform before (05 R97). -/
  after : List Nat := []
  /-- An atomic or a barrier update. -/
  op : Option HomeOp := none
  /-- A load: the pending result it fills, and the register. -/
  load : Option (Nat × Dest) := none
  deriving DecidableEq, Repr

/-- A line of an L1 with its lease (03 R54). -/
structure L1Line where
  line : Nat
  lease : Nat
  wts : Nat
  data : BitVec 512
  psn : BitVec 8
  deriving DecidableEq, Repr

/-- A prefetch whose line the slice has not served yet, with the reader's gts and the offset it translated (14 R310). -/
structure Miss where
  line : Nat
  gts : Nat
  ctx : Nat
  off : Nat
  deriving DecidableEq, Repr

/-- A B-store load-map entry (03 R61). -/
structure MapEnt where
  src : W64
  col0 : Nat
  cols : Nat
  off : Nat
  len : Nat
  pitch : W32
  ctx : Nat
  deriving DecidableEq, Repr

/-- The completion object of an operation (16 R352, R361). -/
inductive DoneObj
  | bar (arv : Bool)
  | cnt
  | tok (k : Nat)
  deriving DecidableEq, Repr

/-- Who issued an engine operation, as the operation resolves its addresses (02 R38). -/
structure Issuer where
  unit : UnitId
  gid : Nat
  ctx : Nat
  launch : Nat
  team : BitVec 12
  W : Nat
  gts : Nat
  deriving DecidableEq, Repr

/-- A copy-engine operation: a record in the queue, or one that runs (16 R346 to R352). -/
structure EngOp where
  id : Nat
  /-- The record's 16 words. -/
  rcd : List W32
  by_ : Issuer
  /-- The frames it reads at KICK, eight words each, and which of their 8-byte words were poisoned (16 R350). -/
  frame : List W32 := []
  framePsn : List Nat := []
  /-- LOOP: recorded parity of each stage's empty barrier, and the iteration that its next flip releases (16 R351). -/
  rounds : List Bool := []
  nexts : List Nat := []
  /-- An iteration of a LOOP that has been released: the LOOP's name, and which iteration (06 R118, 16 R351). -/
  of_ : Option Nat := none
  iter : Nat := 0
  /-- Destination offsets of the pieces that have not been moved; none before the first write (06 R120). -/
  plan : Option (List Nat) := none
  /-- Bytes moved, and bytes already subtracted from its barrier (16 R352). -/
  moved : Nat := 0
  told : Nat := 0
  /-- Its writes have performed (06 R121). -/
  wrote : Bool := false
  /-- Its completion write has been made, or is on its way. -/
  sent : Bool := false
  /-- Status of 16 R353 and its detail. -/
  code : BitVec 16 := 0
  detail : BitVec 8 := 0
  /-- The lowest destination offset that faulted. -/
  foff : Nat := 0
  /-- Its pair as a pending member, when its launch is deterministic (06 R136). -/
  clock : Option (Nat × Nat) := none
  deriving DecidableEq, Repr

/-- Which Riddle instruction (16 R358). -/
inductive RidKind | gather | scatter | scatadd | mcst
  deriving DecidableEq, Repr
/-- A Riddle operation (16 R358 to R365). -/
structure RidOp where
  id : Nat
  kind : RidKind
  by_ : Issuer
  core : Nat
  base : W64
  p : List W32
  done : DoneObj
  doneAddr : W64 := 0
  /-- Pieces of elements that have not been performed or sent yet, numbered element by element. -/
  todo : List Nat := []
  /-- Peer pages: the page, its first element, and whether its replies are in (21 R433). -/
  pages : List (W64 × Nat × Bool) := []
  wrote : Bool := false
  /-- Index entries that have been read, and whether each was poisoned (16 R361). -/
  idxRead : List (Nat × Option (W32 × Bool)) := []
  /-- Its completion write has been made, or is on its way. -/
  sent : Bool := false
  /-- Faulted elements and their causes (16 R363). -/
  faults : List (Nat × Nat) := []
  psn : Bool := false
  /-- MCST: the acknowledgement OK, FAIL, FIRST and version (16 R365). -/
  mack : Nat × Nat × Nat × Nat := (0, 0, 0xFFFF, 0)
  clock : Option (Nat × Nat) := none
  deriving DecidableEq, Repr

/-- Power state of a compute core (09 R214, R215). -/
inductive Power | active | entering | gated | waking
  deriving DecidableEq, Repr

/-- A compute core, by logical ID. -/
structure Core where
  /-- The context whose bytes its scratchpad and B-store hold (09 R207). -/
  ctx : Option Nat := none
  /-- Carve-out in 64 KiB units (03 R31). -/
  carve : Nat := 0
  bankQ : List BankAcc := []
  engQ : List EngOp := []
  engRun : List EngOp := []
  loadMap : List MapEnt := []
  l1 : List L1Line := []
  missQ : List Miss := []
  /-- Narrow-published bytes (05 R100), and the name of the group that published each. -/
  narrow : List (Nat × Held) := []
  nown : List (Nat × Nat) := []
  mark : BitVec 12 := 0
  markCycle : W64 := 0
  power : Power := .active
  /-- Rotating pointer of the uniform unit, and the slot that issued last on each lane (09 R212). -/
  uptr : Nat := 0
  last : List (Nat × Nat) := []
  deriving DecidableEq, Repr

/-- An MMA with what its issue latched (07 R154, 15 R332, R335). -/
structure Mma where
  p : List W32
  aframe : List W32
  bframe : List W32
  aidx : List W32
  bidx : List W32
  ascale : List Byte
  bscale : List Byte
  /-- An operand byte that was read was poisoned, by row and by column (15 R337). -/
  arowPsn : List Nat
  bcolPsn : List Nat
  /-- Codes of A that the A-stream has read ahead of their step (15 R336), with their marks: element (i, k) has key
  256i + k. -/
  aread : List (Nat × Option (Int × Bool)) := []
  /-- Bytes of the B-stores that have been read ahead of their step (03 R62). -/
  bread : List (Nat × Held) := []
  deriving DecidableEq, Repr

/-- The residue array of a core pair (15 R329 to R345). -/
structure Arr where
  /-- Accumulator elements: key 32768a + 256r + c (08 R182). -/
  acc : List (Nat × W32) := []
  accPsn : List (Nat × Bool) := []
  /-- Exact partial sums of the streaming MMA, as the residues of 10 R228: key 256r + c. -/
  res : List (Nat × W64) := []
  stream : Option Mma := none
  conv : Option Mma := none
  /-- Residues of the MMA that converts. -/
  convRes : List (Nat × W64) := []
  kdone : Nat := 0
  /-- An MFREEZE has been accepted, and the array has not reached its step boundary (15 R344). -/
  freezing : Bool := false
  frozen : Bool := false
  manual : Bool := false
  /-- The group that holds the matrix right (08 R180). -/
  holder : Option Nat := none
  deriving DecidableEq, Repr

/-- A Damper core, by logical ID; its running sections are groups (16 R371). -/
structure Damper where
  queue : List SecReq := []
  /-- Refused senders, in refusal order (08 R195). -/
  refusal : List SecReq := []
  /-- Refused while that list was full: their senders try again (08 R195). -/
  retry : List SecReq := []
  /-- Pages whose locks are closed (04 R91), and the requests held for them. -/
  closed : List W64 := []
  held : List SecReq := []
  mark : BitVec 12 := 0
  markCycle : W64 := 0
  deriving DecidableEq, Repr

/-- A cached translation, and the number of the TLB that holds it (04 R73). -/
structure TlbEnt where
  clus : Nat
  ctx : Nat
  /-- First offset of the page and whether it is a 2 MiB page. -/
  page : Nat
  big : Bool
  pte : W64
  deriving DecidableEq, Repr
/-- A miss waiting for a walker, and the TLBs that it fills (04 R74). -/
structure Walk where
  tlbs : List Nat
  ctx : Nat
  off : Nat
  deriving DecidableEq, Repr
/-- An invalidation in progress (04 R75). -/
structure Inval where
  ctx : Nat
  lo : Nat
  /-- Bytes; 0 for every page of the context. -/
  len : Nat
  /-- It is the mailbox's SHOOTDOWN. -/
  mbox : Bool
  deriving DecidableEq, Repr

/-- A group's own state as the Stoker keeps it for a saved context (10 R230, R231). -/
structure SavedCore where
  core : Nat
  carve : Nat
  scratch : List (Nat × Byte)
  scratchPsn : List Nat
  loadMap : List MapEnt
  parked : List EngOp
  arr : Option Arr
  deriving DecidableEq, Repr

/-- A context (09 R200, R210, R211, 17 R396). -/
structure Ctx where
  exists_ : Bool := false
  busy : Bool := false
  dead : Bool := false
  ptroot : W64 := 0
  gbase : Nat := 0
  gsize : Nat := 0
  ev : BitVec 256 := 0
  saveBase : W64 := 0
  /-- Device-launch list: the packet's bytes and the address LAUNCH read (09 R210). -/
  devList : List (List Byte × W64) := []
  /-- Saved groups and cores of a pre-empted context (10 R230, R231). -/
  saved : List Group := []
  savedCores : List SavedCore := []
  deriving DecidableEq, Repr

/-- A bind record (09 R205). -/
structure Slot where
  queue : BitVec 14 := 0
  ctx : BitVec 10 := 0
  prio : BitVec 2 := 0
  valid : Bool := false
  slice : BitVec 16 := 0
  xbase : BitVec 10 := 0
  xsize : BitVec 10 := 0
  qdesc : W64 := 0
  ptroot : W64 := 0
  /-- The dispatcher has not yet acknowledged the unbind (09 R208). -/
  unacked : Bool := false
  deriving DecidableEq, Repr

/-- A launch that has been placed and has not completed (09 R199, R204). -/
structure Launch where
  id : Nat
  ctx : Nat
  queue : Nat
  index : W64
  devl : Bool
  set : BitVec 256
  carve : Nat
  task : Bool
  tq : W64
  donen : W32
  done : W64
  /-- Engine operations and sections still running (09 R204). -/
  ops : Nat := 0
  /-- The task-mode end has been reached (08 R189). -/
  ended : Bool := false
  /-- Reserved records that COMMIT has not passed: first index and how many (08 R185). -/
  commits : List (W64 × W64) := []
  /-- Its groups were stopped with its context: it does not complete, but ends with CONTEXT_DEAD (09 R211). -/
  killed : Bool := false
  deriving DecidableEq, Repr

/-- A deterministic domain (06 R132 to R136). -/
structure Dom where
  launch : Nat
  /-- PKT.QUANT. -/
  quant : Nat
  /-- Bytes as they stood at the last quantum end, with their marks, where they have changed since (06 R134). -/
  snap : List (Nat × Held)
  /-- Bytes of peers' lines that have been written since then while the line was not here: the value that they had is the
  owner's, as the line's fill brings it. -/
  late : List (Nat × Bool) := []
  deriving DecidableEq, Repr

/-- A cluster claim's number on its way to its recipients (08 R191). -/
structure Delivery where
  launch : Nat
  clus : Nat
  /-- The groups of the launch that were in the cluster as the claim was issued; one that is saved or moved stays a
  recipient (10 R231). -/
  gids : List Nat := []
  /-- The claiming group and its pending result, until the claim has its number. -/
  gid : Nat
  pend : Nat
  val : Option W64
  deriving DecidableEq, Repr

/-- The dispatcher (09 R196 to R211). -/
structure Disp where
  slots : List (Nat × Slot) := []
  slotPtr : Nat := 0
  queuePtr : Nat := 0
  /-- Descriptor address of each registered queue (09 R196). -/
  queues : List (Nat × Option W64) := []
  ready : List (Nat × Bool) := []
  launches : List Launch := []
  /-- Packets at the head of a queue, or of a context's device-launch list (true), by that number: those that have been judged
  dispatchable (09 R200), those that have been skipped, and those that have reached 100 microseconds since, in that order; the
  first of these holds the reservation (09 R206). -/
  judged : List (Bool × Nat) := []
  skips : List (Bool × Nat) := []
  marks : List (Bool × Nat) := []
  doms : List Dom := []
  deliveries : List Delivery := []
  deriving DecidableEq, Repr

/-- A migration in progress (04 R83, R84). -/
structure Mig where
  /-- The page's name: its base, bit 0 set where it is of 2 MiB. -/
  page : W64
  ctx : Nat
  owner : Nat
  frame : W64
  /-- 0 while other Stokers are asked whether it may start, then the steps of 04 R84; 5 and 6 are the anchor's
  part of step 4 and the end of it. -/
  step : Nat
  /-- Answers of other Stokers still to come, and the refusal they gave. -/
  waiting : Nat
  bad : BitVec 16 := 0
  deriving DecidableEq, Repr
/-- A stub (04 R87, R89). -/
structure Stub where
  page : W64
  owner : Nat
  deriving DecidableEq, Repr
/-- A stub reclamation the anchor runs (04 R89, R90). -/
structure Reclaim where
  page : W64
  old : Nat
  members : List Nat
  started : Bool
  waiting : List Nat
  failed : Option Nat
  deriving DecidableEq, Repr
/-- A line of a peer device held in the local slice (03 R58). -/
structure PeerLine where
  held : Bool := false
  excl : Bool := false
  dirty : BitVec 64 := 0
  /-- The request for it failed: the access that waits reads it poisoned, and it is then dropped (17 R380). -/
  lost : Bool := false
  /-- It has been evicted and its write-back is out: no access finds it here. -/
  wb : Bool := false
  /-- Words that a store of less than a word has written while the line was not here: a mark of the owner's stays on
  them (18 R406). -/
  part : BitVec 8 := 0
  deriving DecidableEq, Repr

/-- Owners, anchors and pages that move (04 R80 to R92). -/
structure Own where
  /-- Owner cache: replica, page, guessed owner; in each set of a replica the most recently used first (04 R81). -/
  cache : List (Nat × (W64 × Nat)) := []
  records : List (W64 × Nat) := []
  stubs : List Stub := []
  migs : List Mig := []
  /-- Pages that migrate toward this device (04 R83). -/
  incoming : List W64 := []
  /-- Devices that have sent a request for a page (04 R89). -/
  reqSets : List (W64 × List Nat) := []
  reclaims : List Reclaim := []
  /-- Accesses held for a migrating page, oldest first (04 R84). -/
  held : List Packet := []
  /-- Requests that were answered RETRY and have not come back: a younger one of the same source and page is refused too
  (04 R88). -/
  refused : List Packet := []
  peers : List (Nat × PeerLine) := []
  /-- Devices sharing a line this device owns, with the generic address each asked for (03 R59). -/
  sharers : List (Nat × List (Nat × W64)) := []
  /-- The device that holds a line exclusively, and the address it asked for (06 R126). -/
  excl : List (Nat × (Nat × W64)) := []
  /-- Bytes published here in a line while a peer held it exclusively: they come after the peer's (06 R126). -/
  pubOver : List (Nat × BitVec 64) := []
  /-- Peer copies of lines that are written, to be invalidated: line, device, the address it asked for (03 R58). -/
  invq : List (Nat × (Nat × W64)) := []
  /-- Publications that wait for exclusive ownership of a peer's line, or for peers' copies to be invalidated: the
  lines of each (06 R127). -/
  pubs : List (List Nat) := []
  /-- Narrow holders of a line, by core, in the order they were recorded (03 R59). -/
  holders : List (Nat × List Nat) := []
  deriving DecidableEq, Repr

/-- A route (17 R376). -/
structure Route where
  port : BitVec 4 := 0
  hops : BitVec 3 := 0
  v : Bool := false
  deriving DecidableEq, Repr
/-- A multicast group entry (17 R389). -/
structure MGroup where
  ver : W32 := 0
  oldVer : W32 := 0
  ports : BitVec 12 := 0
  oports : BitVec 12 := 0
  loc : Bool := false
  oloc : Bool := false
  ov : Bool := false
  v : Bool := false
  root : BitVec 10 := 0
  dst : W64 := 0
  dlen : BitVec 9 := 0
  mapv : Bool := false
  ctx : BitVec 10 := 0
  deriving DecidableEq, Repr
/-- A multicast a device has forwarded and whose answers it gathers (17 R390, R461). -/
structure Mcast where
  id : Nat
  group : Nat
  ver : W32
  /-- Where its MACK goes: the packet it answers, or a local operation. -/
  parent : Option Packet
  op : Nat
  ports : List Nat
  ok : Nat
  fail : Nat
  first : Nat
  deriving DecidableEq, Repr
/-- States of a fabric link (01 R29). -/
inductive LinkSt | absent | down | up16 | up8
  deriving DecidableEq, Repr
/-- A fabric link and its port (17 R374, R375, R384 to R387). -/
structure FLink where
  st : LinkSt := .down
  half : Bool := false
  nbr : Option (Nat × Nat) := none
  txSeq : BitVec 16 := 0
  /-- Packets sent and not acknowledged, oldest first (17 R384). -/
  replay : List (BitVec 16 × Packet) := []
  /-- Packets that wait for the link, by virtual channel (17 R377). -/
  txq : List (Nat × List Packet) := []
  rxExp : BitVec 16 := 0
  /-- Flits of the packet being received. -/
  rxFlits : List (List Byte) := []
  nak : Bool := false
  /-- Packets accepted since the last acknowledgement was sent. -/
  unacked : Nat := 0
  /-- What the link has put on the wire since it trained, flit by flit with its envelope (17 R381). -/
  wire : List (List Byte) := []
  failed : BitVec 16 := 0
  /-- An acknowledgement is due (17 R384). -/
  ackDue : Bool := false
  /-- Both ends have stopped and train again, and whether LINK_RETRAIN waits for it (17 R396). -/
  retraining : Bool := false
  byHost : Bool := false
  deriving DecidableEq, Repr
/-- What a request of this device is for. -/
inductive ReqFor
  | fill (line : Nat)
  /-- A group's atomic: its result, and the bytes that travel with it, narrow-published or private (05 R106). -/
  | atom (gid : Nat) (pend : Nat) (dest : Option Dest) (carried : List (Nat × Bool))
  | element (op i : Nat)
  | remote (op : Nat)
  /-- A counter addition, and the engine or Riddle operation whose completion it is, or 0. -/
  | count (op : Nat)
  | ship (req : SecReq)
  | owner (page : W64)
  /-- A Riddle operation's packet to its group's root, and a copy to the neighbour on a port. -/
  | mroot (op : Nat)
  | mcast (m port : Nat)
  | recall (line : Nat)
  /-- The invalidation of a peer's copy of a line of this device. -/
  | inval (line : Nat)
  /-- The write-back of an evicted line of a peer. -/
  | wback (line : Nat)
  /-- A message to another Stoker: its operation and page (17 R383). -/
  | mgmt (op : Nat) (page : W64)
  | none
  deriving DecidableEq, Repr
/-- A request awaiting its reply (17 R380). -/
structure Req where
  tag : W64
  pkt : Packet
  use : ReqFor
  /-- It was sent to the owner that the anchor named, and that owner has answered NOT_OWNER once (04 R82). -/
  asked : Bool := false
  notOwner : Bool := false
  /-- It waits for the anchor's answer before it is sent again (04 R82). -/
  wait : Bool := false
  /-- It has been sent; a younger request that waits for older ones has not (04 R88). -/
  sent : Bool := true
  /-- A reply to an older request of the page carried a redirect: younger ones wait for this one (04 R88). -/
  redir : Bool := false
  /-- It is sent again: a section request that was refused, once its sender's issue release has been performed again (06
  R125); a request for a line that an invalidation has overtaken, once its answer is in (03 R58). -/
  again : Bool := false
  deriving DecidableEq, Repr
/-- A window in which the router combines adds to one address (06 R129, 17 R388). -/
structure Window where
  addr : W64
  parts : List Packet
  sent : Option W64
  /-- Answers kept for constituents that are replayed: tag, value and mark. -/
  answers : List (W64 × W64 × Bool)
  deriving DecidableEq, Repr
/-- A replay filter's entry: the ALU, the tag, and the result with its mark (06 R130). -/
structure FiltEnt where
  alu : Nat
  tag : W64
  val : W64
  psn : Bool
  deriving DecidableEq, Repr
/-- The fabric (17 R374 to R392). -/
structure Fab where
  devId : Option Nat := none
  trained : Bool := false
  routes : List (Nat × Route) := []
  links : List (Nat × FLink) := []
  /-- Destinations whose packets wait for a route marker (17 R379). -/
  markers : List Nat := []
  /-- Packets that wait in the router for a marker, or behind a combined request of their source (06 R129). -/
  heldTx : List Packet := []
  groups : List (Nat × MGroup) := []
  mcasts : List Mcast := []
  outbox : List Packet := []
  reqs : List Req := []
  relay : List Packet := []
  combine : List Window := []
  /-- The replay filters of the ALUs (06 R130). -/
  filter : List FiltEnt := []
  seqn : W32 := 0
  deriving DecidableEq, Repr

/-- What a fault record is about, so that RESOLVE can find it (17 R396). -/
structure RecLog where
  index : Nat
  src : Nat
  cause : Nat
  resumable : Bool
  gid : Nat
  ctx : Nat
  deriving DecidableEq, Repr
/-- A record waiting for the fault ring: its four 64-bit words and what it is about. -/
structure Record where
  words : List W64
  log : Option RecLog
  deriving DecidableEq, Repr
/-- A host copy in progress (17 R396). -/
structure HCopy where
  host : W64
  dev : W64
  len : Nat
  toHost : Bool
  counter : W64
  /-- The context whose tables map the device's bytes. -/
  ctx : Nat
  deriving DecidableEq, Repr
/-- An access that the host has made through a window and that the device has not performed: an aperture access by its
locations, or a word of the ready set (17 R394, R395). -/
inductive HostAcc
  | write (ks : List Nat) (bytes : List Byte)
  | read (ks : List Nat)
  | ready (j : Nat) (v : W32)
  deriving DecidableEq, Repr
/-- The host link (17 R393 to R397). -/
structure Hif where
  /-- The 64-byte command buffer. -/
  cmd : List (Nat × Byte) := []
  busy : Bool := false
  /-- The command that was submitted, as the buffer stood, and whether it is still to begin. -/
  sub : List (Nat × Byte) := []
  pending : Bool := false
  drop : Bool := false
  status : BitVec 16 := 0
  count : W32 := 0
  fringBase : W64 := 0
  fringLog : BitVec 5 := 0
  fringWptr : W64 := 0
  fringRptr : W64 := 0
  /-- FRING_BASE has been written since reset. -/
  fringSet : Bool := false
  apbase : W64 := 0
  records : List Record := []
  log : List RecLog := []
  /-- How often each MSI-X vector has been raised. -/
  msix : List (Nat × Nat) := []
  hostMem : List (Nat × Byte) := []
  hcopies : List HCopy := []
  /-- The last aperture read's data and its poisoned-data bit. -/
  apData : List Byte := []
  apPsn : Bool := false
  /-- The host's accesses to the windows, in its order (17 R395). -/
  hostQ : List HostAcc := []
  deriving DecidableEq, Repr

/-- The three grades (00 R1). -/
inductive Grade | ex608 | ex576 | ex512
  deriving DecidableEq, Repr
/-- What is fused at test (00 R1, 01 R21, 18 R400 to R402). -/
structure Fuse where
  grade : Grade
  /-- Disabled pairs of each compute die, one bit a physical pair. -/
  pairs : List (BitVec 80)
  /-- Disabled Dampers of each compute die. -/
  damps : List (BitVec 16)
  serial : W64
  minSvn : W32
  deriving DecidableEq, Repr
/-- BOOT_STAT.STATE (18 R403). -/
inductive BootSt | rom | verify | train | running | failed
  deriving DecidableEq, Repr
/-- State of a die link (01 R29). -/
inductive DLinkSt | down | full | half
  deriving DecidableEq, Repr
/-- A snapshot's image: the header and each core's record (18 R411). -/
structure Snap where
  gen : W32 := 0
  src : BitVec 5 := 0
  tag : BitVec 12 := 0
  cyc : W64 := 0
  image : List (Nat × Byte) := []
  deriving DecidableEq, Repr
/-- Reset, firmware, errors and observation (18), and the enumeration table (01). -/
structure Sys where
  fuse : Fuse
  boot : BootSt := .rom
  bootStep : Nat := 1
  bootReason : BitVec 8 := 0
  bootSvn : W32 := 0
  /-- The last reset was cold. -/
  cold : Bool := true
  /-- The image in the module's flash (18 R400). -/
  flash : FwImage
  image : FwImage
  tvec : W64 := 0
  boots : Nat := 0
  cycle : W64 := 0
  enumGen : W32 := 0
  /-- Die link states and whether the upper half is the live one (01 R16). -/
  dlinks : List (Nat × (DLinkSt × Bool)) := []
  powered : Bool := true
  throttle : Bool := false
  alerted : Bool := false
  errcnt : List (Nat × W32) := []
  errThresh : W32 := 0
  /-- Kinds whose threshold record has been written (18 R409). -/
  reported : List Nat := []
  migCnt : List (Nat × W64) := []
  snapCtl : W64 := 0
  snapMissed : W32 := 0
  /-- Triggers that have fired and not latched, one entry for a cycle: the cycle, its sources and the tag (18 R410). -/
  snapPend : List (W64 × BitVec 5 × Option (BitVec 12)) := []
  snap : Snap := {}
  attNonce : BitVec 256 := 0
  attBusy : Bool := false
  attReport : List (Nat × Byte) := []
  deriving DecidableEq, Repr

/-- What acts next: a group or section, or an event (the model's own). -/
inductive Sched | unit (u : UnitId) | event (i : Instr)
  deriving DecidableEq, Repr

/-- The whole device. -/
structure State where
  /-- The group or section that the instruction unit holds; `exec` of an instruction acts on it. -/
  g : Group
  /-- Every other resident group and running section. -/
  parked : List Group
  /-- What acts next; when empty, the default order of Machine/Sched.lean. -/
  sched : List Sched
  /-- How many free values have been taken, and the next unused name. -/
  draws : Nat
  nextId : Nat
  /-- Every byte the device stores, by location (Machine/Ops.lean gives the keys). -/
  mem : List Host.Cell
  /-- Poisoned aligned 8-byte words, by the key of their first byte div 8 (18 R405). -/
  poison : List (Nat × Bool)
  /-- Write and read stamps of a line, by key div 64 (03 R54). -/
  wts : List (Nat × Nat)
  rts : List (Nat × Nat)
  /-- The device's publication clock (05 R99). -/
  pclk : Nat
  homeQ : List HomeOp
  tlb : List TlbEnt
  walks : List Walk
  invals : List Inval
  cores : List (Nat × Core)
  arrays : List (Nat × Arr)
  dampers : List (Nat × Damper)
  riddle : List RidOp
  /-- Saved issue images, by the handle in the image (10 R228). -/
  images : List Mma
  ctxs : List (Nat × Ctx)
  disp : Disp
  own : Own
  fab : Fab
  hif : Hif
  sys : Sys
  deriving DecidableEq, Repr

/-- No group: what the instruction unit holds when none is resident. -/
def Group.empty : Group := { unit := .core 0 0 }

/-- The part the model takes: an EX4-608 whose physical pairs 67, 71, 75 and 79 of each compute die
are disabled, one in each of clusters 16 to 19 (01 R21; DESIGN CHOICE, log entry 1). -/
def Fuse.part : Fuse :=
  { grade := .ex608,
    pairs := List.replicate 4 (1#80 <<< 67 ||| 1#80 <<< 71 ||| 1#80 <<< 75 ||| 1#80 <<< 79),
    damps := [0, 0, 0, 0], serial := 0, minSvn := 0 }

/-- The firmware image the module's flash holds (18 R400; DESIGN CHOICE, log entry 2). -/
def FwImage.shipped : FwImage := { svn := 1, sigOk := true, hash := 0 }

/-- The device right after a cold reset (18 R398): memories list nothing, no group is resident, the
boot ROM is at its first step. -/
def State.reset : State :=
  { g := Group.empty, parked := [], sched := [], draws := 0, nextId := 1, mem := [], poison := [],
    wts := [], rts := [], pclk := 0, homeQ := [], tlb := [], walks := [], invals := [], cores := [],
    arrays := [], dampers := [], riddle := [], images := [], ctxs := [], disp := {}, own := {},
    fab := {}, hif := {},
    sys := { fuse := Fuse.part, flash := FwImage.shipped,
             image := { svn := 0, sigOk := false, hash := 0 } } }

end Sys2Proof.Machine
end

