-- ==== Sys2Proof/Machine/Topo.lean ====
section
/-!
DEFINITION. Dies, units and their enumeration (01 R13 to R30): which physical unit stands behind each
logical ID, and the enumeration table.
-/
namespace Sys2Proof.Machine

/-- Live cores of a compute die (00 R1). -/
def Grade.perDie : Grade → Nat
  | .ex608 => 152
  | .ex576 => 144
  | .ex512 => 128
/-- Live Dampers of a compute die (00 R1). -/
def Grade.dampers : Grade → Nat
  | .ex608 => 16
  | .ex576 => 15
  | .ex512 => 14
/-- ENUM_HDR.GRADE (01 R27). -/
def Grade.code : Grade → Nat
  | .ex608 => 1
  | .ex576 => 2
  | .ex512 => 3
/-- Bonded DRAM in GiB (00 R1). -/
def Grade.dram : Grade → Nat
  | .ex512 => 144
  | _ => 192
/-- LPDDR in GiB (00 R1). -/
def Grade.lpddr : Grade → Nat
  | .ex608 => 1024
  | .ex576 => 768
  | .ex512 => 512

/-- Physical pair p of die d is live (01 R21). -/
def Fuse.pairLive (f : Fuse) (d p : Nat) : Bool := !((f.pairs.getD d 0).getLsbD p)
/-- Live pairs of die d below physical pair n. -/
def Fuse.pairsBelow (f : Fuse) (d : Nat) : Nat → Nat
  | 0 => 0
  | n + 1 => f.pairsBelow d n + bif f.pairLive d n then 1 else 0
/-- The k-th live one of n pairs from pair p on. -/
def Fuse.nthPair (f : Fuse) (d : Nat) : Nat → Nat → Nat → Nat
  | 0, p, _ => p
  | n + 1, p, k =>
    if f.pairLive d p then if k = 0 then p else f.nthPair d n (p + 1) (k - 1)
    else f.nthPair d n (p + 1) k

/-- Live cores of the device (01 R27). -/
def Fuse.ncores (f : Fuse) : Nat := 4 * f.grade.perDie
/-- Physical pair of a logical core (01 R22, R23). -/
def Fuse.pairOf (f : Fuse) (c : Nat) : Nat :=
  f.nthPair (c / f.grade.perDie) 80 0 (c % f.grade.perDie / 2)
/-- Physical core of a logical core. -/
def Fuse.pcore (f : Fuse) (c : Nat) : Nat := 2 * f.pairOf c + c % 2
/-- Compute die of a logical core. -/
def Fuse.dieOf (f : Fuse) (c : Nat) : Nat := c / f.grade.perDie
/-- Logical cluster of a logical core (01 R22). -/
def Fuse.clusterOf (f : Fuse) (c : Nat) : Nat := 20 * f.dieOf c + f.pairOf c / 4
/-- Live cores of a logical cluster (01 R26). -/
def Fuse.clusterLive (f : Fuse) (k : Nat) : Nat :=
  2 * (f.pairsBelow (k / 20) (k % 20 * 4 + 4) - f.pairsBelow (k / 20) (k % 20 * 4))
/-- Lowest live logical core of a logical cluster. -/
def Fuse.clusterFirst (f : Fuse) (k : Nat) : Nat :=
  k / 20 * f.grade.perDie + 2 * f.pairsBelow (k / 20) (k % 20 * 4)
/-- Live cores of a logical cluster, ascending. -/
def Fuse.clusterCores (f : Fuse) (k : Nat) : List Nat := from_ (f.clusterFirst k) (f.clusterLive k)

/-- Live Dampers of the device. -/
def Fuse.ndampers (f : Fuse) : Nat := 4 * f.grade.dampers
/-- Compute die of a logical Damper. -/
def Fuse.damperDie (f : Fuse) (d : Nat) : Nat := d / f.grade.dampers
/-- The k-th live one of n Dampers of a die from Damper p on. -/
def Fuse.nthDamper (f : Fuse) (d : Nat) : Nat → Nat → Nat → Nat
  | 0, p, _ => p
  | n + 1, p, k =>
    if (f.damps.getD d 0).getLsbD p then f.nthDamper d n (p + 1) k
    else if k = 0 then p else f.nthDamper d n (p + 1) (k - 1)

/-- Die links join these dies (01 R14): lower die, higher die, kind. -/
def dieLinkEnds (n : Nat) : Nat × Nat × Nat :=
  if n < 8 then (n / 2, n + 4, 0)
  else if n < 16 then
    let m := n - 4
    let h := (m - 4) / 2
    (if m % 2 = 0 then (h + 3) % 4 else (h + 1) % 4, m, 1)
  else
    match n with
    | 16 => (0, 1, 2)
    | 17 => (1, 2, 2)
    | 18 => (2, 3, 2)
    | _ => (0, 3, 2)

/-- Rows of the latency class matrix (01 R19). -/
def classRows : List (List Nat) :=
  [[0, 1, 2, 1, 1, 1, 1, 2, 2, 2, 2, 1], [1, 0, 1, 2, 2, 1, 1, 1, 1, 2, 2, 2],
   [2, 1, 0, 1, 2, 2, 2, 1, 1, 1, 1, 2], [1, 2, 1, 0, 1, 2, 2, 2, 2, 1, 1, 1],
   [1, 2, 2, 1, 0, 2, 2, 3, 3, 2, 2, 2], [1, 1, 2, 2, 2, 0, 2, 2, 2, 3, 3, 2],
   [1, 1, 2, 2, 2, 2, 0, 2, 2, 3, 3, 2], [2, 1, 1, 2, 3, 2, 2, 0, 2, 2, 2, 3],
   [2, 1, 1, 2, 3, 2, 2, 2, 0, 2, 2, 3], [2, 2, 1, 1, 2, 3, 3, 2, 2, 0, 2, 2],
   [2, 2, 1, 1, 2, 3, 3, 2, 2, 2, 0, 2], [1, 2, 2, 1, 2, 2, 2, 3, 3, 2, 2, 0]]
/-- Latency class of an ordered pair of dies (01 R19). -/
def latencyClass (i j : Nat) : Nat := (classRows.getD i []).getD j 0

/-- State of a die link: at reset every link of the part is FULL (01 R15). -/
def Sys.dlink (y : Sys) (n : Nat) : DLinkSt × Bool := tblGet (.full, false) y.dlinks n

/-- The first of several things. -/
def firstSome {α : Type} : List (Option α) → Option α
  | [] => none
  | some a :: _ => some a
  | none :: l => firstSome l
/-- The number of the die link that joins two dies, if one does. -/
def linkBetween (a b : Nat) : Option Nat :=
  firstSome ((upTo 20).map fun n =>
    let e := dieLinkEnds n
    if (e.1 = a ∧ e.2.1 = b) ∨ (e.1 = b ∧ e.2.1 = a) then some n else none)
/-- The die links of the path from die i to die j: a shortest path, the lexicographically smallest list
of intermediate dies (01 R17). -/
def pathLinks : Nat → Nat → Nat → List Nat
  | 0, _, _ => []
  | n + 1, i, j =>
    if i = j then []
    else
      match findFirst (fun d => (linkBetween i d).isSome &&
          decide (latencyClass d j + 1 = latencyClass i j)) (upTo 12) with
      | none => []
      | some d => (linkBetween i d).getD 0 :: pathLinks n d j
/-- The same path with the die before each link. -/
def pathHops : Nat → Nat → Nat → List (Nat × Nat)
  | 0, _, _ => []
  | n + 1, i, j =>
    if i = j then []
    else
      match findFirst (fun d => (linkBetween i d).isSome &&
          decide (latencyClass d j + 1 = latencyClass i j)) (upTo 12) with
      | none => []
      | some d => (i, (linkBetween i d).getD 0) :: pathHops n d j
/-- Some link of the path is DOWN (01 R16). -/
def Sys.cut (y : Sys) (i j : Nat) : Bool :=
  (pathLinks 4 i j).any fun n => decide ((y.dlink n).1 = .down)

/-- FLINK.STATE (01 R29). -/
def LinkSt.code : LinkSt → Nat
  | .absent => 0
  | .down => 1
  | .up16 => 2
  | .up8 => 3
/-- The default of a fabric link: ABSENT for links 5 and 11 of the EX4-512, else DOWN (01 R30). -/
def linkInit (g : Grade) (n : Nat) : FLink :=
  if g = .ex512 ∧ (n = 5 ∨ n = 11) then { st := .absent } else {}
/-- Fabric link n. -/
def State.flink (s : State) (n : Nat) : FLink := tblGet (linkInit s.sys.fuse.grade n) s.fab.links n

/-- Bytes of a die link entry (01 R29). -/
def dlinkWord (y : Sys) (n : Nat) : Nat :=
  let e := dieLinkEnds n
  let l := y.dlink n
  let st := match l.1 with
    | .down => 0
    | .full => 1
    | .half => 2
  let wd := match l.1 with
    | .down => 0
    | .full => 16
    | .half => 8
  e.1 + 16 * e.2.1 + 256 * e.2.2 + 1024 * st + 65536 * wd
/-- A fabric link entry (01 R29). -/
def flinkWord (s : State) (n : Nat) : Nat :=
  let l := s.flink n
  l.st.code + 4 * (n / 3) + 16 * (n % 3) + 64 * (if l.st = .up8 ∧ l.half then 1 else 0)

/-- The live-pair bitmap of a compute die (01 R26). -/
def pairBitmap (f : Fuse) (d : Nat) : Nat :=
  (BitVec.not (f.pairs.getD d 0)).toNat

/-- Byte n of the enumeration table (01 R26 to R29). -/
def enumByte (s : State) (n : Nat) : Byte :=
  let f := s.sys.fuse
  let g := f.grade
  let part (w base : Nat) : Byte := BitVec.ofNat 8 (w / 2 ^ (8 * (n - base)))
  if n < 0x04 then part (1 + 65536 * g.code) 0
  else if n < 0x08 then part 0x800 4
  else if n < 0x0C then part s.sys.enumGen.toNat 8
  else if n < 0x20 then 0
  else if n < 0x24 then part (f.ncores + 65536 * g.perDie) 0x20
  else if n < 0x28 then part (f.ndampers + 256 * g.dampers + 65536 * 80) 0x24
  else if n < 0x2C then
    part (128 + 256 * (if g = .ex512 then 10 else 12) + 65536 * g.dram) 0x28
  else if n < 0x30 then part g.lpddr 0x2C
  else if n < 0x40 then 0
  else if n < 0x80 then part (pairBitmap f ((n - 0x40) / 16)) (0x40 + (n - 0x40) / 16 * 16)
  else if n < 0xD0 then BitVec.ofNat 8 (f.clusterLive (n - 0x80))
  else if n < 0x120 then part (dlinkWord s.sys ((n - 0xD0) / 4)) (0xD0 + (n - 0xD0) / 4 * 4)
  else if n < 0x150 then part (flinkWord s ((n - 0x120) / 4)) (0x120 + (n - 0x120) / 4 * 4)
  else if n < 0x154 then BitVec.ofNat 8 (14 * (n - 0x150))
  else if n < 0x160 then 0
  else if n < 0x1F0 then BitVec.ofNat 8 (latencyClass ((n - 0x160) / 12) ((n - 0x160) % 12))
  else if n < 0x230 then
    let k := n - 0x1F0
    if k < f.ndampers then
      BitVec.ofNat 8 (f.nthDamper (f.damperDie k) 16 0 (k % g.dampers) + 16 * f.damperDie k)
    else 0xFF
  else if n < 0x2B0 then BitVec.ofNat 8 (n - 0x230)
  else if n < 0x7B0 then
    let k := (n - 0x2B0) / 2
    part (if k < f.ncores then f.pcore k + 256 * f.dieOf k else 0xFFFF) (0x2B0 + 2 * k)
  else 0

/-- 64-bit register n of the table (01 R24). -/
def enumWord (s : State) (n : Nat) : W64 :=
  BitVec.ofNat 64 (leNat ((upTo 8).map fun j => enumByte s (8 * n + j)))

end Sys2Proof.Machine
end

