-- ==== Sys2Proof/Machine/Ops.lean ====
section
/-!
DEFINITION. The named operations over registers and memory, and taking an exception. Every read or
write of a register, a byte, a poison mark or a trap register goes through one of these.
-/
namespace Sys2Proof.Machine

/-- An outcome of a step of this machine. -/
abbrev Out := Host.Outcome State Fault Refusal

/-! ## Locations: one Nat names each byte the device stores (05 R95). -/

/-- First location of a region. -/
def regionBase (r : Nat) : Nat := r * 2 ^ 64
/-- A byte of bonded DRAM or LPDDR, by physical address (03 R57). -/
def keyPhys (pa : Nat) : Nat := pa
/-- A byte of the chip scratchpad (03 R52). -/
def keyChip (p : Nat) : Nat := regionBase 1 + p
/-- A byte of a core's physical scratchpad (03 R47). -/
def keyCore (c a : Nat) : Nat := regionBase 2 + c * 2 ^ 20 + a
/-- A byte of a core's B-store slice (03 R60). -/
def keyB (c slice off : Nat) : Nat := regionBase 3 + (c * 128 + slice) * 2 ^ 16 + off
/-- A byte of a thread's lane-private window (03 R45): it goes with the group. -/
def keyLane (gid t off : Nat) : Nat := regionBase 4 + gid * 2 ^ 14 + t * 512 + off
/-- A byte of a peer's line held in the local slice, by generic address (03 R58). -/
def keyPeer (a : Nat) : Nat := regionBase 5 + a
/-- The location is a peer's byte. -/
def isPeerKey (k : Nat) : Bool := decide (regionBase 5 ≤ k)
/-- The location is global memory (03 R44). -/
def isGlobKey (k : Nat) : Bool := decide (k < regionBase 1) || isPeerKey k

/-- What a byte nothing has written reads as (DESIGN CHOICE, log entry 4). -/
def memDefault : Byte := 0
/-- The memory is in its canonical form: keys strictly rising, no byte listed that equals the default. -/
def Memory.wf (m : List Host.Cell) : Bool := tblWf memDefault m
/-- Memory and poison marks are in canonical form. -/
def State.wf (s : State) : Bool := Memory.wf s.mem && tblWf false s.poison
/-- Read a byte. -/
def State.byte (s : State) (k : Nat) : Byte := tblGet memDefault s.mem k
/-- Write a byte. -/
def State.setByte (s : State) (k : Nat) (b : Byte) : State :=
  { s with mem := tblSet memDefault s.mem k b }
/-- The word that holds a byte is poisoned (18 R405). -/
def State.psn (s : State) (k : Nat) : Bool := tblGet false s.poison (k / 8)
/-- Mark or clear the word that holds a byte. -/
def State.setPsn (s : State) (k : Nat) (b : Bool) : State :=
  { s with poison := tblSet false s.poison (k / 8) b }
/-- Some byte of a list of locations is poisoned. -/
def State.anyPsn (s : State) (ks : List Nat) : Bool := ks.any s.psn
/-- The bytes at some locations. -/
def State.bytes (s : State) (ks : List Nat) : List Byte := ks.map s.byte
/-- The number that the bytes at some locations spell. -/
def State.num (s : State) (ks : List Nat) : Nat := leNat (s.bytes ks)

/-- Store bytes without touching poison. -/
def State.putBytes (s : State) : List (Nat × Byte) → State
  | [] => s
  | (k, b) :: r => (s.setByte k b).putBytes r
/-- The words that some locations touch. -/
def wordsTouched (ks : List Nat) : List Nat := (ks.map (· / 8)).eraseDups
/-- A write that covers all 8 bytes of a word clears its poison; one that does not leaves a poisoned
word poisoned (18 R406). -/
def State.clearCovered (s : State) (ks : List Nat) : List Nat → State
  | [] => s
  | w :: r =>
    let full := (from_ (8 * w) 8).all fun k => ks.contains k
    (if full then s.setPsn (8 * w) false else s).clearCovered ks r
/-- A write of clean bytes (18 R406). -/
def State.writeClean (s : State) (cells : List (Nat × Byte)) : State :=
  let ks := cells.map (·.1)
  ((s.putBytes cells).clearCovered ks (wordsTouched ks))
/-- Poison every word that some locations touch. -/
def State.poisonWords (s : State) : List Nat → State
  | [] => s
  | w :: r => (s.setPsn (8 * w) true).poisonWords r
/-- A write that carries poison: every word it touches ends poisoned (18 R405). -/
def State.writePoisoned (s : State) (cells : List (Nat × Byte)) : State :=
  (s.putBytes cells).poisonWords (wordsTouched (cells.map (·.1)))
/-- A write, clean or poisoned. -/
def State.writeCells (s : State) (psn : Bool) (cells : List (Nat × Byte)) : State :=
  if psn then s.writePoisoned cells else s.writeClean cells
/-- Pair locations with bytes. -/
def cellsOf (ks : List Nat) (bs : List Byte) : List (Nat × Byte) := ks.zip bs
/-- n consecutive locations. -/
def span (k n : Nat) : List Nat := from_ k n

/-! ## Tables of units. -/

/-- A compute core, by logical ID. -/
def State.core (s : State) (c : Nat) : Core := tblGet {} s.cores c
/-- Replace a core. -/
def State.setCore (s : State) (c : Nat) (x : Core) : State := { s with cores := tblSet {} s.cores c x }
/-- Change a core. -/
def State.modCore (s : State) (c : Nat) (f : Core → Core) : State := s.setCore c (f (s.core c))
/-- The array of a pair. -/
def State.arr (s : State) (p : Nat) : Arr := tblGet {} s.arrays p
/-- Replace an array. -/
def State.setArr (s : State) (p : Nat) (x : Arr) : State := { s with arrays := tblSet {} s.arrays p x }
/-- A Damper, by logical ID. -/
def State.damper (s : State) (d : Nat) : Damper := tblGet {} s.dampers d
/-- Replace a Damper. -/
def State.setDamper (s : State) (d : Nat) (x : Damper) : State :=
  { s with dampers := tblSet {} s.dampers d x }
/-- A context. -/
def State.ctx (s : State) (c : Nat) : Ctx := tblGet {} s.ctxs c
/-- Replace a context. -/
def State.setCtx (s : State) (c : Nat) (x : Ctx) : State := { s with ctxs := tblSet {} s.ctxs c x }
/-- A bind record. -/
def State.slot (s : State) (j : Nat) : Slot := tblGet {} s.disp.slots j
/-- Replace a bind record. -/
def State.setSlot (s : State) (j : Nat) (x : Slot) : State :=
  { s with disp := { s.disp with slots := tblSet {} s.disp.slots j x } }
/-- Take a free value's number. -/
def State.draw (s : State) : State := { s with draws := s.draws + 1 }
/-- One of several, as the free value of a draw says; a single one needs none. -/
def pick {α : Type} (d : Nat) (l : List α) : Option α :=
  match l with
  | [] => none
  | [x] => some x
  | _ => l[(Config.freeWord d).toNat % l.length]?
/-- Take a fresh name. -/
def State.fresh (s : State) : State := { s with nextId := s.nextId + 1 }
/-- Replace the current group. -/
def State.setG (s : State) (g : Group) : State := { s with g := g }
/-- Every group the device holds. -/
def State.groups (s : State) : List Group := (s.g :: s.parked).filter (·.live)
/-- Every group that has not ended: those the device holds and those saved with their contexts (10 R231). -/
def State.everyGroup (s : State) : List Group := s.groups ++ s.ctxs.flatMap fun e => e.2.saved
/-- Find a group by its name. -/
def State.findGid (s : State) (i : Nat) : Option Group := findFirst (fun g => g.gid == i) s.groups
/-- Find a group by its unit. -/
def State.findUnit (s : State) (u : UnitId) : Option Group :=
  findFirst (fun g => decide (g.unit = u)) s.groups
/-- Change the group of a name. -/
def State.modGid (s : State) (i : Nat) (f : Group → Group) : State :=
  if s.g.live && s.g.gid == i then s.setG (f s.g)
  else { s with parked := modFirst (fun g => g.live && g.gid == i) f s.parked }
/-- Change the group of a name, resident or saved with its context (10 R231). -/
def State.modEver (s : State) (i : Nat) (f : Group → Group) : State :=
  if (s.findGid i).isSome then s.modGid i f
  else
    { s with ctxs := s.ctxs.map fun e =>
        (e.1, { e.2 with saved := modFirst (fun g => g.gid == i) f e.2.saved }) }
/-- Change every group that satisfies a test. -/
def State.modGroups (s : State) (p : Group → Bool) (f : Group → Group) : State :=
  { s with
    g := if s.g.live && p s.g then f s.g else s.g
    parked := s.parked.map fun g => if g.live && p g then f g else g }
/-- Run something with the group of a name as the current group, then put it back. -/
def State.swapTo (s : State) (i : Nat) : State :=
  if s.g.gid == i then s
  else
    match findFirst (fun g => g.gid == i) s.parked with
    | none => s
    | some g => { s with g := g, parked := s.g :: dropFirst (fun x => x.gid == i) s.parked }

/-- The unit is a Damper context: the group is a section. -/
def unitSec : UnitId → Bool
  | .core _ _ => false
  | .damper _ _ => true
/-- The compute core of a unit; a section has none. -/
def unitCore : UnitId → Option Nat
  | .core c _ => some c
  | .damper _ _ => none
/-- The logical core of a unit, 0 for a section. -/
def unitCoreN : UnitId → Nat
  | .core c _ => c
  | .damper _ _ => 0
/-- Resident slot or Damper context. -/
def unitSlot : UnitId → Nat
  | .core _ x => x
  | .damper _ x => x
/-- PH.UNIT of what the Stoker, the dispatcher and the host link send (DESIGN CHOICE, log entry 10). -/
def hwUnit : Nat := 0xFFFE
/-- PH.UNIT of a unit's requests (17 R382; the packing is the model's, DESIGN CHOICE, log entry 10). -/
def unitCode : UnitId → Nat
  | .core c x => c * 32 + x
  | .damper d x => 32768 + d * 4 + x

/-! ## Registers of a group. -/

/-- The present threads P (08 R165). -/
def Group.present (g : Group) : W32 := BitVec.ofNat 32 (2 ^ g.n0 - 1)
/-- Read an s register: s0 is zero (11 R236). -/
def Group.sGet (g : Group) (r : SReg) : W64 := if r.val = 0 then 0 else tblGet 0 g.s r.val
/-- Write an s register: a write to s0 is discarded (11 R236). -/
def Group.sSet (g : Group) (r : SReg) (v : W64) : Group :=
  if r.val = 0 then g else { g with s := tblSet 0 g.s r.val v }
/-- Read a v register of a thread; an absent thread's reads 0 (13 R296). -/
def Group.vGet (g : Group) (r : VReg) (t : Nat) : W64 :=
  if t < g.n0 then tblGet 0 g.v (r.val * 32 + t) else 0
/-- Write a v register of a thread; an absent thread's is never written (13 R296). -/
def Group.vSet (g : Group) (r : VReg) (t : Nat) (x : W64) : Group :=
  if t < g.n0 then { g with v := tblSet 0 g.v (r.val * 32 + t) x } else g
/-- Read a mask register. -/
def Group.mGet (g : Group) (r : MReg) : W32 := tblGet 0 g.m r.val
/-- Write a mask register: m0 ignores the bits of absent threads (08 R165). -/
def Group.mSet (g : Group) (r : MReg) (v : W32) : Group :=
  { g with m := tblSet 0 g.m r.val (if r.val = 0 then v &&& g.present else v) }
/-- Read a k register. -/
def Group.kGet (g : Group) (r : Nat) : Tok := tblGet {} g.k r
/-- Write a k register. -/
def Group.kSet (g : Group) (r : Nat) (t : Tok) : Group := { g with k := tblSet {} g.k r t }
/-- Read a completion flag's count. -/
def Group.fGet (g : Group) (f : Nat) : Nat := tblGet 0 g.f f
/-- Add 1 to a completion flag (11 R244). -/
def Group.fInc (g : Group) (f : Nat) : Group := { g with f := tblSet 0 g.f f (g.fGet f + 1) }
/-- Subtract 1 from a completion flag (11 R244). -/
def Group.fDec (g : Group) (f : Nat) : Group := { g with f := tblSet 0 g.f f (g.fGet f - 1) }
/-- Write a destination register. -/
def Group.write (g : Group) (d : Dest) (v : W64) : Group :=
  match d with
  | .s r => g.sSet (Fin.ofNat 64 r) v
  | .v r t => g.vSet (Fin.ofNat 1024 r) t v
/-- Write several destination registers. -/
def Group.writeAll (g : Group) : List (Dest × W64) → Group
  | [] => g
  | (d, v) :: r => (g.write d v).writeAll r
/-- The group is a section on a Damper. -/
def Group.isSection (g : Group) : Bool := unitSec g.unit

/-- The governing mask: m0, or mn AND m0 (08 R166). -/
def Group.govern (g : Group) (m : MReg) : W32 :=
  if m.val = 0 then g.mGet 0 else g.mGet m &&& g.mGet 0
/-- The active threads of a mask, ascending (08 R166). -/
def activeOf (m : W32) : List Nat := bitsOn 32 m.toNat

/-! ## Pending results (11 R244). -/

/-- A number for a destination register, whatever the thread. -/
def Dest.reg : Dest → Nat
  | .s r => r
  | .v r _ => 64 + r
/-- The register number of an s register. -/
def useS (r : SReg) : Nat := r.val
/-- The register number of a v register. -/
def useV (r : VReg) : Nat := 64 + r.val
/-- Every value has arrived. -/
def Pend.ready (p : Pend) : Bool := p.writes.all fun w => w.2.isSome
/-- Some value that has arrived was poisoned. -/
def Pend.poisoned (p : Pend) : Bool :=
  p.writes.any fun w => match w.2 with
    | some (_, b) => b
    | none => false
/-- The result goes to one of these registers; s0 takes none. -/
def Pend.touches (p : Pend) (use : List Nat) : Bool :=
  !p.sync && p.writes.any fun w => w.1.reg != 0 && use.contains w.1.reg
/-- The values that are written: those whose data was clean (10 R460). -/
def Pend.values (p : Pend) : List (Dest × W64) :=
  p.writes.filterMap fun w => match w.2 with
    | some (v, false) => some (w.1, v)
    | _ => none
/-- Write a result to its registers and release its flag (11 R244). -/
def Group.retirePend (g : Group) (p : Pend) : Group :=
  let g := { g with pend := dropFirst (fun q => q.id == p.id) g.pend }
  let g := g.writeAll p.values
  match p.flag with
  | some f => g.fDec f
  | none => g
/-- Write the results of a list of pendings. -/
def Group.retirePends (g : Group) : List Pend → Group
  | [] => g
  | p :: r => (g.retirePend p).retirePends r
/-- A result that has arrived poisoned: its clean values are written and its flag released; what stays says that its
trap is due (10 R460). -/
def Group.clearPend (g : Group) (p : Pend) : Group :=
  let bad (w : Dest × Option (W64 × Bool)) : Bool := match w.2 with
    | some (_, b) => b
    | none => false
  let rest : Pend := { p with flag := none, writes := p.writes.filter bad }
  let g := (g.writeAll p.values)
  let g : Group := { g with pend := modFirst (fun q => q.id == p.id) (fun _ => rest) g.pend }
  match p.flag with
  | some f => g.fDec f
  | none => g
/-- The same for a list of results. -/
def Group.clearPends (g : Group) : List Pend → Group
  | [] => g
  | p :: r => (g.clearPend p).clearPends r
/-- Write back every result that has arrived. -/
def Group.writebackAll (g : Group) : Group :=
  let g := g.retirePends (g.pend.filter fun p => p.ready && !p.poisoned && !p.sync)
  g.clearPends (g.pend.filter fun p => p.ready && p.poisoned && !p.sync)

/-! ## Records to the host and snapshot triggers. -/

/-- Queue a record for the fault ring (17 R397). -/
def State.record (s : State) (r : Record) : State :=
  { s with hif := { s.hif with records := s.hif.records ++ [r] } }
/-- A trigger joins those of its cycle, or stands behind those of earlier ones (18 R410). -/
def joinSnap (cyc : W64) (src : Nat) (tag : Option (BitVec 12)) :
    List (W64 × BitVec 5 × Option (BitVec 12)) → List (W64 × BitVec 5 × Option (BitVec 12))
  | [] => [(cyc, 1#5 <<< src, tag)]
  | p :: r => if p.1 = cyc then (cyc, p.2.1 ||| (1#5 <<< src), p.2.2 <|> tag) :: r else p :: joinSnap cyc src tag r
/-- A snapshot trigger (18 R410): it makes a latch with the others of its cycle, or is missed. A trigger of a later cycle
that finds ARM still 1 makes a latch of its own (DESIGN CHOICE, log entry 71). -/
def State.fireSnap (s : State) (src : Nat) (tag : Option (BitVec 12)) : State :=
  if s.sys.snapCtl.getLsbD 0 then
    { s with sys := { s.sys with snapPend := joinSnap s.sys.cycle src tag s.sys.snapPend } }
  else
    { s with sys := { s.sys with
        snapMissed := if s.sys.snapMissed = 0xFFFFFFFF#32 then s.sys.snapMissed
          else s.sys.snapMissed + 1 } }
/-- Write an error record (18 R407). -/
def State.errorRecord (s : State) (kind src die inst : Nat) (addr tag : W64) (count : Nat) : State :=
  let w0 := kind % 256 + 256 * src + 2 ^ 32 * (die % 256) + 2 ^ 40 * (inst % 4096)
  let r : Record :=
    { words := [BitVec.ofNat 64 w0, addr, tag,
        BitVec.ofNat 64 (count % 2 ^ 32 + 2 ^ 32 * s.sys.snap.gen.toNat)], log := none }
  let s := s.record r
  if src = 3 && s.sys.snapCtl.getLsbD 2 then s.fireSnap 2 none
  else if src = 4 && s.sys.snapCtl.getLsbD 3 then s.fireSnap 3 none else s
/-- An uncorrectable error record of one event. -/
def State.uncorrectable (s : State) (kind die inst : Nat) (addr tag : W64) : State :=
  s.errorRecord kind 3 die inst addr tag 1
/-- A notice: an error record of SRC 5 (18 R407). The Stoker, on die 0, writes those of KIND 9 and 15, the end of a link
that of KIND 10, the router the others. -/
def State.notice (s : State) (kind inst : Nat) (addr tag : W64) (count : Nat) : State :=
  let die := if kind = 9 ∨ kind = 15 then 0 else if kind = 10 then inst / 3 else 0xFF
  s.errorRecord kind 5 die inst addr tag count
/-- A correctable error (18 R409): counted, saturating; at the threshold one record of SRC 4. -/
def State.correctable (s : State) (kind die inst : Nat) : State :=
  let c := tblGet 0#32 s.sys.errcnt kind
  if c = 0xFFFFFFFF#32 then s
  else
    let c := c + 1
    let s := { s with sys := { s.sys with errcnt := tblSet 0 s.sys.errcnt kind c } }
    if c = s.sys.errThresh && !(s.sys.reported.contains kind) then
      let s := { s with sys := { s.sys with reported := kind :: s.sys.reported } }
      s.errorRecord kind 4 die inst 0 0 c.toNat
    else s

/-! ## Taking an exception (10 R216 to R224). -/

/-- What a trap records (10 R216, R218). -/
structure TrapV where
  cause : Nat
  addr : W64 := 0
  info : W64 := 0
  /-- The chosen thread; 0xFF for a uniform instruction or a next cause. -/
  thread : Nat := 0xFF
  /-- Active threads whose own checks failed. -/
  fmask : W32 := 0
  /-- TRAP_PC. -/
  pc : W64
  /-- The host accepts RESUME. -/
  resumable : Bool := true
  deriving DecidableEq, Repr

/-- A fault record of a group or section (10 R223). -/
def State.faultRecord (s : State) (src : Nat) (t : TrapV) : State :=
  let g := s.g
  let u := match g.unit with
    | .core c _ => c
    | .damper d _ => d
  let res := t.resumable && src != 2
  let w0 := t.cause % 256 + 256 * src + 4096 * (if res then 1 else 0)
  let w1 := g.ctx % 1024 + 1024 * (u % 1024) + 2 ^ 20 * (unitSlot g.unit % 32)
  let n := s.nextId
  let s := (s.fresh).setG { g with suspended := some n, block := none }
  s.record { words := [BitVec.ofNat 64 (w0 + 2 ^ 32 * w1), t.pc, t.addr, t.info],
             log := some { index := 0, src := src, cause := t.cause, resumable := res,
                           gid := g.gid, ctx := g.ctx } }

/-- Write the trap registers with a trap's values (10 R218, R219). -/
def Group.setTrap (g : Group) (t : TrapV) (double : Bool) : Group :=
  { g with
    trapCause := BitVec.ofNat 64 (t.cause % 256 + 256 * (t.thread % 256) +
      65536 * (if double then 1 else 0))
    trapPc := t.pc
    trapAddr := t.addr
    trapInfo := t.info
    trapMask := BitVec.ofNat 64 ((g.mGet 0).toNat + 2 ^ 32 * t.fmask.toNat)
    trapHdr := g.hdr }

/-- The snapshot trigger of a trap (18 R410). -/
def State.trapSnap (s : State) (cause : Nat) : State :=
  if s.sys.snapCtl.getLsbD (32 + cause / 8) then s.fireSnap 4 (some (BitVec.ofNat 12 cause)) else s

/-- Take an exception. Results that have arrived are written first (10 R217). A section suspends
(R224); a trap in handler mode is a double trap (R222); any other trap writes the trap registers, sets
m0 to the present threads, enters handler mode and continues at TVEC (R219). -/
def State.trap (s : State) (t : TrapV) : State :=
  let s := (s.setG s.g.writebackAll).trapSnap t.cause
  let g := s.g
  if g.isSection then
    (s.setG ((g.setTrap t false))).faultRecord 1 t
  else if g.handler then
    (s.setG (g.setTrap t true)).faultRecord 2 t
  else
    let g := g.setTrap t false
    s.setG { (g.mSet 0 g.present) with
      handler := true, pc := s.sys.tvec, block := none, atEntry := false, preempting := g.preempting && t.cause != 0x20 }

/-- Return from an exception (10 R219, R220): leave handler mode, or in group mode the user handler; restore m0 from TRAP_MASK.M0, and resume
at TRAP_PC under the flags of the clause at TRAP_HDR, whose word is given. -/
def Group.trapReturn (g : Group) (fa fb : FlagSel) : Group :=
  let m0 : W32 := g.trapMask.setWidth 32
  { (g.mSet 0 m0) with
    handler := false, ufwd := g.handler && g.ufwd, pc := g.trapPc, hdr := g.trapHdr, fa := fa, fb := fb }

/-! ## Retiring and blocking. -/

/-- The instruction retires: the pc moves by its words, and it counts once unless the group is in
handler mode (06 R132, 12 R275). -/
def Group.retire (g : Group) (words : Nat) : Group :=
  { g with
    pc := g.pc + BitVec.ofNat 64 (4 * words)
    retired := if g.handler then g.retired else g.retired + 1
    block := none }
/-- Retire the current group's instruction. -/
def State.retire (s : State) (words : Nat) : State := s.setG (s.g.retire words)
/-- Retire to another pc (a transfer). -/
def Group.retireTo (g : Group) (pc : W64) : Group :=
  { g with
    pc := pc
    retired := if g.handler then g.retired else g.retired + 1
    block := none }
/-- The current group waits; nothing else changes (08 R192). -/
def State.blockOn (s : State) (b : Block) : Out := .next (s.setG { s.g with block := some b })

end Sys2Proof.Machine
end

