-- ==== Sys2Proof/Machine/Spaces.lean ====
section
/-!
DEFINITION. Address spaces and generic addresses (02 R31 to R41, 03 R45 to R53).
-/
namespace Sys2Proof.Machine

/-- Whose access it is: what decides the size and the owner of each space (02 R31, R33, R38). -/
structure Who where
  sec : Bool
  core : Nat
  clus : Nat
  team : BitVec 12
  ctx : Nat
  W : Nat
  gid : Nat
  /-- The TLB shared by its cluster, or its Damper's own, and the core whose own TLB stands before it (04 R73). -/
  tlb : Nat := 0x100
  l1 : Option Nat := none
  deriving DecidableEq, Repr

/-- A group as the party of its accesses; on a Damper the team index reads 0xFFF and the cluster 0x7F
(14 R311). The spec gives a Damper no size for the windows of a cluster, a core and a lane: where a must-be-zero bit of
such an address fails there, S in TRAP_INFO is taken from compute core 0 (DESIGN CHOICE, log entry 61). -/
def whoOf (s : State) (g : Group) : Who :=
  match g.unit with
  | .core c _ =>
    { sec := false, core := c, clus := s.sys.fuse.clusterOf c, team := g.team, ctx := g.ctx, W := g.W,
      gid := g.gid, tlb := s.sys.fuse.clusterOf c, l1 := some c }
  | .damper d _ =>
    { sec := true, core := 0, clus := 0x7F, team := 0xFFF, ctx := g.ctx, W := 0, gid := g.gid, tlb := 0x80 + d }
/-- An engine operation as the party of its accesses: its issuer's (02 R38). -/
def whoBy (s : State) (b : Issuer) : Who :=
  { sec := unitSec b.unit, core := unitCoreN b.unit, clus := s.sys.fuse.clusterOf (unitCoreN b.unit),
    team := b.team, ctx := b.ctx, W := b.W, gid := b.gid, tlb := s.sys.fuse.clusterOf (unitCoreN b.unit),
    l1 := unitCore b.unit }

/-- The current group as a party. -/
def State.who (s : State) : Who := whoOf s s.g
/-- A group as the issuer of an operation. -/
def issuerOf (g : Group) : Issuer :=
  { unit := g.unit, gid := g.gid, ctx := g.ctx, launch := g.launch, team := g.team, W := g.W,
    gts := g.gts }

/-- Bytes of the physical core scratchpad (03 R47). -/
def scratchBytes : Nat := 786432
/-- The carve-out of a core, in bytes (02 R31). -/
def carveOf (s : State) (c : Nat) : Nat := (s.core c).carve * 65536

/-- Size S of a space (02 R31). Global memory has none. -/
def spaceSize (s : State) (w : Who) : Space → Nat
  | .global => 0
  | .chip => (s.ctx w.ctx).gsize * 65536
  | .cluster => carveOf s w.core * s.sys.fuse.clusterLive w.clus
  | .core => scratchBytes - carveOf s w.core
  | .lane => w.W

/-- The location of a byte of a space (03 R47, R50, R52). -/
def spaceKey (s : State) (w : Who) (thread : Nat) (sp : Space) (o : Nat) : Nat :=
  match sp with
  | .global => o
  | .chip => keyChip ((s.ctx w.ctx).gbase * 65536 + o)
  | .cluster =>
    let n := s.sys.fuse.clusterLive w.clus
    let gr := o / 256
    keyCore (s.sys.fuse.clusterFirst w.clus + gr % n)
      (scratchBytes - carveOf s w.core + gr / n * 256 + o % 256)
  | .core => keyCore w.core o
  | .lane => keyLane w.gid thread o
/-- The locations of n bytes of a space. -/
def spaceKeys (s : State) (w : Who) (thread : Nat) (sp : Space) (o n : Nat) : List Nat :=
  (from_ o n).map (spaceKey s w thread sp)

/-- A check that failed: cause, TRAP_ADDR and TRAP_INFO (10 R216). -/
structure Fail where
  cause : Nat
  addr : W64
  info : W64
  deriving DecidableEq, Repr

/-- Check of a specific offset: range, then alignment (02 R32, 14 R304). -/
def checkSpecific (s : State) (w : Who) (sp : Space) (o : W64) (n align : Nat) : Except Fail Nat :=
  let S := spaceSize s w sp
  if o.toNat + n > S then .error ⟨0x0C, o, BitVec.ofNat 64 S⟩
  else if o.toNat % align ≠ 0 then .error ⟨0x05, o, BitVec.ofNat 64 n⟩
  else .ok o.toNat

/-- What a generic address names. -/
inductive Target
  | glob (a : W64)
  | loc (sp : Space) (o : Nat)
  deriving DecidableEq, Repr

/-- The window of a generic address (02 R33). -/
def window (a : W64) : Nat := a.toNat / 2 ^ 60
/-- The space of a window; none for the reserved windows (02 R33). -/
def windowSpace (n : Nat) : Option Space :=
  if n < 8 then some .global
  else
    match n with
    | 0xC => some .chip
    | 0xD => some .cluster
    | 0xE => some .core
    | 0xF => some .lane
    | _ => none
/-- Offset bits of a space's generic form (02 R33). -/
def offsetBits : Space → Nat
  | .global => 53
  | .chip => 25
  | .cluster => 23
  | .core => 20
  | .lane => 20
/-- Bits from which the owner field, or the window, begins: below it down to the offset must be zero. -/
def ownerLow : Space → Nat
  | .global => 53
  | .chip => 60
  | .cluster => 52
  | .core => 48
  | .lane => 60
/-- The must-be-zero bits of a generic address of a space (02 R33). -/
def mustBeZero (sp : Space) (a : W64) : Nat :=
  match sp with
  | .global => 0
  | _ => field a.toNat (offsetBits sp) (ownerLow sp - offsetBits sp)
/-- The owner field of a generic address; 0 where the window has none (02 R33). -/
def ownerField (sp : Space) (a : W64) : Nat :=
  match sp with
  | .global => field a.toNat 53 10
  | .cluster => field a.toNat 52 8
  | .core => field a.toNat 48 12
  | _ => 0
/-- The offset bits of a generic address. -/
def offsetOf (sp : Space) (a : W64) : Nat := a.toNat % 2 ^ offsetBits sp

/-- Checks 1 to 4 of 02 R35, for n bytes. -/
def check14 (s : State) (w : Who) (a : W64) (n : Nat) : Except Fail Target :=
  match windowSpace (window a) with
  | none => .error ⟨0x0D, a, 0⟩
  | some .global => .ok (.glob a)
  | some sp =>
    let S := spaceSize s w sp
    if mustBeZero sp a ≠ 0 then .error ⟨0x0C, a, BitVec.ofNat 64 (2 ^ 63 + S)⟩
    else
      let foreign : Option W64 :=
        match sp with
        | .cluster =>
          if w.sec then some 0xFFF
          else if ownerField sp a ≠ w.clus then some (BitVec.ofNat 64 w.clus) else none
        | .core =>
          if w.sec then some 0xFFF
          else if ownerField sp a ≠ w.team.toNat then some (w.team.setWidth 64) else none
        | .lane => if w.sec then some 0xFFF else none
        | _ => none
      match foreign with
      | some i => .error ⟨0x0B, a, i⟩
      | none =>
        if offsetOf sp a + n > S then .error ⟨0x0C, a, BitVec.ofNat 64 S⟩
        else .ok (.loc sp (offsetOf sp a))

/-- Checks 1 to 5 of 02 R35. -/
def checkGeneric (s : State) (w : Who) (a : W64) (n align : Nat) : Except Fail Target :=
  match check14 s w a n with
  | .error e => .error e
  | .ok t => if a.toNat % align ≠ 0 then .error ⟨0x05, a, BitVec.ofNat 64 n⟩ else .ok t

/-- SPTEST's descriptor (02 R39). -/
def sptestOf (s : State) (w : Who) (a : W64) : W64 :=
  let sp := windowSpace (window a)
  let code := match sp with
    | none => 7
    | some .global => 0
    | some .chip => 1
    | some .cluster => 2
    | some .core => 3
    | some .lane => 4
  let owner := match sp with
    | none => 0
    | some x => ownerField x a
  match check14 s w a 1 with
  | .ok _ => BitVec.ofNat 64 (code + 8 + 65536 * owner)
  | .error e => BitVec.ofNat 64 (code + 256 * e.cause + 65536 * owner)

/-- A reserved window: faults when used (02 R40). -/
def nullG : W64 := 0x8000000000000000
/-- Beyond every S: faults when used (02 R40). -/
def nullS : W64 := 0xFFFFFFFFFFFFFFFF
/-- SPCAST.g (02 R40). -/
def spcastGOf (w : Who) (c : Space) (x : W64) : W64 :=
  let v := x.toNat
  match c with
  | .global => if v < 2 ^ 63 then x else nullG
  | .chip => if v < 2 ^ 25 then BitVec.ofNat 64 (0xC * 2 ^ 60 + v) else nullG
  | .cluster => if v < 2 ^ 23 then BitVec.ofNat 64 (0xD * 2 ^ 60 + w.clus * 2 ^ 52 + v) else nullG
  | .core =>
    if v < 2 ^ 20 then BitVec.ofNat 64 (0xE * 2 ^ 60 + w.team.toNat * 2 ^ 48 + v) else nullG
  | .lane => if v < 2 ^ 20 then BitVec.ofNat 64 (0xF * 2 ^ 60 + v) else nullG
/-- SPCAST.s (02 R40): in a section every owner comparison fails (14 R311). -/
def spcastSOf (w : Who) (c : Space) (a : W64) : W64 :=
  match c with
  | .global => if a.toNat < 2 ^ 63 then a else nullS
  | _ =>
    if windowSpace (window a) ≠ some c then nullS
    else if mustBeZero c a ≠ 0 then nullS
    else
      let foreign := match c with
        | .cluster => w.sec || decide (ownerField c a ≠ w.clus)
        | .core => w.sec || decide (ownerField c a ≠ w.team.toNat)
        | _ => false
      if foreign then nullS else BitVec.ofNat 64 (offsetOf c a)

/-- Memory die of a chip scratchpad byte (03 R52). -/
def chipDie (p : Nat) : Nat := 4 + p / 256 % 8
/-- Memory die of a physical line (03 R57). -/
def homeDie (pa : Nat) : Nat := 4 + pa / 4096 % 8
/-- Home slice of a physical line, on its die (03 R57). -/
def homeSlice (pa : Nat) : Nat := (pa / 64 ^^^ pa / 65536) % 16
/-- Logical slice that holds a peer's line (03 R58). -/
def peerSlice (g : Nat) : Nat := (g / 64 ^^^ g / 2 ^ 53) % 128
/-- The die a location lies on. -/
def dieOfKey (s : State) (k : Nat) : Nat :=
  if k < regionBase 1 then homeDie k
  else if k < regionBase 2 then chipDie (k - regionBase 1)
  else if k < regionBase 3 then s.sys.fuse.dieOf ((k - regionBase 2) / 2 ^ 20)
  else if k < regionBase 4 then s.sys.fuse.dieOf ((k - regionBase 3) / 2 ^ 23)
  else if k < regionBase 5 then 0
  else 4 + peerSlice (k - regionBase 5) / 16
/-- The die of a unit. -/
def unitDie (s : State) : UnitId → Nat
  | .core c _ => s.sys.fuse.dieOf c
  | .damper d _ => s.sys.fuse.damperDie d
/-- No die link of the part is DOWN; then no path is cut. -/
def Sys.allUp (y : Sys) : Bool := y.dlinks.all fun e => decide (e.2.1 ≠ .down)
/-- The path from a die to a location crosses a die link that is DOWN (01 R16). A lane window is its unit's own. -/
def State.cutFrom (s : State) (d : Nat) (k : Nat) : Bool :=
  !s.sys.allUp && !(decide (regionBase 4 ≤ k) && decide (k < regionBase 5)) && s.sys.cut d (dieOfKey s k)
/-- A write from a die to a location does not pass a DOWN die link: a KIND 2 record. Its die is the one at which the write
stops, its instance the link (01 R16, 18 R407; DESIGN CHOICE, log entry 73). -/
def State.lostWrite (s : State) (d k : Nat) (a : W64) : State :=
  let hops := pathHops 12 d (dieOfKey s k)
  let e := (findFirst (fun e : Nat × Nat => decide ((s.sys.dlink e.2).1 = .down)) hops).getD (d, 0)
  s.uncorrectable 2 e.1 e.2 a 0
/-- The same for a unit. -/
def State.cutTo (s : State) (u : UnitId) (k : Nat) : Bool := s.cutFrom (unitDie s u) k
/-- The path to some of the locations is cut. -/
def State.cutAny (s : State) (u : UnitId) (ks : List Nat) : Bool :=
  !s.sys.allUp && ks.any (s.cutTo u)

end Sys2Proof.Machine
end

