-- ==== Sys2Proof/Machine/Translate.lean ====
section
/-!
DEFINITION. Translation: page tables, walks, cached translations and permissions (04 R69 to R78).
-/
namespace Sys2Proof.Machine

/-- Kinds of access (04 R78). -/
inductive Kind | load | store | rmw | fetch | cntAdd | cntWait | prefetch
  deriving DecidableEq, Repr
/-- PGINFO.KIND (04 R78). -/
def Kind.code : Kind → Nat
  | .load => 0
  | .store => 1
  | .rmw => 2
  | .fetch => 3
  | .cntAdd => 4
  | .cntWait => 5
  | .prefetch => 0

/-- Physical memory that is installed (03 R57). -/
def installed (g : Grade) (pa : Nat) : Bool :=
  decide (pa < g.dram * 2 ^ 30) ||
  (decide (0x4000000000 ≤ pa) && decide (pa < 0x4000000000 + g.lpddr * 2 ^ 30))

/-- Bit n of an entry. -/
def pteBit (e n : Nat) : Bool := e / 2 ^ n % 2 == 1
/-- PTE.PA as an address (04 R70). -/
def ptePa (e : Nat) : Nat := field e 8 33 * 256
/-- PTE.ANCHOR (04 R70). -/
def pteAnchor (e : Nat) : Nat := field e 48 10

/-- A valid entry is malformed (04 R71). -/
def malformed (g : Grade) (level e : Nat) : Bool :=
  if pteBit e 5 then
    decide (level < 2) || pteBit e 7 || field e 41 7 != 0 || field e 58 6 != 0 ||
    field e 8 8 != 0 || (level == 2 && field e 16 5 != 0) ||
    (pteBit e 6 &&
      !(installed g (ptePa e) && installed g (ptePa e + (if level = 2 then 2 ^ 21 else 2 ^ 16) - 1)))
  else
    level == 3 || field e 1 4 != 0 || pteBit e 6 || pteBit e 7 || field e 41 7 != 0 ||
    field e 48 16 != 0 ||
    (level == 0 && field e 8 5 != 0) || (level == 1 && field e 8 6 != 0)

/-- A leaf: its entry, and whether its page is of 2 MiB. -/
structure Leaf where
  e : Nat
  big : Bool
  deriving DecidableEq, Repr
/-- PTE.LOCAL. -/
def Leaf.isLocal (l : Leaf) : Bool := pteBit l.e 6
/-- PTE.MIG. -/
def Leaf.mig (l : Leaf) : Bool := pteBit l.e 4
/-- Bytes of the page. -/
def Leaf.size (l : Leaf) : Nat := if l.big then 2 ^ 21 else 2 ^ 16

/-- A walk that found no leaf: the level, and whether the entry is malformed. -/
structure NoLeaf where
  level : Nat
  malf : Bool
  deriving DecidableEq, Repr

/-- Index bits of a level: the lowest, and how many (04 R69). -/
def levelBits : Nat → Nat × Nat
  | 0 => (42, 11)
  | 1 => (32, 10)
  | 2 => (21, 11)
  | _ => (16, 5)

/-- Address of the entry that a level's table holds for an offset. -/
def pteAddr (table level off : Nat) : Nat :=
  table + 8 * field off (levelBits level).1 (levelBits level).2

/-- Walk from a table of a level (04 R69 to R71); fuel is the levels left. -/
def walkFrom (s : State) : Nat → Nat → Nat → Nat → Except NoLeaf Leaf
  | 0, level, _, _ => .error ⟨level, true⟩
  | n + 1, level, table, off =>
    let e := s.num (span (keyPhys (pteAddr table level off)) 8)
    if !pteBit e 0 then .error ⟨level, false⟩
    else if malformed s.sys.fuse.grade level e then .error ⟨level, true⟩
    else if pteBit e 5 then .ok ⟨e, level == 2⟩
    else walkFrom s n (level + 1) (ptePa e) off

/-- Walk a context's tables for an offset. A context that this device does not have has no tables here: nothing of it is
present (04 R79). -/
def walk (s : State) (ctx off : Nat) : Except NoLeaf Leaf :=
  if (s.ctx ctx).exists_ then walkFrom s 4 0 (s.ctx ctx).ptroot.toNat off else .error ⟨0, false⟩

/-- A cached translation serves an offset (04 R73). -/
def TlbEnt.hits (t : TlbEnt) (clus ctx off : Nat) : Bool :=
  t.clus == clus && t.ctx == ctx &&
    (if t.big then off / 2 ^ 21 == t.page / 2 ^ 21 else off / 2 ^ 16 == t.page / 2 ^ 16)
/-- The number of a core's own TLB among the TLBs of the device. -/
def coreTlb (c : Nat) : Nat := 0x1000 + c
/-- The TLBs that an access looks in, in this order (04 R73). -/
def Who.tlbs (w : Who) : List Nat := (w.l1.map coreTlb).toList ++ [w.tlb]
/-- A TLB's entry for an offset, and the leaf that it holds. -/
def State.cached (s : State) (ctx off n : Nat) : Option Leaf :=
  (findFirst (fun t : TlbEnt => t.hits n ctx off) s.tlb).map fun t => ⟨t.pte.toNat, t.big⟩
/-- The leaf for an offset: cached in the core's TLB, in the cluster's, or walked (04 R73, R74). (DESIGN CHOICE, log entry
55.) -/
def lookup (s : State) (tlbs : List Nat) (ctx off : Nat) : Except NoLeaf Leaf :=
  match firstSome (tlbs.map (s.cached ctx off)) with
  | some l => .ok l
  | none => walk s ctx off
/-- The entries that a new one competes with, and how many of them stay: those of its set of 8, or all of a core's own TLB
(04 R73). The choice of sets is the model's (DESIGN CHOICE, log entry 55). -/
def TlbEnt.rivals (t : TlbEnt) (x : TlbEnt) : Bool :=
  x.clus == t.clus && (decide (0x1000 ≤ t.clus) ||
    (let set_ (y : TlbEnt) : Nat := (if y.big then y.page / 2 ^ 21 else y.page / 2 ^ 16) % 256
     set_ x == set_ t))
/-- Cache a leaf in one TLB: the newest first, the oldest of its rivals gives way. -/
def State.cacheIn (s : State) (l : Leaf) (ctx off n : Nat) : State :=
  if (s.cached ctx off n).isSome then s
  else
    let t : TlbEnt := { clus := n, ctx := ctx, page := off / l.size * l.size, big := l.big,
                        pte := BitVec.ofNat 64 l.e }
    let mine := (s.tlb.filter t.rivals).take (if 0x1000 ≤ n then 63 else 7)
    { s with tlb := t :: (mine ++ s.tlb.filter fun x => !t.rivals x) }
/-- Cache the translation of an offset in the TLBs of a party, if it has a valid leaf (04 R73). -/
def State.fillTlb (s : State) (tlbs : List Nat) (ctx off : Nat) : State :=
  match lookup s tlbs ctx off with
  | .error _ => s
  | .ok l => foldL (fun s n => s.cacheIn l ctx off n) s tlbs

/-- PGINFO (04 R78). -/
def pgInfo (k : Kind) (level : Nat) (malf anchor w cow x : Bool) : W64 :=
  BitVec.ofNat 64 (k.code + 16 * level + 64 * (if malf then 1 else 0) +
    128 * (if anchor then 1 else 0) + 256 * (if w then 1 else 0) + 512 * (if cow then 1 else 0) +
    1024 * (if x then 1 else 0))

/-- The access needs write permission, or X (04 R76). -/
def permitted (k : Kind) (l : Leaf) : Bool :=
  match k with
  | .load | .cntWait | .prefetch => true
  | .store | .rmw | .cntAdd => pteBit l.e 1 && !pteBit l.e 3
  | .fetch => pteBit l.e 2

/-- Translation and permission checks of a global address for one byte (02 R35 check 6, 04 R72, R76). -/
def xlate (s : State) (w : Who) (k : Kind) (a : W64) : Except Fail Leaf :=
  let off := a.toNat % 2 ^ 53
  match lookup s w.tlbs w.ctx off with
  | .error n => .error ⟨0x08, a, pgInfo k n.level n.malf false false false false⟩
  | .ok l =>
    if pteAnchor l.e ≠ field a.toNat 53 10 then
      .error ⟨0x08, a, pgInfo k (if l.big then 2 else 3) false true false false false⟩
    else if permitted k l then .ok l
    else .error ⟨0x09, a, pgInfo k 0 false false (pteBit l.e 1) (pteBit l.e 3) (pteBit l.e 2)⟩

/-- The location of a global byte under a leaf (04 R82, 03 R58). -/
def leafKey (l : Leaf) (a : W64) : Nat :=
  if l.isLocal then keyPhys (ptePa l.e / l.size * l.size + a.toNat % l.size) else keyPeer a.toNat

/-- The locations of n bytes, page by page; fuel is the pages left. -/
def globRun (s : State) (w : Who) (k : Kind) : Nat → W64 → Nat → Except Fail (List Nat)
  | 0, _, _ => .ok []
  | f + 1, a, n =>
    match xlate s w k a with
    | .error e => .error e
    | .ok l =>
      let left := 2 ^ 16 - a.toNat % 2 ^ 16
      if n ≤ left then .ok (span (leafKey l a) n)
      else
        match globRun s w k f (a + BitVec.ofNat 64 left) (n - left) with
        | .error e => .error e
        | .ok r => .ok (span (leafKey l a) left ++ r)
/-- The locations of n bytes from a global address; each byte of a run that crosses a page is
translated with its own page. A failure names the access's own address (02 R36). -/
def globKeys (s : State) (w : Who) (k : Kind) (a : W64) (n : Nat) : Except Fail (List Nat) :=
  match globRun s w k (n / 2 ^ 16 + 2) a n with
  | .error e => .error { e with addr := a }
  | .ok ks => .ok ks

/-- An access that has passed its checks: the locations of its bytes. -/
structure Acc where
  glob : Bool
  keys : List Nat
  deriving DecidableEq, Repr
/-- The place of an access: its first byte. -/
def Acc.place (a : Acc) : Place := { glob := a.glob, key := a.keys.headD 0 }

/-- Resolve what checks 1 to 5 have accepted (02 R35 check 6). -/
def resolve (s : State) (w : Who) (thread : Nat) (k : Kind) (t : Target) (n : Nat) : Except Fail Acc :=
  match t with
  | .glob a =>
    match globKeys s w k a n with
    | .error e => .error e
    | .ok ks => .ok ⟨true, ks⟩
  | .loc sp o => .ok ⟨false, spaceKeys s w thread sp o n⟩

/-- A generic access, all six checks (02 R35). -/
def genericAcc (s : State) (w : Who) (thread : Nat) (k : Kind) (a : W64) (n align : Nat) :
    Except Fail Acc :=
  match checkGeneric s w a n align with
  | .error e => .error e
  | .ok t => resolve s w thread k t n
/-- LDG and STG: bit 63, alignment, translation (14 R304). -/
def globalAcc (s : State) (w : Who) (k : Kind) (a : W64) (n : Nat) : Except Fail Acc :=
  if a.toNat ≥ 2 ^ 63 then .error ⟨0x0C, a, 0x8000000000000000⟩
  else if a.toNat % n ≠ 0 then .error ⟨0x05, a, BitVec.ofNat 64 n⟩
  else resolve s w 0 k (.glob a) n
/-- A space-specific access (14 R304). -/
def specificAcc (s : State) (w : Who) (thread : Nat) (sp : Space) (o : W64) (n : Nat) :
    Except Fail Acc :=
  match checkSpecific s w sp o n n with
  | .error e => .error e
  | .ok o => .ok ⟨false, spaceKeys s w thread sp o n⟩

/-- Restrict a generic access to some windows: a barrier, a counter, a packet (03 R64, R67). -/
def windowAcc (s : State) (w : Who) (k : Kind) (ok : Nat → Bool) (a : W64) (n align : Nat) :
    Except Fail Acc :=
  match check14 s w a n with
  | .error e => .error e
  | .ok t =>
    if !ok (window a) then .error ⟨0x0C, a, 0⟩
    else if a.toNat % align ≠ 0 then .error ⟨0x05, a, BitVec.ofNat 64 align⟩
    else resolve s w 0 k t n
/-- Windows of a barrier (03 R64). -/
def barWindow (n : Nat) : Bool := n == 0xC || n == 0xD || n == 0xE
/-- Windows of a counter (03 R67). -/
def cntWindow (n : Nat) : Bool := decide (n < 8) || n == 0xC
/-- Windows of a packet, an image or a copy (14 R327, 15 R340). -/
def bulkWindow (n : Nat) : Bool := decide (n < 8) || n == 0xC || n == 0xE
/-- A barrier object (14 R318). -/
def barAcc (s : State) (w : Who) (a : W64) : Except Fail Acc := windowAcc s w .load barWindow a 16 16
/-- A counter object (14 R323, R326). -/
def cntAcc (s : State) (w : Who) (k : Kind) (a : W64) : Except Fail Acc :=
  windowAcc s w k cntWindow a 16 16

/-- Drop cached translations that overlap [lo, lo + len); all of the context's when len is 0
(04 R75, 18 R412). -/
def State.invalidate (s : State) (ctx lo len : Nat) : State :=
  { s with tlb := s.tlb.filter fun t =>
      let sz := if t.big then 2 ^ 21 else 2 ^ 16
      !(t.ctx == ctx && (len == 0 || (decide (t.page < lo + len) && decide (lo < t.page + sz)))) }

end Sys2Proof.Machine
end

