-- ==== Sys2Proof/Machine/Coherence.lean ====
section
/-!
DEFINITION. Global memory in logical time: publications, leases, private and narrow-published bytes
(03 R54 to R59, 05 R98 to R103, R106, R114; 06 R126, R127, R133, R134).
-/
namespace Sys2Proof.Machine

/-- The 64-byte line of a location. -/
def lineOf (k : Nat) : Nat := k / 64
/-- The lines that some locations lie in. -/
def linesOf (ks : List Nat) : List Nat := (ks.map lineOf).eraseDups
/-- Write stamp of a line. -/
def State.wtsOf (s : State) (l : Nat) : Nat := tblGet 0 s.wts l
/-- Read stamp of a line. -/
def State.rtsOf (s : State) (l : Nat) : Nat := tblGet 0 s.rts l
/-- The largest of some numbers. -/
def maxOf : List Nat → Nat
  | [] => 0
  | a :: l => Nat.max a (maxOf l)

/-- A stamp above the stamps of some lines and above a writer's own (03 R54, 05 R99). -/
def State.stampAbove (s : State) (ls : List Nat) (gts : Nat) : Nat :=
  Nat.max gts (Nat.max (maxOf (ls.map s.wtsOf)) (maxOf (ls.map s.rtsOf))) + 1
/-- Give lines a write stamp. -/
def State.setWts (s : State) (p : Nat) : List Nat → State
  | [] => s
  | l :: r => { s with wts := tblSet 0 s.wts l p }.setWts p r

/-- The local slice holds the line of a peer's byte; every other byte has its home here. -/
def State.here (s : State) (k : Nat) : Bool :=
  !isPeerKey k ||
    (let l := tblGet {} s.own.peers ((k - regionBase 5) / 64)
     l.held && !l.wb)
/-- A byte of a peer's line that has been published here and that its owner does not have. -/
def State.dirtyKey (s : State) (k : Nat) : Bool :=
  isPeerKey k && (tblGet {} s.own.peers ((k - regionBase 5) / 64)).dirty.getLsbD ((k - regionBase 5) % 64)
/-- A domain keeps some bytes as they stand, where it does not keep an earlier value or waits for one (06 R134). -/
def Dom.keep (s : State) (ks : List Nat) (d : Dom) : Dom :=
  let put (t : List (Nat × Held)) (k : Nat) : List (Nat × Held) :=
    if (tblGet none t k).isSome || tblGet false d.late k then t else tblSet none t k (some (s.byte k, s.psn k))
  { d with snap := foldL put d.snap ks }
/-- Deterministic domains keep the quantum-end value and mark of the words that are about to change (06 R134). -/
def State.noteSnap (s : State) (ks : List Nat) : State :=
  if s.disp.doms.isEmpty then s
  else
    let all := (wordsTouched ks).flatMap fun w => from_ (8 * w) 8
    let known (k : Nat) : Bool := s.here k || s.dirtyKey k
    let away := (all.filter fun k => !known k).map fun k => (k, true)
    let add (d : Dom) : Dom :=
      let d := d.keep s (all.filter known)
      { d with late := tblSetMany false d.late away }
    { s with disp := { s.disp with doms := s.disp.doms.map add } }
/-- The owner's bytes and marks of a line: what domains wait for among them is known (06 R134). -/
def State.noteFill (s : State) (k : Nat) (bytes : List Byte) (marks : Nat → Bool) : State :=
  let put (late : List (Nat × Bool)) (t : List (Nat × Held)) (j : Nat) : List (Nat × Held) :=
    if tblGet false late (k + j) && (tblGet none t (k + j)).isNone then
      tblSet none t (k + j) (some (bytes.getD j 0, marks (j / 8)))
    else t
  let add (d : Dom) : Dom := { d with snap := foldL (put d.late) d.snap (upTo 64) }
  if s.disp.doms.isEmpty then s else { s with disp := { s.disp with doms := s.disp.doms.map add } }

/-- Peer-owned bytes that the local slice writes: their lines become dirty (03 R58). -/
def State.dirtyPeers (s : State) : List Nat → State
  | [] => s
  | k :: r =>
    (if isPeerKey k then
      let a := k - regionBase 5
      let l := tblGet {} s.own.peers (a / 64)
      let l := { l with dirty := l.dirty ||| (1#64 <<< (a % 64)) }
      { s with own := { s.own with peers := tblSet {} s.own.peers (a / 64) l } }
    else s).dirtyPeers r

/-- Bytes of lines that a peer holds exclusively, published here: the peer's own bytes do not replace them when the line
comes back (06 R126). -/
def State.noteOver (s : State) : List Nat → State
  | [] => s
  | k :: r =>
    (if s.own.excl.any fun e => e.1 == lineOf k then
      { s with own := { s.own with
        pubOver := tblSet 0 s.own.pubOver (lineOf k) (tblGet 0 s.own.pubOver (lineOf k) ||| (1#64 <<< (k % 64))) } }
    else s).noteOver r

/-- A peer's line that has been published here and is not held exclusively yet (06 R127). -/
def Own.openLine (o : Own) (l : Nat) : Bool :=
  isPeerKey (64 * l) &&
    (let x := tblGet {} o.peers (l - regionBase 5 / 64)
     x.dirty != 0 && !x.excl)
/-- The invalidation of a peer's copy of a line of this device is due, or has not been acknowledged. -/
def State.invalOut (s : State) (l : Nat) : Bool :=
  s.own.invq.any (fun e => e.1 == l) || s.fab.reqs.any fun r => decide (r.use = .inval l)
/-- A peer holds a line of this device exclusively. -/
def Own.heldByPeer (o : Own) (l : Nat) : Bool := o.excl.any fun e => e.1 == l
/-- A published line may not be shown to a peer with its new bytes as long as its publication holds this line (06
R127). -/
def State.lineOpen (s : State) (l : Nat) : Bool := s.own.openLine l || s.own.heldByPeer l || s.invalOut l
/-- Only publications that still wait for a line are kept. -/
def State.prunePubs (s : State) : State :=
  if s.own.pubs.isEmpty then s
  else { s with own := { s.own with pubs := s.own.pubs.filter fun ls => ls.any s.lineOpen } }
/-- A publication of several lines stays whole while one of them is a peer's that is not held exclusively, or has a
copy at a peer (06 R127). -/
def State.notePub (s : State) (ls : List Nat) : State :=
  if decide (ls.length ≤ 1) || !ls.any s.lineOpen then s
  else
    let s := s.prunePubs
    { s with own := { s.own with pubs := s.own.pubs ++ [ls] } }
/-- What an access waits for that no request can fetch: a page that migrates, or acknowledgements that are out. -/
def waitPage : Nat := 2 ^ 62
/-- Numbers from here on name lines of this device, by location, that a peer holds exclusively. -/
def localLine : Nat := 2 ^ 60
/-- Numbers from here on name lines of this device of which a peer holds a copy. -/
def shareLine : Nat := 2 ^ 61
/-- What a publication of some lines still waits for, if anything: a peer's line, or acknowledgements. Until then no
other device's recall or read of those lines is answered (06 R127). (DEDUCED, log entry 59.) -/
def State.pubWaits (s : State) (ls : List Nat) : Option Nat :=
  let l := (s.own.pubs.filter fun x => ls.any x.contains).flatten
  match findFirst s.own.openLine l with
  | some n => some (n - regionBase 5 / 64)
  | none =>
    match findFirst s.own.heldByPeer l with
    | some n => some (localLine + n)
    | none => if l.any s.invalOut then some waitPage else none

/-- The cells of held bytes that carry poison, or do not. -/
def heldCells (psn : Bool) (t : List (Nat × Held)) : List (Nat × Byte) :=
  t.filterMap fun e => match e.2 with
    | some (b, p) => if p == psn then some (e.1, b) else none
    | none => none

/-- Peer copies of lines that are written are to be invalidated (03 R58). -/
def State.noteSharers (s : State) (ls : List Nat) : State :=
  if s.own.sharers.isEmpty then s
  else
    let hit := s.own.sharers.filter fun e => ls.contains e.1
    { s with own := { s.own with
      sharers := s.own.sharers.filter fun e => !ls.contains e.1
      invq := foldL (fun q e => q ++ e.2.map fun x => (e.1, x)) s.own.invq hit } }

/-- Poisoned words of peers' lines that stores of less than a word have written while the line was not here: together the
stores clear no mark (18 R406). -/
def State.partWords (s : State) (ks : List Nat) : List Nat :=
  if ks.any isPeerKey then
    (wordsTouched ks).filter fun w => isPeerKey (8 * w) && s.psn (8 * w) &&
      (tblGet {} s.own.peers ((8 * w - regionBase 5) / 64)).part.getLsbD (w % 8)
  else []
/-- Publish held bytes under one stamp (05 R99): each home writes only the bytes stored, gives their
lines that stamp, and PCLK is raised to it. With no byte no stamp is issued. -/
def State.publish (s : State) (t : List (Nat × Held)) (gts : Nat) : State × Nat :=
  if t.isEmpty then (s, gts)
  else
    let ks := t.map (·.1)
    let ls := linesOf ks
    let p := s.stampAbove ls gts
    let s := s.noteSnap ks
    let s := ((s.writeClean (heldCells false t)).writePoisoned (heldCells true t)).poisonWords (s.partWords ks)
    let s := ((((s.setWts p ls).dirtyPeers ks).noteOver ks).noteSharers ls).notePub ls
    ({ s with pclk := Nat.max s.pclk p }, p)

/-- A write made at its home under a stamp of its own: an engine's line, an atomic, a host write
(03 R54, 06 R120). -/
def State.writeHome (s : State) (psn : Bool) (cells : List (Nat × Byte)) (gts : Nat) : State × Nat :=
  s.publish (cells.map fun c => (c.1, some (c.2, psn))) gts

/-- A core's copies of some lines are let go. -/
def Core.dropL1 (x : Core) (ls : List Nat) : Core := { x with l1 := x.l1.filter fun e => !ls.contains e.line }
/-- A core's narrow-published bytes that satisfy a test, and no others, stay. -/
def Core.keepNarrow (x : Core) (p : Nat → Bool) : Core :=
  { x with narrow := x.narrow.filter fun e => p e.1, nown := x.nown.filter fun e => p e.1 }
/-- A narrow-published byte travels with an atomic whose reply is not in (05 R106). -/
def State.flying (s : State) (k : Nat) : Bool := s.fab.reqs.any fun r =>
  match r.use with
  | .atom _ _ _ ks => ks.contains (k, true)
  | _ => false
/-- A core is a narrow holder only of lines of which it holds a byte narrow-published (03 R59). -/
def State.dropHolder (s : State) (c : Nat) : State :=
  if s.own.holders.isEmpty then s
  else
    let x := s.core c
    let stays (l d : Nat) : Bool := d != c || x.narrow.any fun n => lineOf n.1 == l
    { s with own := { s.own with holders := s.own.holders.filterMap fun e =>
        let cs := e.2.filter (stays e.1)
        if cs.isEmpty then none else some (e.1, cs) } }
/-- Bytes whose home lies behind a DOWN die link are not written; each line is reported with KIND 2 (01 R16). -/
def State.overCut (s : State) (die : Nat) (t : List (Nat × Held)) : State × List (Nat × Held) :=
  if s.sys.allUp then (s, t)
  else
    let lost := linesOf ((t.map (·.1)).filter (s.cutFrom die))
    (foldL (fun s l => s.lostWrite die (64 * l) (BitVec.ofNat 64 (64 * l))) s lost,
      t.filter fun e => !s.cutFrom die e.1)
/-- What a core holds narrow-published is published under one stamp, above the clocks of the groups that published it
there (03 R59, 05 R99, R114), but for some bytes and for those that are on their way with an atomic. -/
def State.forceBut (s : State) (c : Nat) (but : List Nat) : State :=
  let x := s.core c
  let stays (k : Nat) : Bool := but.contains k || s.flying k
  let out := x.narrow.filter fun n => !stays n.1
  if out.isEmpty then s
  else
    let owners := out.map fun n => tblGet 0 x.nown n.1
    let gts := maxOf ((s.groups.filter fun g => owners.contains (g.gid + 1)).map (·.gts))
    let s := (s.setCore c ((x.keepNarrow stays).dropL1 (linesOf (out.map (·.1))))).dropHolder c
    let r := s.overCut (s.sys.fuse.dieOf c) out
    (r.1.publish r.2 gts).1
/-- Forced publish (03 R59, 05 R114): everything the core holds narrow-published, under one stamp. -/
def State.forcePublish (s : State) (c : Nat) : State := s.forceBut c []
/-- The cores other than one that hold a line of a list narrow-published. -/
def State.narrowHolders (s : State) (except_ : Option Nat) (ls : List Nat) : List Nat :=
  s.cores.filterMap fun e =>
    if some e.1 != except_ && e.2.narrow.any (fun n => ls.contains (lineOf n.1)) then some e.1 else none
/-- Before a home answers, the other narrow holders of its lines publish (05 R114). -/
def State.widen (s : State) (except_ : Option Nat) (ks : List Nat) : State :=
  foldL State.forcePublish s (s.narrowHolders except_ (linesOf ks))

/-- A byte the group holds private: its latest store, or a store that a fence still covers. -/
def Group.own (g : Group) (k : Nat) : Held :=
  match tblGet none g.priv k with
  | some b => some b
  | none => firstSome (g.fences.reverse.map fun f => tblGet none f.cover k)
/-- The group's private bytes together: later stores over those of its fences (05 R98, R107). -/
def Group.allPriv (g : Group) : List (Nat × Held) :=
  let base := foldL (fun t f => tblSetMany none t f.cover) [] g.fences
  tblSetMany none base g.priv

/-- The group's private bytes cover the whole word of a location. -/
def Group.covers (g : Group) (k : Nat) : Bool :=
  (from_ (k / 8 * 8) 8).all fun j => (g.own j).isSome
/-- A byte that the group reads in place of its home's: its own private one, else its core's narrow-published one (05
R101). -/
def State.nearBy (s : State) (k : Nat) : Held :=
  match s.g.own k with
  | some b => some b
  | none =>
    match s.g.unit with
    | .core c _ => tblGet none (s.core c).narrow k
    | .damper _ _ => none
/-- The word of a location is poisoned as the group sees it: a byte it reads in place of the home's was written
poisoned, or the home is poisoned under bytes it reads there. -/
def State.seenPsn (s : State) (k : Nat) : Bool :=
  (from_ (k / 8 * 8) 8).any fun j => match s.nearBy j with
    | some (_, p) => p
    | none => s.psn j
/-- Words of peers' lines, written in part while the line is not here or, whole, not in part any more (18 R406). -/
def State.notePart (s : State) (ks : List Nat) : List Nat → State
  | [] => s
  | w :: r =>
    let full := (from_ (8 * w) 8).all fun k => ks.contains k
    let s :=
      if if full then !isPeerKey (8 * w) else s.here (8 * w) then s
      else
        let n := (8 * w - regionBase 5) / 64
        let l := tblGet {} s.own.peers n
        let part := if full then l.part &&& ~~~(1#8 <<< (w % 8)) else l.part ||| (1#8 <<< (w % 8))
        { s with own := { s.own with peers := tblSet {} s.own.peers n { l with part := part } } }
    s.notePart ks r
/-- Store bytes privately (05 R98). A store of less than a word leaves a poisoned word poisoned, so its
bytes are held poisoned (18 R406). -/
def State.storePriv (s : State) (cells : List (Nat × Byte)) (psn : Bool) : State :=
  let ks := cells.map (·.1)
  let mark (k : Nat) : Bool :=
    psn || (s.seenPsn k && !((from_ (k / 8 * 8) 8).all fun j => ks.contains j))
  let s := s.setG { s.g with
    priv := tblSetMany none s.g.priv (cells.map fun c => (c.1, some (c.2, mark c.1))) }
  s.notePart ks (wordsTouched ks)

/-- The line of a core's L1, if a load at a stamp hits it (03 R54). -/
def Core.hit (x : Core) (l gts : Nat) : Option L1Line :=
  findFirst (fun e => e.line == l && decide (gts ≤ e.lease)) x.l1
/-- The bytes of a line, as 64 bytes of one word. -/
def State.lineData (s : State) (l : Nat) : BitVec 512 :=
  BitVec.ofNat 512 (leNat (s.bytes (from_ (64 * l) 64)))
/-- The poison marks of a line's words. -/
def State.linePsn (s : State) (l : Nat) : BitVec 8 :=
  BitVec.ofNat 8 (foldL (fun n j => n + if s.psn (64 * l + 8 * j) then 2 ^ j else 0) 0 (upTo 8))
/-- A slice serves a miss or a renewal (03 R54): other narrow holders publish first, rts rises to the
lease's end, and the L1 keeps the line; of 2,048 lines the one that was filled first gives way (DESIGN CHOICE, log entry
67). -/
def State.serveMiss (s : State) (c l gts : Nat) : State :=
  let s := s.widen (some c) [64 * l]
  let lease := Nat.max (s.rtsOf l) (Nat.max gts (s.wtsOf l) + (Config.freeLease s.draws).toNat)
  let s := { s.draw with rts := tblSet 0 s.rts l lease }
  let x := s.core c
  let e : L1Line := { line := l, lease := lease, wts := s.wtsOf l, data := s.lineData l,
                      psn := s.linePsn l }
  s.setCore c { x with l1 := (e :: x.l1.filter fun y => y.line != l).take 2048 }

/-- What a load of one byte returns, and whether its word is poisoned. -/
structure Got where
  b : Byte
  psn : Bool
  deriving DecidableEq, Repr

/-- A byte as the home holds it. -/
def State.atHome (s : State) (k : Nat) : Got := ⟨s.byte k, s.psn k⟩
/-- A byte of an L1 line. -/
def L1Line.at_ (e : L1Line) (k : Nat) : Got :=
  ⟨e.data.extractLsb' (8 * (k % 64)) 8, e.psn.getLsbD (k % 64 / 8)⟩
/-- A byte as it stood at the last quantum end (06 R134). -/
def State.atQuantum (s : State) (launch k : Nat) : Got :=
  match findFirst (fun d => d.launch == launch) s.disp.doms with
  | none => s.atHome k
  | some d =>
    match tblGet none d.snap k with
    | some (b, p) => ⟨b, p⟩
    | none => s.atHome k

/-- The lines a load must fetch: those with a byte that neither the group nor its core holds and that
the L1 does not serve. -/
def State.missing (s : State) (g : Group) (c : Nat) (ks : List Nat) : List Nat :=
  linesOf (ks.filter fun k =>
    (g.own k).isNone && (tblGet none (s.core c).narrow k).isNone &&
      ((s.core c).hit (lineOf k) g.gts).isNone)

/-- One byte of a plain global load on a core, its lines served (05 R101). -/
def State.coreByte (s : State) (g : Group) (c k : Nat) : Got :=
  match g.own k with
  | some (b, p) => ⟨b, p⟩
  | none =>
    match tblGet none (s.core c).narrow k with
    | some (b, p) => ⟨b, p⟩
    | none =>
      match (s.core c).hit (lineOf k) g.gts with
      | some e => e.at_ k
      | none => s.atHome k
/-- The stamp of the line a byte was read from (05 R101). -/
def State.coreStamp (s : State) (g : Group) (c k : Nat) : Nat :=
  if (g.own k).isSome || (tblGet none (s.core c).narrow k).isSome then 0
  else
    match (s.core c).hit (lineOf k) g.gts with
    | some e => e.wts
    | none => s.wtsOf (lineOf k)

/-- A word whose private or narrow bytes do not cover it stays poisoned for the reader (05 R106, 18
R406). -/
def Got.withWord (x : Got) (under : Bool) (covered : Bool) : Got :=
  if under && !covered then ⟨x.b, true⟩ else x
/-- The core's narrow-published bytes and the group's private ones cover the whole word. -/
def State.coversWord (s : State) (g : Group) (c k : Nat) : Bool :=
  (from_ (k / 8 * 8) 8).all fun j => (g.own j).isSome || (tblGet none (s.core c).narrow j).isSome

/-- A plain global load by the current group (05 R101, 06 R134): its bytes, and the state with the
lines served and gts raised. -/
def State.loadGlob (s : State) (ks : List Nat) : State × List Got :=
  let g := s.g
  match g.unit with
  | .damper _ _ =>
    let s := s.widen none ks
    let got (k : Nat) : Got :=
      match g.own k with
      | some (b, p) => Got.withWord ⟨b, p⟩ (s.psn k) (g.covers k)
      | none => s.atHome k
    let top := maxOf ((linesOf ks).map s.wtsOf)
    (s.setG { g with gts := Nat.max g.gts top }, ks.map got)
  | .core c _ =>
    match g.det with
    | some _ =>
      let got (k : Nat) : Got :=
        match g.own k with
        | some (b, p) => Got.withWord ⟨b, p⟩ (s.psn k) (g.covers k)
        | none => s.atQuantum g.launch k
      (s, ks.map got)
    | none =>
      let s := foldL (fun s l => s.serveMiss c l g.gts) s
        ((s.missing g c ks).filter fun l => !s.cutTo g.unit (64 * l))
      let got (k : Nat) : Got := Got.withWord (s.coreByte g c k) (s.psn k) (s.coversWord g c k ||
        ((g.own k).isNone && (tblGet none (s.core c).narrow k).isNone))
      let top := maxOf (ks.map (s.coreStamp g c))
      (s.setG { g with gts := Nat.max g.gts top }, ks.map got)

/-- A peer's line that some locations need and the local slice does not hold. -/
def State.peerMissing (s : State) (g : Group) (ks : List Nat) : Option Nat :=
  findFirst (fun k => (g.own k).isNone && !s.here k) ks

/-- Drop the lines of some locations whose request failed, once an access has read them poisoned
(17 R380). -/
def State.dropLost (s : State) (ks : List Nat) : State :=
  if s.own.peers.any (fun e => e.2.lost) then
    foldL (fun s l =>
      let n := l - regionBase 5 / 64
      if isPeerKey (64 * l) && (tblGet {} s.own.peers n).lost then
        let s := foldL (fun s j => s.setPsn (64 * l + 8 * j) false) s (upTo 8)
        { s with
          own := { s.own with peers := tblSet {} s.own.peers n { dirty := (tblGet {} s.own.peers n).dirty } }
          cores := s.cores.map fun e => (e.1, { e.2 with l1 := e.2.l1.filter fun x => x.line != l }) }
      else s) s (linesOf ks)
  else s
/-- The number that loaded bytes spell. -/
def gotNum (l : List Got) : Nat := leNat (l.map (·.b))
/-- Some loaded byte lies in a poisoned word. -/
def gotPsn (l : List Got) : Bool := l.any (·.psn)

/-- An engine's or the hardware's own read of a byte at its home: narrow holders publish first
(05 R114), and accepted stores of the byte's core perform first. -/
def State.readHome (s : State) (ks : List Nat) : State × List Got :=
  let s := s.widen none ks
  (s, ks.map s.atHome)

/-- A core becomes a narrow holder of some lines. Before a fifth holder of a line is recorded the earliest publishes
(03 R59). -/
def State.noteHolders (s : State) (c : Nat) : List Nat → State
  | [] => s
  | l :: r =>
    let h := tblGet [] s.own.holders l
    let s := if h.contains c || decide (h.length < 4) then s else s.forcePublish (h.headD 0)
    let h := tblGet [] s.own.holders l
    let s : State :=
      if h.contains c then s
      else { s with own := { s.own with holders := tblSet [] s.own.holders l (h ++ [c]) } }
    s.noteHolders c r
/-- A scope at which a release reaches only the core (05 R100). -/
def narrowScope : Scope → Bool
  | .grp | .core => true
  | _ => false
/-- A group's bytes become narrow-published on its core (05 R100). -/
def State.narrowOut (s : State) (c : Nat) (cover : List (Nat × Held)) : State :=
  if cover.isEmpty then s
  else
    let ks := cover.map (·.1)
    let again (r : Req) : Req :=
      match r.use with
      | .atom gid p d l => { r with use := .atom gid p d (l.filter fun e => !(e.2 && ks.contains e.1)) }
      | _ => r
    let s : State :=
      if s.fab.reqs.isEmpty then s else { s with fab := { s.fab with reqs := s.fab.reqs.map again } }
    (s.modCore c fun x => { x with
      narrow := tblSetMany none x.narrow cover
      nown := tblSetMany 0 x.nown (ks.map fun k => (k, s.g.gid + 1)) }).noteHolders c (linesOf ks)
/-- What of a core's narrow-published bytes a group published there. -/
def State.narrowOf (s : State) (c gid : Nat) : List (Nat × Held) :=
  let x := s.core c
  x.narrow.filter fun n => tblGet 0 x.nown n.1 == gid + 1 && !s.flying n.1
/-- Publish some of the current group's private bytes at a scope (05 R99, R100), and at CLUSTER scope or wider what it
holds narrow-published; `f` says what the group then holds. What other groups hold narrow-published on the core is forced
out first, so that whoever synchronises with this release finds it published (05 R112). (DEDUCED, log entry 60.) -/
def State.releaseSome (s : State) (sc : Scope) (cover : List (Nat × Held)) (f : Group → Group) : State :=
  let g := s.g
  match g.unit with
  | .core c _ =>
    if narrowScope sc then (s.narrowOut c cover).setG (f g)
    else
      let mine := s.narrowOf c g.gid
      let all := tblSetMany none mine cover
      let stays (k : Nat) : Bool := (tblGet none mine k).isNone
      let s := (s.modCore c fun x =>
        if mine.isEmpty then x else (x.keepNarrow stays).dropL1 (linesOf (mine.map (·.1)))).dropHolder c
      let r := (s.forcePublish c).overCut (s.sys.fuse.dieOf c) all
      let r := (r.1.widen none (r.2.map (·.1))).publish r.2 g.gts
      r.1.setG { (f g) with gts := r.2 }
  | .damper d _ =>
    let r := s.overCut (s.sys.fuse.damperDie d) cover
    let r := (r.1.widen none (r.2.map (·.1))).publish r.2 g.gts
    r.1.setG { (f g) with gts := r.2 }
/-- A release part at one scope does what one at another asks for (05 R99, R100). -/
def scopeMeets (sc f : Scope) : Bool := narrowScope f || !narrowScope sc
/-- The group holds nothing private once a release at a scope has published it. -/
def Group.allPublished (sc : Scope) (g : Group) : Group :=
  { g with
    priv := []
    fences := g.fences.map fun f => { f with cover := [], published := f.published || scopeMeets sc f.scope } }
/-- Managed part of a release at a scope (05 R99, R100; 06 R133): a deterministic group publishes
nothing. -/
def State.releaseGlob (s : State) (sc : Scope) : State :=
  if s.g.det.isSome then s else s.releaseSome sc s.g.allPriv (Group.allPublished sc)
/-- A peer's line that a FABRIC release must still own exclusively (06 R126). -/
def State.notExclusive (s : State) : Option Nat :=
  (findFirst (fun e : Nat × PeerLine => e.2.dirty != 0 && !e.2.excl) s.own.peers).map (·.1)
/-- The acquire's effect on managed channels (05 R102): gts rises to PCLK; a deterministic group's does
not move (06 R133). -/
def State.acquire (s : State) : State :=
  if s.g.det.isSome then s else s.setG { s.g with gts := Nat.max s.g.gts s.pclk }

end Sys2Proof.Machine
end

