-- ==== Sys2Proof/Machine/Net.lean ====
section
/-!
DEFINITION. Requests of this device to its peers: how they are named, addressed and sent (04 R81, R82,
06 R130, 17 R382, R383).
-/
namespace Sys2Proof.Machine

/-- This device's ID; a device without one sends nothing (17 R374). -/
def State.myId (s : State) : Nat := s.fab.devId.getD 0
/-- Base of the 64 KiB page of an address. -/
def page64 (a : W64) : W64 := a &&& ~~~0xFFFF#64
/-- Base of the 2 MiB page of an address. -/
def page2M (a : W64) : W64 := a &&& ~~~0x1FFFFF#64
/-- The name of a page: its base, with bit 0 set where it is of 2 MiB. -/
def pageName (a : W64) (big : Bool) : W64 := if big then page2M a ||| 1 else page64 a
/-- An address lies on a page of a name. -/
def onPage (p a : W64) : Bool := decide (p = page64 a) || decide (p = page2M a ||| 1)
/-- Base of a page of a name. -/
def pageAddr (p : W64) : W64 := p &&& ~~~1#64
/-- Bytes of a page of a name. -/
def pageSize (p : W64) : Nat := if p.getLsbD 0 then 2 ^ 21 else 2 ^ 16
/-- The anchor of a global address (02 R33). -/
def anchorOf (a : W64) : Nat := field a.toNat 53 10
/-- The replica of the owner cache that a request for an address reads: the one on the die that carries it, which is that
of the slice which holds the line (04 R81). (DESIGN CHOICE, log entry 38.) -/
def replicaOf (a : W64) : Nat := peerSlice a.toNat / 16
/-- The set of a replica that a page belongs to: its page number modulo 256 (04 R81). (DESIGN CHOICE, log entry 38.) -/
def cacheSet (p : W64) : Nat := (p.toNat / if p.getLsbD 0 then 2 ^ 21 else 2 ^ 16) % 256
/-- Look a page up in a table of pages, by an address in it. -/
def pageFind {α : Type} (t : List (W64 × α)) (a : W64) : Option α :=
  (findFirst (fun e : W64 × α => onPage e.1 a) t).map (·.2)
/-- Where a request for an address goes: the owner cache's guess, or the anchor; the anchor itself asks
its own record (04 R80, R82). -/
def State.ownerGuess (s : State) (a : W64) : Nat :=
  if anchorOf a = s.myId then (pageFind s.own.records a).getD s.myId
  else
    match findFirst (fun e : Nat × (W64 × Nat) => e.1 == replicaOf a && onPage e.2.1 a) s.own.cache with
    | some e => e.2.2
    | none => anchorOf a
/-- A request reads the owner cache: the entry that it finds is the most recently used of its set (04 R81). -/
def State.touchOwner (s : State) (a : W64) : State :=
  let hit (e : Nat × (W64 × Nat)) : Bool := e.1 == replicaOf a && onPage e.2.1 a
  match findFirst hit s.own.cache with
  | some e => { s with own := { s.own with cache := e :: dropFirst hit s.own.cache } }
  | none => s

/-- The source tag of a packet (06 R130). -/
def tagOf (p : Packet) : W64 :=
  BitVec.ofNat 64 (p.unit.toNat + 2 ^ 16 * p.seqn.toNat + 2 ^ 48 * p.src.toNat)
/-- Data flits of a payload (17 R382). -/
def flitsOf (n : Nat) : BitVec 3 := BitVec.ofNat 3 ((n + 63) / 64)
/-- Put a packet in the router's input. -/
def State.emit (s : State) (p : Packet) : State :=
  { s with fab := { s.fab with outbox := s.fab.outbox ++ [p] } }
/-- The request goes to the owner of a page, so that the order of 04 R88 covers it. -/
def pageReq (p : Packet) : Bool :=
  decide (p.typ.toNat ≤ 5) || decide (p.typ = 8) || decide (p.typ = 10)
/-- Two requests are for one page, taken as its 2 MiB frame of offsets (04 R88). (DEDUCED, log entry 32.) -/
def samePage (p q : Packet) : Bool := pageReq p && pageReq q && decide (page2M p.addr = page2M q.addr)
/-- An older request for the page met a redirect or a status: a younger one waits (04 R88). -/
def State.pageWaits (s : State) (p : Packet) : Bool :=
  s.fab.reqs.any fun r => samePage r.pkt p && (r.wait || r.redir || !r.sent)
/-- Send a request of this device and keep it until its reply (17 R380). -/
def State.request (s : State) (p : Packet) (use : ReqFor) : State :=
  let p : Packet := { p with
    cls := 0, hop := 0, src := BitVec.ofNat 10 s.myId, seqn := s.fab.seqn
    ndata := flitsOf p.data.length, len := BitVec.ofNat 32 p.data.length }
  let w := s.pageWaits p
  let s := if pageReq p && decide (anchorOf p.addr ≠ s.myId) then s.touchOwner p.addr else s
  let s := { s with fab := { s.fab with
    seqn := s.fab.seqn + 1
    reqs := s.fab.reqs ++ [{ tag := tagOf p, pkt := p, use := use, sent := !w }] } }
  if w then s else s.emit p

/-- A packet for the owner of an address. -/
def State.toOwner (s : State) (typ : BitVec 6) (unit : Nat) (a : W64) : Packet :=
  { typ := typ, unit := BitVec.ofNat 16 unit, addr := a,
    dst := BitVec.ofNat 10 (s.ownerGuess a) }
/-- The poison marks of a payload that begins at an address (17 R382). -/
def psnMarks (a : Nat) (marks : List Bool) : W64 :=
  let hit (k : Nat) : Bool :=
    (from_ 0 marks.length).any fun i => (a + i) / 8 == a / 8 + k && marks.getD i false
  BitVec.ofNat 64 (foldL (fun n k => n + if hit k then 2 ^ k else 0) 0 (upTo 33))
/-- Byte i of a payload is marked poisoned. -/
def pktMarked (p : Packet) (i : Nat) : Bool :=
  p.psn.getLsbD ((p.addr.toNat + i) / 8 - p.addr.toNat / 8)

/-- A line of a peer: ask the owner for it, shared or exclusive, unless it has been asked (03 R58). -/
def State.askLine (s : State) (unit line : Nat) (excl : Bool) : State :=
  let typ : BitVec 6 := if excl then 2 else 1
  if s.fab.reqs.any (fun r => decide (r.use = .fill line) && decide (r.pkt.typ = typ)) then s
  else s.request (s.toOwner typ unit (BitVec.ofNat 64 (64 * line))) (.fill line)

/-- A line of some locations that a peer holds exclusively (06 R126). -/
def State.exclLine (s : State) (ks : List Nat) : Option Nat :=
  if s.own.excl.isEmpty then none
  else (findFirst (fun k => s.own.excl.any fun e => e.1 == lineOf k) ks).map fun k => localLine + lineOf k
/-- A peer holds a copy of a line of this device, or has not acknowledged that it is invalid. -/
def State.shared (s : State) (l : Nat) : Bool := s.own.sharers.any (fun e => e.1 == l) || s.invalOut l
/-- What a write of some bytes at this device waits for: a line that a peer holds exclusively, or one of which a peer holds
a copy (03 R58, 06 R126). -/
def State.wantWrite (s : State) (ks : List Nat) : Option Nat :=
  match s.exclLine ks with
  | some l => some l
  | none =>
    if s.own.sharers.isEmpty && s.own.invq.isEmpty && s.fab.reqs.isEmpty then none
    else (findFirst s.shared (linesOf ks)).map fun l => shareLine + l
/-- The line of a peer's byte is held here exclusively. -/
def State.exclHere (s : State) (k : Nat) : Bool :=
  let l := tblGet {} s.own.peers ((k - regionBase 5) / 64)
  l.held && l.excl && !l.wb
/-- A line of some locations that this device may not change yet: a peer's that it does not hold exclusively, or one of its
own of which a peer holds a copy. -/
def State.unowned (s : State) (ks : List Nat) : Option Nat :=
  match findFirst (fun k => isPeerKey k && !s.exclHere k) ks with
  | some k => some (lineOf (k - regionBase 5))
  | none => s.wantWrite ks
/-- A line that an access must have first: a peer's that the local slice does not hold, or one that a peer holds
exclusively (03 R58). -/
def State.wantLine (s : State) (g : Group) (ks : List Nat) : Option Nat :=
  match s.peerMissing g ks with
  | some k => some (lineOf (k - regionBase 5))
  | none => s.exclLine ks
/-- Recall a line from the peer that holds it exclusively, once (03 R58, 06 R126). -/
def State.recall (s : State) (line : Nat) : State :=
  match findFirst (fun e : Nat × (Nat × W64) => e.1 == line) s.own.excl with
  | none => s
  | some e =>
    if s.fab.reqs.any (fun r => decide (r.use = .recall line)) then s
    else s.request { typ := 6, addr := e.2.2, dst := BitVec.ofNat 10 e.2.1 } (.recall line)
/-- Send the invalidations that are due (03 R58). -/
def State.sendInvals (s : State) : List (Nat × (Nat × W64)) → State
  | [] => s
  | (l, (d, a)) :: r =>
    (s.request { typ := 6, addr := a, dst := BitVec.ofNat 10 d } (.inval l)).sendInvals r
/-- Send every invalidation that is due. -/
def State.flushInvals (s : State) : State :=
  if s.own.invq.isEmpty then s
  else ({ s with own := { s.own with invq := [] } }).sendInvals s.own.invq
/-- An invalidation this device sent has not been acknowledged. -/
def State.invalsOut (s : State) : Bool := s.fab.reqs.any fun r => match r.use with
  | .inval _ => true
  | _ => false
/-- What a FABRIC release still waits for: a peer's line that it must own, a line that comes back from a peer, or
invalidations that are out (06 R126). -/
def State.fabWants (s : State) : Option Nat :=
  match s.notExclusive, s.own.pubOver with
  | some l, _ => some l
  | none, e :: _ => some (localLine + e.1)
  | none, [] => if s.invalsOut || !s.own.invq.isEmpty then some waitPage else none
/-- Every peer's copy of some lines but one device's is to be invalidated before they are written (03 R58): what that
leads to while an acknowledgement is awaited; none once it is over. -/
def State.unshare (s : State) (ls : List Nat) (keep : Option Nat) : Option State :=
  let mine (e : Nat × List (Nat × W64)) : Bool := ls.contains e.1
  let other (x : Nat × W64) : Bool := some x.1 != keep
  let out := (s.own.sharers.filter mine).flatMap fun e => (e.2.filter other).map fun x => (e.1, x)
  if !out.isEmpty then
    let keepOf (e : Nat × List (Nat × W64)) : Nat × List (Nat × W64) :=
      if mine e then (e.1, e.2.filter fun x => !other x) else e
    some ({ s with own := { s.own with
      sharers := (s.own.sharers.map keepOf).filter fun e => !e.2.isEmpty, invq := s.own.invq ++ out } }).flushInvals
  else if ls.any s.invalOut then some s.flushInvals
  else none
/-- Ask for a line that an access must have. -/
def State.getLine (s : State) (unit line : Nat) (excl : Bool) : State :=
  if line = waitPage then s
  else if line < localLine then s.askLine unit line excl
  else if line < shareLine then s.recall (line - localLine)
  else (s.unshare [line - shareLine] none).getD s

/-- Codes of the atomics in a request's descriptor: the OP of 11 R248. -/
def AtomOp.code : AtomOp → Nat
  | .add => 0
  | .and => 1
  | .or => 2
  | .xor => 3
  | .min => 4
  | .max => 5
  | .xchg => 6
  | .incwrap => 7
  | .fadd => 8
  | .cas => 9
/-- And back. -/
def atomOfCode : Nat → AtomOp
  | 0 => .add
  | 1 => .and
  | 2 => .or
  | 3 => .xor
  | 4 => .min
  | 5 => .max
  | 6 => .xchg
  | 7 => .incwrap
  | 8 => .fadd
  | _ => .cas
/-- Payload of an ATOMIC request: operation, size, mask of carried bytes, what it is for, whether a
deterministic context sent it, then the carried bytes (06 R106; the layout is the model's, DESIGN CHOICE, log entry 11). -/
def atomPayload (op : AtomOp) (z : ASize) (reduce det : Bool) (carried : List (Option Byte)) : List Byte :=
  let mask := foldL (fun n i => n + if (carried.getD i none).isSome then 2 ^ i else 0) 0 (upTo 8)
  [BitVec.ofNat 8 op.code, if z = .d then 1 else 0, BitVec.ofNat 8 mask, if reduce then 1 else 0,
    if det then 1 else 0, 0, 0, 0] ++ (upTo 8).map fun i => (carried.getD i none).getD 0
/-- An ATOMIC request (17 R383). -/
def State.atomPacket (s : State) (unit : Nat) (a : W64) (op : AtomOp) (z : ASize) (reduce det : Bool)
    (c d : W64) (carried : List (Option Byte)) : Packet :=
  { s.toOwner 5 unit a with
    opnd := d ++ c, data := atomPayload op z reduce det carried }
/-- The request counter addition: payload of kind 2 with the status to write before it. -/
def State.countPacket (s : State) (unit : Nat) (a : W64) (n : W64) (status : W32) : Packet :=
  { s.toOwner 5 unit a with
    opnd := status.setWidth 64 ++ n, data := [0, 1, 0, 2, 0, 0, 0, 0] ++ List.replicate 8 0 }

/-- First location of a leaf's frame. -/
def Leaf.frame (l : Leaf) : Nat := keyPhys (ptePa l.e / l.size * l.size)
/-- One of these migrations holds accesses to the page of a local byte (04 R84, steps 1 to 5). -/
def State.heldIn (s : State) (ms : List Mig) (k : Nat) : Bool :=
  ms.any fun m =>
    match walk s m.ctx ((pageAddr m.page).toNat % 2 ^ 53) with
    | .error _ => false
    | .ok l => l.isLocal && l.mig && decide (l.frame ≤ k) && decide (k < l.frame + l.size)
/-- The core of a group, by its name. -/
def State.coreOfGid (s : State) (gid : Nat) : Option Nat :=
  match s.findGid gid with
  | some g => unitCore g.unit
  | none => none
/-- A byte of a location's line that a core other than one holds narrow-published is on its way with an atomic: what the
line holds is known once the reply is in (05 R106, R114). -/
def State.flyLine (s : State) (core : Option Nat) (k : Nat) : Bool := s.fab.reqs.any fun r =>
  match r.use with
  | .atom gid _ _ ks => ks.any (fun e => e.2 && lineOf e.1 == lineOf k) && (core.isNone || s.coreOfGid gid != core)
  | _ => false
/-- A migration holds accesses to the page of a local byte, or the bytes of its line are on their way. -/
def State.heldKey (s : State) (k : Nat) : Bool := s.heldIn s.own.migs k || s.flyLine none k
/-- The same for a group's access: a section whose closed lock lies in the page is not held (04 R91). -/
def State.heldFor (s : State) (g : Group) (k : Nat) : Bool :=
  s.heldIn (match g.sec with
    | some r => s.own.migs.filter fun m => !onPage m.page r.lock
    | none => s.own.migs) k || s.flyLine (unitCore g.unit) k

end Sys2Proof.Machine
end

