-- ==== Sys2Proof/Machine/Fetch.lean ====
section
/-!
DEFINITION. Fetching instruction words (11 R245, 12 R259, 02 R31 to R33, 04 R76).
-/
namespace Sys2Proof.Machine

/-- What a fetch of one word gives. -/
inductive Fetched
  | word (w : W32)
  | fail (e : Fail)
  /-- The word lies in a line that must be had first (03 R58). -/
  | absent (line : Nat)
  deriving DecidableEq, Repr

/-- The locations of the word at an address. -/
def fetchKeys (s : State) (a : W64) : Except Fail (List Nat) := globKeys s s.who .fetch a 4
/-- Fetch the word at an address (11 R245 checks 1 and 3): translation with execute permission, then
poison, which a DOWN die link on the way gives too (01 R16). -/
def fetchWord (s : State) (a : W64) : Fetched :=
  if a.toNat ≥ 2 ^ 63 then .fail ⟨0x0C, a, 0x8000000000000000⟩
  else
    match fetchKeys s a with
    | .error e => .fail e
    | .ok ks =>
      match s.wantLine s.g ks with
      | some l => .absent l
      | none =>
        if ks.any (s.heldFor s.g) then .absent waitPage
        else if s.anyPsn ks || s.cutAny s.g.unit ks then .fail ⟨0x30, a, 0⟩ else .word (BitVec.ofNat 32 (s.num ks))
/-- A fetch that met a poisoned line of a peer lets the line go (17 R380). -/
def State.dropFetched (s : State) (cause : Nat) (a : W64) : State :=
  if cause ≠ 0x30 then s
  else
    match fetchKeys s a with
    | .ok ks => s.dropLost ks
    | .error _ => s
/-- The flags of a word that is a CLAUSE base word (11 R242, R243); one whose flag numbers are unassigned is a clause header
all the same, and illegal as it executes. -/
def headerFlags (w : W32) : Option (FlagSel × FlagSel) :=
  let sel (n : Nat) : FlagSel := if n < 12 then some (Fin.ofNat 12 n) else none
  if field w.toNat 0 9 = 0x00C then some (sel (field w.toNat 21 4), sel (field w.toNat 25 4)) else none

end Sys2Proof.Machine
end

