-- ==== Sys2Proof/Machine/Operands.lean ====
section
/-!
DEFINITION. The operand forms of the encodings: values, lengths in words, and the registers each form
reads (11 R235 to R241, 13 R278, R279, 14 R303, R304).
-/
namespace Sys2Proof.Machine

/-! ## Uniform operands (12 R254, R265). -/

/-- The second operand of uniform arithmetic; an immediate is sign-extended, or zero-extended under .u. -/
def ucVal (g : Group) (u : Bool) : UC → W64
  | .r1 c => g.sGet c
  | .r3 c => g.sGet c
  | .imm v => if u then v.setWidth 64 else sext64 v
/-- Words of the form. -/
def ucWords : UC → Nat
  | .r1 _ => 1
  | .r3 _ => 3
  | .imm _ => 3
/-- Registers it reads. -/
def ucUses : UC → List Nat
  | .r1 c => [useS c]
  | .r3 c => [useS c]
  | .imm _ => []
/-- Words of an instruction whose extended form is a flag. -/
def extWords (ext : Bool) : Nat := if ext then 3 else 1
/-- Words of a one-word or extended form with a displacement. -/
def dWords : DForm → Nat
  | .one => 1
  | .ext _ _ => 3
/-- The displacement of such a form: 0 in one word (14 R317, R323). -/
def dDisp : DForm → W64
  | .one => 0
  | .ext v _ => sext64 v
/-- The mask of such a form. -/
def dMask : DForm → MReg
  | .one => 0
  | .ext _ m => m

/-! ## Vector operands (13 R278, R279). -/

/-- Words of a vector form. -/
def vWords : VForm → Nat
  | .one => 1
  | .ext _ => 3
/-- The mask a vector form names (11 R238). -/
def vMask : VForm → MReg
  | .one => 0
  | .ext m => m
/-- Width of an element in bits. -/
def zw : Size → Nat
  | .b => 8
  | .h => 16
  | .w => 32
  | .d => 64
/-- Width of a float type. -/
def ftw : FType → Nat
  | .s2 => 32
  | .h4 => 16
  | .b4 => 16
/-- Sub-element e of a register at width w (13 R278). -/
def sub_ (w : Nat) (x : W64) (e : Nat) : Nat := x.toNat / 2 ^ (w * e) % 2 ^ w
/-- Every sub-element. -/
def subs (w : Nat) (x : W64) : List Nat := (upTo (64 / w)).map (sub_ w x)
/-- A register from its sub-elements, the first lowest. -/
def joinNat (w : Nat) : List Nat → Nat
  | [] => 0
  | a :: l => a % 2 ^ w + 2 ^ w * joinNat w l
/-- A register from its sub-elements. -/
def joinSubs (w : Nat) (l : List Nat) : W64 := BitVec.ofNat 64 (joinNat w l)
/-- An integer immediate as one sub-element (13 R279). -/
def immElem (w : Nat) (v : W32) : Nat := ofInt w v.toInt
/-- A register all of whose sub-elements hold one value. -/
def splat (w n : Nat) : W64 := joinSubs w (List.replicate (64 / w) n)
/-- The value of operand C in a thread, read at width w. -/
def vcVal (g : Group) (w : Nat) (t : Nat) : VC → W64
  | .reg c => g.vGet c t
  | .imm v => splat w (immElem w v)
/-- v registers operand C names. -/
def vcRegs : VC → List VReg
  | .reg c => [c]
  | .imm _ => []
/-- XSHF's and XROT's shift (13 R279). -/
def xcVal (g : Group) : XC → Int
  | .reg c => (g.sGet c).toInt
  | .imm v => v.toInt
/-- s registers it reads. -/
def xcUses : XC → List Nat
  | .reg c => [useS c]
  | .imm _ => []
/-- A vector register's numbers, for the stall test. -/
def usesV (l : List VReg) : List Nat := l.map useV

/-! ## Memory operands (11 R241, 14 R303, R304). -/

/-- Bytes of an access. -/
def zBytes : Size → Nat
  | .b => 1
  | .h => 2
  | .w => 4
  | .d => 8
/-- Displacement of a memory access (11 R241). -/
def dispVal (z : Size) : Sys2Proof.Disp → W64
  | .d6 n => BitVec.ofNat 64 (n.val * zBytes z)
  | .lit v => sext64 v
  | .ext v _ => sext64 v
/-- Words of a memory access. -/
def dispWords : Sys2Proof.Disp → Nat
  | .d6 _ => 1
  | .lit _ => 2
  | .ext _ _ => 3
/-- The mask of a memory access. -/
def dispMask : Sys2Proof.Disp → MReg
  | .ext _ m => m
  | _ => 0
/-- v registers of a memory operand. -/
def moRegs : MOpnd → List VReg
  | .u _ _ => []
  | .v a b => [a, b]
/-- Registers a memory operand names. -/
def moUses : MOpnd → List Nat
  | .u a b => [useS a, useS b]
  | .v a b => [useV a, useV b]
/-- The threads of an operand: the whole group once, as thread 0, or each active thread (14 R303). -/
def moThreads (g : Group) (m : MReg) : MOpnd → List Nat
  | .u _ _ => [0]
  | .v _ _ => activeOf (g.govern m)
/-- The instruction is uniform. -/
def moUni : MOpnd → Bool
  | .u _ _ => true
  | .v _ _ => false
/-- The base address in a thread. -/
def moBase (g : Group) (t : Nat) : MOpnd → W64
  | .u _ b => g.sGet b
  | .v _ b => g.vGet b t
/-- The data register's value in a thread. -/
def moData (g : Group) (t : Nat) : MOpnd → W64
  | .u a _ => g.sGet a
  | .v a _ => g.vGet a t
/-- The destination in a thread. -/
def moDest (t : Nat) : MOpnd → Dest
  | .u a _ => .s a.val
  | .v a _ => .v a.val t
/-- The effective address of a memory access in a thread (14 R304). -/
def moEa (g : Group) (z : Size) (o : MOpnd) (d : Sys2Proof.Disp) (t : Nat) : W64 := moBase g t o + dispVal z d

/-- PFG's operand as a memory operand. -/
def poMo : POpnd → MOpnd
  | .u b => .u 0 b
  | .v b => .v 0 b
/-- v registers of PFG's operand. -/
def poRegs : POpnd → List VReg
  | .u _ => []
  | .v b => [b]

/-- An atomic's registers: destination, address, operand and new value, and those its form names. -/
structure AtomRegs where
  uni : Bool
  dest : Nat
  addr : Nat
  opnd : Nat
  new_ : Nat
  named : List Nat
  deriving DecidableEq, Repr
/-- ATOM's registers. -/
def aoRegs : AOpnd → AtomRegs
  | .u a b c => ⟨true, a.val, b.val, c.val, 0, [a.val, b.val, c.val]⟩
  | .v a b c => ⟨false, a.val, b.val, c.val, 0, [a.val, b.val, c.val]⟩
/-- ACAS's registers. -/
def casRegs : CasOpnd → AtomRegs
  | .u a b c d => ⟨true, a.val, b.val, c.val, d.val, [a.val, b.val, c.val, d.val]⟩
  | .v a b c d => ⟨false, a.val, b.val, c.val, d.val, [a.val, b.val, c.val, d.val]⟩
/-- RED's registers. -/
def redRegs : ROpnd → AtomRegs
  | .u b c => ⟨true, 0, b.val, c.val, 0, [b.val, c.val]⟩
  | .v b c => ⟨false, 0, b.val, c.val, 0, [b.val, c.val]⟩
/-- A register of an atomic in a thread. -/
def AtomRegs.val (r : AtomRegs) (g : Group) (n t : Nat) : W64 :=
  if r.uni then g.sGet (Fin.ofNat 64 n) else g.vGet (Fin.ofNat 1024 n) t
/-- The v registers a vector atomic names. -/
def AtomRegs.vregs (r : AtomRegs) : List VReg := r.named.map (Fin.ofNat 1024)
/-- The destination of an atomic in a thread. -/
def AtomRegs.target (r : AtomRegs) (t : Nat) : Dest := if r.uni then .s r.dest else .v r.dest t

/-! ## Parameter words (11 R240). -/

/-- A parameter word after substitution: a marker takes the low 32 bits of its register. -/
def pwVal (g : Group) : PWord → Nat
  | .lit v => v.toNat
  | .sub n => (g.sGet n).toNat % 2 ^ 32
/-- Registers a parameter word reads. -/
def pwUses : PWord → List Nat
  | .lit _ => []
  | .sub n => [useS n]
/-- The four parameter words of a block. -/
def pbWords (p : PBlock) : List PWord := [p.p1, p.p2, p.p3, p.p4]
/-- Registers a parameter block reads. -/
def pbUses (p : PBlock) : List Nat := pwUses p.p1 ++ pwUses p.p2 ++ pwUses p.p3 ++ pwUses p.p4
/-- The four words after substitution. -/
def pbVals (g : Group) (p : PBlock) : List W32 := (pbWords p).map fun x => BitVec.ofNat 32 (pwVal g x)
/-- Every substituted word has bits [31:30] zero. -/
def pbFits (g : Group) (p : PBlock) : Bool := (pbWords p).all fun x => decide (pwVal g x < 2 ^ 30)
/-- A substituted word as a literal one, for the checks it then passes (11 R240). -/
def pwLit (g : Group) (p : PWord) : PWord := .lit (BitVec.ofNat 30 (pwVal g p))
/-- The block with every marker replaced. -/
def pbLit (g : Group) (p : PBlock) : PBlock := ⟨pwLit g p.p1, pwLit g p.p2, pwLit g p.p3, pwLit g p.p4⟩

end Sys2Proof.Machine
end

