-- ==== Sys2Proof/Machine/Flags.lean ====
section
/-!
DEFINITION. Conditions and completion flags (11 R244, R249, 12 R258). The machine has no arithmetic
flags (12 R265, 13 R286).
-/
namespace Sys2Proof.Machine

/-- Integer conditions on two numbers of w bits (11 R249). -/
def condHolds (c : Cond) (w a b : Nat) : Bool :=
  let x := toInt w a
  let y := toInt w b
  match c with
  | .eq => decide (a = b)
  | .ne => decide (a ≠ b)
  | .lt => decide (x < y)
  | .le => decide (x ≤ y)
  | .gt => decide (x > y)
  | .ge => decide (x ≥ y)
  | .ltu => decide (a < b)
  | .leu => decide (a ≤ b)
/-- Mask conditions: x is the mask within the present threads P (11 R249, 12 R258). -/
def mcondHolds (c : MCond) (m P : W32) : Bool :=
  let x := m &&& P
  match c with
  | .any => decide (x ≠ 0)
  | .all => decide (x = P)
  | .none => decide (x = 0)
  | .nall => decide (x ≠ P)

/-- The flag an instruction's F bit selects in its clause (11 R244). -/
def Group.selFlag (g : Group) (f : Bool) : Option Nat := (if f then g.fb else g.fa).map Fin.val
/-- Some flag of a mask is not clear (11 R244). -/
def Group.flagsBusy (g : Group) (mask : BitVec 12) : Bool :=
  (bitsOn 12 mask.toNat).any fun j => g.fGet j != 0
/-- An issue that takes the flag would bring it above 15 (11 R244). -/
def Group.flagFull (g : Group) (f : Option Nat) : Bool :=
  match f with
  | some j => decide (15 ≤ g.fGet j)
  | none => false
/-- Every completion flag is clear. -/
def Group.allClear (g : Group) : Bool := !g.flagsBusy 0xFFF

end Sys2Proof.Machine
end

