-- ==== Sys2Proof/Machine/Quant.lean ====
section
/-!
DEFINITION. Narrow integer formats, scales, dither, frame records and the residue arithmetic of the
matrix arrays (07 R144 to R163).
-/
namespace Sys2Proof.Machine

/-- Width of a code (07 R144). -/
def qBits : Nat → Nat
  | 0 => 4
  | 1 => 6
  | 2 => 8
  | _ => 12
/-- Elements of a group (07 R144). -/
def qGroup : Nat → Nat
  | 0 => 2
  | 1 => 4
  | 2 => 1
  | _ => 2
/-- Bytes of a group (07 R144). -/
def qGroupBytes : Nat → Nat
  | 0 => 1
  | 1 => 3
  | 2 => 1
  | _ => 3
/-- Clamp to a format (07 R147). -/
def qSat (f : Nat) (x : Int) : Int :=
  let h : Int := 2 ^ (qBits f - 1)
  max (-h) (min x (h - 1))
/-- n 2^e to the nearest integer, ties to even (07 R147). -/
def rneInt (n e : Int) : Int :=
  if 0 ≤ e then n * 2 ^ e.toNat
  else
    let d : Int := 2 ^ (-e).toNat
    let q := n / d
    let r := n % d
    if 2 * r > d ∨ (2 * r = d ∧ q % 2 = 1) then q + 1 else q

/-- Bytes that hold element k of a run, from its start (07 R144). -/
def qSpan (f k : Nat) : List Nat := from_ (k / qGroup f * qGroupBytes f) (qGroupBytes f)
/-- Element k of a run whose bytes a function gives (07 R144). -/
def qElem (f : Nat) (get : Nat → Byte) (k : Nat) : Int :=
  let w := leNat ((qSpan f k).map get)
  toInt (qBits f) (w / 2 ^ (qBits f * (k % qGroup f)))
/-- The bytes of some codes, whole groups from a group boundary (07 R144). -/
def qPack (f : Nat) (codes : List Int) : List Byte :=
  let bits := qBits f
  let w := foldL (fun (p : Nat × Nat) c => (p.1 + ofInt bits c * 2 ^ p.2, p.2 + bits)) (0, 0) codes
  leBytes ((w.2 + 7) / 8) w.1
/-- Bytes of a run of n elements. -/
def qRunBytes (f n : Nat) : Nat := n * qBits f / 8

/-- The dither value (07 R148). -/
def dither (key row col : W32) : Int :=
  let h := key ^^^ 0x6A09E667#32
  let h := h ^^^ (row * 0x9E3779B1#32)
  let h := (h.rotateLeft 15) * 0x85EBCA77#32
  let h := h ^^^ (col * 0xC2B2AE3D#32)
  let h := h ^^^ (h >>> 16)
  let h := h * 0x7FEB352D#32
  let h := h ^^^ (h >>> 15)
  (h.extractLsb' 28 4).toInt

/-- quantise(x, s, D, f) with s = 2^(E - 127) (07 R149). -/
def quantise (f : Nat) (E : Nat) (D : Int) (x : Fp) : Int :=
  match x with
  | .nan => 0
  | .inf neg => qSat f (if neg then -4096 else 4096)
  | .num neg m e =>
    let e' : Int := e - E + 127
    let q := min e' (-4)
    qSat f (rneInt (signed_ neg (shl_ m (e' - q)) + D * shl_ 1 (-4 - q)) q)
/-- value(q, s, D, dith) as an integer times a power of two (07 R149). -/
def qValue (q : Int) (E : Nat) (D : Int) (dith : Bool) : Int × Int :=
  if dith then (16 * q - D, (E : Int) - 131) else (q, (E : Int) - 127)
/-- Dequantise one code in a float format (13 R294). -/
def dequantise (t : Fmt) (q : Int) (E : Nat) (D : Int) (dith : Bool) : Nat :=
  if E = 0xFF then t.nanBits
  else
    let v := qValue q E D dith
    t.enc (ofSigned v.1 v.2 false)
/-- A code moved to another frame (07 R158). -/
def reframe (f : Nat) (q Dold Dnew : Int) : Int := qSat f (rneInt (16 * q - Dold + Dnew) (-4))

/-! ## Frame records (07 R150 to R153). A frame is its eight words. -/

/-- Word n of a frame. -/
def frW (fr : List W32) (n : Nat) : Nat := (fr.getD n 0).toNat
/-- FRAME.KEY. -/
def frKey (fr : List W32) : W32 := fr.getD 0 0
/-- FRAME.T. -/
def frT (fr : List W32) : Bool := field (frW fr 1) 0 1 == 1
/-- FRAME.IDX. -/
def frIdx (fr : List W32) : Bool := field (frW fr 1) 1 1 == 1
/-- FRAME.DITH. -/
def frDith (fr : List W32) : Bool := field (frW fr 1) 2 1 == 1
/-- FRAME.FMT. -/
def frFmt (fr : List W32) : Nat := field (frW fr 1) 4 3
/-- FRAME.BLK. -/
def frBlk (fr : List W32) : Nat := field (frW fr 1) 8 2
/-- The block length (07 R146). -/
def frL (fr : List W32) : Nat := 32 * 2 ^ frBlk fr
/-- A 16-bit step, sign-extended to 32 bits. -/
def step16 (w : Nat) : W32 := (BitVec.ofNat 16 w).signExtend 32
/-- FRAME.INDEX. -/
def frIndex (fr : List W32) : Nat := field (frW fr 5) 0 20
/-- FRAME.SCALE. -/
def frScale (fr : List W32) : Nat := field (frW fr 6) 0 20
/-- FRAME.SSTRIDE. -/
def frStride (fr : List W32) : Nat := field (frW fr 7) 0 16
/-- Every reserved field is zero. -/
def frReservedOk (fr : List W32) : Bool :=
  field (frW fr 1) 3 1 == 0 && field (frW fr 1) 7 1 == 0 && field (frW fr 1) 10 22 == 0 &&
  field (frW fr 5) 20 12 == 0 && field (frW fr 6) 20 12 == 0 && field (frW fr 7) 16 16 == 0

/-- Dither coordinates of view element (i, j) (07 R151); `ix` is index[i]. -/
def frCoords (fr : List W32) (ix : W32) (i j : W32) : W32 × W32 :=
  let a := if frIdx fr then ix else fr.getD 2 0 + i * step16 (frW fr 4 % 65536)
  let b := fr.getD 3 0 + j * step16 (frW fr 4 / 65536)
  if frT fr then (b, a) else (a, b)
/-- The dither value of view element (i, j). -/
def frD (fr : List W32) (ix : W32) (i j : W32) : Int :=
  if frDith fr then
    let c := frCoords fr ix i j
    dither (frKey fr) c.1 c.2
  else 0
/-- Core-scratchpad offset of the scale of view element (i, j) (07 R152). -/
def frScaleAt (fr : List W32) (i j : Nat) : Nat := frScale fr + i * frStride fr + j / frL fr

/-- FRAME_INVALID of a reason (07 R153). -/
def frameFail (off : W64) (opnd reason : Nat) : Fail := ⟨0x12, off, BitVec.ofNat 64 (reason + 16 * opnd)⟩
/-- FORMAT_INVALID (07 R153). -/
def formatFail (pc : W64) (code where_ : Nat) : Fail := ⟨0x11, pc, BitVec.ofNat 64 (code + 8 * where_)⟩

/-- Reasons 1 to 3 and the format check. -/
def frameHead (pc : W64) (S : Nat) (off : W64) (opnd : Nat) (fr : List W32) : Except Fail Unit :=
  if off.toNat % 32 ≠ 0 then .error (frameFail off opnd 1)
  else if off.toNat + 32 > S then .error (frameFail off opnd 2)
  else if !frReservedOk fr then .error (frameFail off opnd 3)
  else if frFmt fr > 3 then .error (formatFail pc (frFmt fr) (2 + opnd))
  else .ok ()
/-- Reasons 4 and 5. -/
def frameSame (off : W64) (opnd fmt : Nat) (blk : Option Nat) (fr : List W32) : Except Fail Unit :=
  if frFmt fr ≠ fmt then .error (frameFail off opnd 4)
  else if blk.isSome && blk ≠ some (frBlk fr) then .error (frameFail off opnd 5)
  else .ok ()
/-- Reason 6 fails for a view row. -/
def frameRowBad (S : Nat) (fr : List W32) (i : Nat) : Bool :=
  frIdx fr && (frIndex fr % 4 != 0 || decide (frIndex fr + 4 * i + 4 > S))
/-- Reason 7 fails for a view element. -/
def frameScaleBad (S : Nat) (fr : List W32) (i j : Nat) : Bool := decide (frScaleAt fr i j ≥ S)

/-- The eight words of the frame at an offset of a core's scratchpad. -/
def frameAt (s : State) (core : Nat) (off : Nat) : List W32 :=
  (upTo 8).map fun n => BitVec.ofNat 32 (s.num (span (keyCore core (off + 4 * n)) 4))
/-- index[i] of a frame. -/
def frameIndexAt (s : State) (core : Nat) (fr : List W32) (i : Nat) : W32 :=
  BitVec.ofNat 32 (s.num (span (keyCore core (frIndex fr + 4 * i)) 4))
/-- A scale byte in scratchpad. -/
def frameScaleByte (s : State) (core : Nat) (fr : List W32) (i j : Nat) : Byte :=
  s.byte (keyCore core (frScaleAt fr i j))

/-! ## Residues (07 R159 to R163). -/

/-- The port value of a code (07 R159). -/
def portValue (q D : Int) (dith : Bool) : Int := if dith then 16 * q - D else q
/-- Largest magnitude of a port value (07 R159). -/
def portMax (f : Nat) (dith : Bool) : Nat :=
  let h := 2 ^ (qBits f - 1)
  if dith then 16 * h + 7 else h
/-- The residue bound (07 R161). -/
def residueOk (K fa fb : Nat) (da db : Bool) : Bool :=
  decide (K * portMax fa da * portMax fb db ≤ 4294966271)
/-- The residues modulo 2,047, 2,048 and 2,049 of an integer (07 R160). -/
def residues (P : Int) : Nat × Nat × Nat :=
  ((P % 2047).toNat, (P % 2048).toNat, (P % 2049).toNat)
/-- Mixed-radix reconstruction (07 R162). -/
def crt (r1 r2 r3 : Nat) : Int :=
  let x1 : Int := r1
  let x2 : Int := (x1 - r2) % 2048
  let x3 : Int := ((r3 - x1 - 2047 * x2) * 1025) % 2049
  let U : Int := x1 + 2047 * x2 + 4192256 * x3
  if U ≤ 4294966271 then U else U - 8589932544
/-- Residues as the residue tile packs them: 11, 11 and 12 bits (10 R228). -/
def packRes (r : Nat × Nat × Nat) : W64 := BitVec.ofNat 64 (r.1 + 2 ^ 11 * r.2.1 + 2 ^ 22 * r.2.2)
/-- And back. -/
def unpackRes (w : W64) : Nat × Nat × Nat :=
  (field w.toNat 0 11, field w.toNat 11 11, field w.toNat 22 12)
/-- Add a product to some residues. -/
def accRes (r : Nat × Nat × Nat) (a b : Int) : Nat × Nat × Nat :=
  (((r.1 : Int) + a % 2047 * (b % 2047)) % 2047 |>.toNat,
   ((r.2.1 : Int) + a % 2048 * (b % 2048)) % 2048 |>.toNat,
   ((r.2.2 : Int) + a % 2049 * (b % 2049)) % 2049 |>.toNat)

/-- One accumulator update (07 R163): mode 0 accumulates, 1 overwrites, 2 accumulates negated. -/
def accUpdate (mode : Nat) (acc : W32) (P : Int) (ea eb ndith : Nat) : W32 :=
  let x : Int := (ea : Int) + eb - 254 - 4 * ndith
  let term := ofSigned P x false
  if ea = 0xFF ∨ eb = 0xFF then 0x7FC00000
  else if mode = 1 then BitVec.ofNat 32 (fp32.enc term)
  else
    let a := fp32.dec acc.toNat
    match a with
    | .nan => 0x7FC00000
    | .inf _ => acc
    | .num .. =>
      if P = 0 then acc
      else BitVec.ofNat 32 (fp32.enc (a.add (if mode = 0 then term else term.neg)))

end Sys2Proof.Machine
end

