-- ==== Sys2Proof/Machine/Home.lean ====
section
/-!
DEFINITION. Updates applied at their homes: atomics, barrier updates, counter additions (03 R65, R67,
R457, 05 R106, R116, 14 R313, R314, R319, R320, 16 R352, R458, 18 R405).
-/
namespace Sys2Proof.Machine

/-- Bytes of an atomic. -/
def asizeBytes : ASize → Nat
  | .w => 4
  | .d => 8
/-- The new value of an atomic; none when nothing is written (14 R313). -/
def rmwNew (op : AtomOp) (z : ASize) (old c d : Nat) : Option Nat :=
  let w := 8 * asizeBytes z
  match op with
  | .add => some ((old + c) % 2 ^ w)
  | .and => some (old &&& c)
  | .or => some (old ||| c)
  | .xor => some (old ^^^ c)
  | .min => some (if toInt w old ≤ toInt w c then old else c)
  | .max => some (if toInt w old ≤ toInt w c then c else old)
  | .xchg => some c
  | .incwrap => some (if c ≤ old then 0 else old + 1)
  | .fadd => some (fadd32 old c)
  | .cas => if old = c then some d else none

/-- A poisoned value. -/
def Pend.bad (w : Dest × Option (W64 × Bool)) : Bool :=
  match w.2 with
  | some (_, b) => b
  | none => false
/-- The lowest thread whose value of a result was poisoned; 0xFF for an s register. -/
def Pend.psnThread (p : Pend) : Nat :=
  match findFirst Pend.bad p.writes with
  | some (.v _ t, _) => t
  | _ => 0xFF
/-- The threads whose values were poisoned. -/
def Pend.psnThreads (p : Pend) : List Nat :=
  (p.writes.filter Pend.bad).filterMap fun w => match w.1 with
    | .v _ t => some t
    | .s _ => none
/-- Fill one destination of a result; a poisoned value marks it, and the result's address is then that of the lowest such
thread (10 R460). -/
def Pend.fill (p : Pend) (d : Dest) (v : W64) (psn : Bool) (a : W64) : Pend :=
  let set_ (w : Dest × Option (W64 × Bool)) : Dest × Option (W64 × Bool) :=
    if decide (w.1 = d) && w.2.isNone then (w.1, some (v, psn)) else w
  let q : Pend := { p with writes := p.writes.map set_ }
  if psn && decide ((findFirst Pend.bad q.writes).map (·.1) = some d) then { q with addr := a } else q
/-- Fill one destination of a pending result. -/
def Group.fill (g : Group) (pend : Nat) (d : Dest) (v : W64) (psn : Bool) (a : W64) : Group :=
  { g with pend := modFirst (fun p => p.id == pend) (fun p => p.fill d v psn a) g.pend }
/-- A cluster claim has its number, and its place among the deliveries: in the order of the fetch-and-adds. One that read
poison gives its place up (08 R191). -/
def State.claimFill (s : State) (gid pend : Nat) (v : W64) (psn : Bool) : State :=
  match findFirst (fun d : Delivery => d.gid == gid && d.pend == pend && d.val.isNone) s.disp.deliveries with
  | none => s
  | some d =>
    let rest := dropFirst (fun x => decide (x = d)) s.disp.deliveries
    { s with disp := { s.disp with deliveries := if psn then rest else rest ++ [{ d with val := some v }] } }
/-- A value for a destination of a group's pending result. -/
def State.fillPend (s : State) (gid pend : Nat) (d : Dest) (v : W64) (psn : Bool) (a : W64) : State :=
  (s.claimFill gid pend v psn).modEver gid fun g => g.fill pend d v psn a
/-- Fill the destination that an update's result goes to, if it has one. -/
def State.fillFor (s : State) (h : HomeOp) (v : W64) (psn : Bool) : State :=
  match h.pend, h.dest with
  | some p, some d => s.fillPend h.gid p d v psn h.addr
  | _, _ => s

/-- A byte that travels with an atomic: the group's private one, else its core's narrow-published one
(05 R106). -/
def State.carriedByte (s : State) (gid k : Nat) : Held :=
  match s.findGid gid with
  | none => none
  | some g =>
    match g.own k with
    | some b => some b
    | none =>
      match unitCore g.unit with
      | some c => tblGet none (s.core c).narrow k
      | none => none
/-- Some of these bytes are narrow-published on the group's core. -/
def State.carriesNarrow (s : State) (gid : Nat) (ks : List Nat) : Bool :=
  match s.coreOfGid gid with
  | some c => ks.any fun k => (tblGet none (s.core c).narrow k).isSome
  | none => false
/-- Before an atomic: the other narrow holders of its lines publish (05 R114), and where it carries narrow-published bytes,
what else the core holds narrow-published is published too, for it was released with them (05 R100, R112). -/
def State.carryAlone (s : State) (gid : Nat) (ks : List Nat) : State :=
  let s := s.widen (s.coreOfGid gid) ks
  match s.coreOfGid gid with
  | some c => if s.carriesNarrow gid ks then s.forceBut c ks else s
  | none => s
/-- The bytes that travel with an update: the private ones it took along, else its core's narrow-published ones (05 R106). -/
def State.carriedBy (s : State) (h : HomeOp) (k : Nat) : Held :=
  match tblGet none h.own k with
  | some b => some b
  | none =>
    match s.coreOfGid h.gid with
    | some c => tblGet none (s.core c).narrow k
    | none => none
/-- Narrow-published bytes of a core are at their homes; the core's copy of their line is let go, for it stands below
them. -/
def State.dropNarrow (s : State) (c : Nat) (ks : List Nat) : State :=
  (s.modCore c fun x => (x.keepNarrow fun k => !ks.contains k).dropL1 (linesOf ks)).dropHolder c
/-- The private bytes of an update that wrote nothing are the group's again, but where it has stored since (05 R106). -/
def Group.giveBack (own : List (Nat × Held)) (g : Group) : Group :=
  { g with priv := foldL (fun t e => if (tblGet none t e.1).isSome then t else tblSet none t e.1 e.2) g.priv own }
/-- Take the group's private bytes among some locations. -/
def Group.takeOwn (g : Group) (ks : List Nat) : Group × List (Nat × Held) :=
  let mine := g.allPriv.filter fun e => ks.contains e.1
  if mine.isEmpty then (g, [])
  else
    let drop (t : List (Nat × Held)) : List (Nat × Held) := t.filter fun e => !ks.contains e.1
    ({ g with priv := drop g.priv, fences := g.fences.map fun f => { f with cover := drop f.cover } }, mine)

/-- The atomic would read poisoned bytes, its carried bytes taken into account (05 R106). -/
def State.rmwPoisoned (s : State) (ks : List Nat) (carried : List Held) : Bool :=
  let all := ks.length == 8 && carried.all fun h => h.isSome
  carried.any (fun h => match h with
    | some (_, p) => p
    | none => false) || (s.anyPsn ks && !all)

/-- The path of a group to some locations is cut (01 R16). -/
def State.cutFor (s : State) (gid : Nat) (ks : List Nat) : Bool :=
  match s.findGid gid with
  | some g => s.cutAny g.unit ks
  | none => false
/-- The slice or bank that a location's home is, as error records name it (18 R407). The spec gives the numbers of slices on a
die, and none to banks (DESIGN CHOICE, log entry 73). -/
def instOf (k : Nat) : Nat :=
  if k < regionBase 1 then homeSlice k else if isPeerKey k then peerSlice (k - regionBase 5) % 16 else 0

/-- The bank of a location (03 R47). The spec gives the banks of the other unmanaged spaces no layout: each aligned
word there is a bank of its own (DESIGN CHOICE, log entry 54). -/
def bankOf (k : Nat) : Nat :=
  if k < regionBase 2 ∨ regionBase 3 ≤ k then k / 8
  else regionBase 2 + (k - regionBase 2) / 2 ^ 20 * 384 + k % 2 ^ 20 / 8 % 384
/-! ## Replay filters of updates that cross a die link (06 R130). -/

/-- The ALU of a location: its slice's, or its bank's. -/
def aluOf (k : Nat) : Nat := if k < regionBase 1 then homeDie k * 16 + homeSlice k else 1024 + bankOf k
/-- The die of the unit that a tag names; the Stoker and the host link stand on die 0 (01 R6). -/
def State.tagDie (s : State) (tag : W64) : Nat :=
  let u := field tag.toNat 0 16
  if hwUnit ≤ u then 0 else if u < 32768 then s.sys.fuse.dieOf (u / 32) else s.sys.fuse.damperDie ((u - 32768) / 4)
/-- A tagged update of this device crosses a die link on its way to a location of it. -/
def State.crosses (s : State) (tag : W64) (k : Nat) : Bool :=
  decide (tag ≠ 0) && field tag.toNat 48 10 == s.myId && !isPeerKey k && s.tagDie tag != dieOfKey s k
/-- The filter of an ALU is full. -/
def State.filterFull (s : State) (alu : Nat) : Bool :=
  decide (1024 ≤ (s.fab.filter.filter fun e => e.alu == alu).length)
/-- A filter keeps a tag with its result. -/
def State.filterAdd (s : State) (alu : Nat) (t v : W64) (psn : Bool) : State :=
  { s with fab := { s.fab with filter := s.fab.filter ++ [{ alu := alu, tag := t, val := v, psn := psn }] } }
/-- A filter keeps the tag of an update that crossed a die link. -/
def State.filterOwn (s : State) (tag : W64) (k : Nat) (v : W64) (psn : Bool) : State :=
  if s.crosses tag k then s.filterAdd (aluOf k) tag v psn else s
/-- A source tag of this device: the unit, the next sequence number, the device (06 R130). -/
def State.nextTag (s : State) (unit : Nat) : W64 :=
  BitVec.ofNat 64 (unit % 2 ^ 16 + 2 ^ 16 * s.fab.seqn.toNat + 2 ^ 48 * s.myId)
/-- The number has been taken. -/
def State.tagged (s : State) : State := { s with fab := { s.fab with seqn := s.fab.seqn + 1 } }
/-- The source acknowledges the reply of an update within the device: its oldest such tag leaves (06 R130). -/
def State.ackOwn (s : State) : State :=
  { s with fab := { s.fab with filter := dropFirst (fun e => field e.tag.toNat 48 10 == s.myId) s.fab.filter } }

/-! ## Atomics. -/

/-- Send an atomic to its page's owner, with the bytes it carries; they stay here until the reply (05 R106, R116). -/
def State.sendRmw (s : State) (h : HomeOp) (op : AtomOp) (z : ASize) (c d : W64) (ks : List Nat) (carried : List Held) :
    State :=
  let bad := carried.any fun x => match x with
    | some (_, p) => p
    | none => false
  let keys := (ks.zip carried).filterMap fun e =>
    if e.2.isSome then some (e.1, (tblGet none h.own e.1).isNone) else none
  let q := s.atomPacket (field h.tag.toNat 0 16) h.addr op z h.red h.det c d (carried.map fun x => x.map (·.1))
  s.request { q with psn := if bad then 1 else 0 } (.atom h.gid (h.pend.getD 0) h.dest keys)
/-- The group's clock rises to a stamp; a deterministic group's does not (06 R133). -/
def State.hasSeen (s : State) (gid st : Nat) : State :=
  s.modGid gid fun g => if g.det.isSome then g else { g with gts := Nat.max g.gts st }
/-- An atomic on bytes of this device: the carried bytes and the operation in one step (05 R106, R116). -/
def State.applyRmw (s : State) (h : HomeOp) (op : AtomOp) (z : ASize) (c d : W64) (ks : List Nat) (carried : List Held) :
    State :=
  let n := asizeBytes z
  let bs := (ks.zip carried).map fun e => match e.2 with
    | some (b, _) => b
    | none => s.byte e.1
  let old := leNat bs
  let new := rmwNew op z old (c.toNat % 2 ^ (8 * n)) (d.toNat % 2 ^ (8 * n))
  let out := match new with
    | some v => leBytes n v
    | none => bs
  let some_ := carried.any fun x => x.isSome
  let s :=
    if h.place.glob then
      if new.isSome || some_ then
        let gts := match s.findGid h.gid with
          | some g => g.gts
          | none => 0
        let s := match s.coreOfGid h.gid with
          | some c => if s.carriesNarrow h.gid ks then s.dropNarrow c ks else s
          | none => s
        let r := s.writeHome false (cellsOf ks out) gts
        r.1.hasSeen h.gid r.2
      else s.hasSeen h.gid (s.wtsOf (lineOf h.place.key))
    else if new.isSome then s.writeClean (cellsOf ks out) else s
  (s.filterOwn h.tag h.place.key (BitVec.ofNat 64 old) false).fillFor h (BitVec.ofNat 64 old) false
/-- An atomic at its home, or on its way to it (05 R106, R116, 14 R313, R314). -/
def State.performRmw (s : State) (h : HomeOp) (op : AtomOp) (z : ASize) (c d : W64) : State :=
  let ks := span h.place.key (asizeBytes z)
  let s := if h.place.glob then s.carryAlone h.gid ks else s
  let carried := if h.place.glob then ks.map (s.carriedBy h) else ks.map fun _ => none
  if s.cutFor h.gid ks then
    let s := (s.modEver h.gid (Group.giveBack h.own)).fillFor h 0 (!h.red)
    if h.red then s.lostWrite (s.tagDie h.tag) h.place.key h.addr else s
  else if isPeerKey h.place.key then s.sendRmw h op z c d ks carried
  else if s.rmwPoisoned ks carried then
    let s := ((s.filterOwn h.tag h.place.key 0 true).modEver h.gid (Group.giveBack h.own)).fillFor h 0 (!h.red)
    if h.red then s.uncorrectable 6 (dieOfKey s h.place.key) (instOf h.place.key) h.addr h.tag else s
  else s.applyRmw h op z c d ks carried

/-! ## Barrier objects (03 R64 to R66, R457). -/

/-- A barrier object's sixteen bytes as one number. -/
def State.barNum (s : State) (k : Nat) : Nat := s.num (span k 16)
/-- Some word of the object is poisoned. -/
def State.barPsn (s : State) (k : Nat) : Bool := s.anyPsn (span k 16)
/-- The fields of a barrier (03 R64). -/
structure Bar where
  expect : Nat
  pend : Nat
  bytes : Nat
  adj : Nat
  round : Bool
  posted : Bool
  overrun : Bool
  error : Bool
  auto : Bool
  /-- Reserved bits, kept as they are. -/
  rsv : Nat
  ecode : Nat
  rsv2 : Nat
  deriving DecidableEq, Repr
/-- Read an object. -/
def barOf (n : Nat) : Bar :=
  let bit (k : Nat) : Bool := n / 2 ^ k % 2 == 1
  { expect := field n 0 16, pend := field n 16 16, bytes := field n 32 32, adj := field n 64 16,
    round := bit 80, posted := bit 81, overrun := bit 82, error := bit 83, auto := bit 84,
    rsv := field n 85 11, ecode := field n 96 16, rsv2 := field n 112 16 }
/-- The object's number. -/
def Bar.num (b : Bar) : Nat :=
  let bit (k : Nat) (x : Bool) : Nat := if x then 2 ^ k else 0
  b.expect + 2 ^ 16 * b.pend + 2 ^ 32 * b.bytes + 2 ^ 64 * b.adj + bit 80 b.round + bit 81 b.posted +
  bit 82 b.overrun + bit 83 b.error + bit 84 b.auto + 2 ^ 85 * b.rsv + 2 ^ 96 * b.ecode + 2 ^ 112 * b.rsv2
/-- The flip, where its condition holds on what an update leaves (03 R65). -/
def Bar.flip (b : Bar) : Bar :=
  if b.posted && b.pend == 0 && b.bytes == 0 && !b.overrun then
    let e := (b.expect + b.adj) % 65536
    { b with round := !b.round, expect := e, adj := 0, pend := e, posted := b.auto }
  else b
/-- An arrival (03 R65, 14 R319). -/
def Bar.arrive (b : Bar) (k : ArrKind) : Bar :=
  let b := if b.pend = 0 then { b with overrun := true } else { b with pend := b.pend - 1 }
  match k with
  | .plain => b.flip
  | .drop => { b with adj := (b.adj + 65535) % 65536 }.flip
  | .join => { b with adj := (b.adj + 1) % 65536 }.flip
/-- BAREXP (14 R320). -/
def Bar.post (b : Bar) (n : W32) : Bar :=
  { b with bytes := (b.bytes + n.toNat) % 2 ^ 32, posted := true }.flip
/-- An engine's bytes, with an arrival, and its failure code (03 R65, 16 R352). -/
def Bar.count (b : Bar) (n : Nat) (arv : Bool) (code : BitVec 16) : Bar :=
  let b := { b with bytes := (b.bytes + 2 ^ 32 - n % 2 ^ 32) % 2 ^ 32 }
  let b := if !arv then b
    else if b.pend = 0 then { b with overrun := true } else { b with pend := b.pend - 1 }
  let b := if code = 0 then b
    else if b.error then b else { b with error := true, ecode := code.toNat }
  b.flip
/-- Store an object. -/
def State.setBar (s : State) (k : Nat) (b : Bar) : State :=
  s.putBytes (cellsOf (span k 16) (leBytes 16 b.num))
/-- BSTAT for a tag (14 R321). -/
def Bar.status (b : Bar) (p : Bool) : W64 :=
  let bit (k : Nat) (x : Bool) : Nat := if x then 2 ^ k else 0
  BitVec.ofNat 64 (bit 0 (b.round != p) + bit 1 b.overrun + bit 2 b.error + bit 3 b.posted + bit 4 b.round +
    2 ^ 16 * b.ecode)
/-- A barrier update: dropped, with a record, when the object is poisoned (03 R457). -/
def State.barUpdate (s : State) (h : HomeOp) (f : Bar → Bar) : State :=
  let k := h.place.key
  if s.cutFor h.gid [k] then
    (s.fillFor h 0 false).lostWrite (s.tagDie h.tag) k h.addr
  else if s.barPsn k then
    ((s.filterOwn h.tag k 0 true).fillFor h 0 false).uncorrectable 6 (dieOfKey s k) (instOf k) h.addr h.tag
  else
    let b := barOf (s.barNum k)
    let v : W64 := if b.round then 1 else 0
    ((s.setBar k (f b)).filterOwn h.tag k v false).fillFor h v false

/-! ## Counters (03 R67, R68). -/

/-- A counter's cells after a status and an addition: the status first, then VALUE (03 R67, R68). -/
def cntCells (ks : List Nat) (old : Nat) (n : W64) (status : W32) : List (Nat × Byte) :=
  let value := (field old 0 64 + n.toNat) % 2 ^ 64
  let st := field old 64 32
  let nerr := field old 96 32
  let st' := if status = 0 ∨ st ≠ 0 then st else status.toNat
  let nerr' := if status = 0 ∨ st = 0 then nerr else if nerr = 2 ^ 32 - 1 then nerr else nerr + 1
  let hi := if status = 0 then [] else cellsOf (ks.drop 8) (leBytes 8 (st' + 2 ^ 32 * nerr'))
  hi ++ cellsOf (ks.take 8) (leBytes 8 value)
/-- An addition to a counter at its home. A poisoned VALUE is not changed, as for any atomic (18 R405);
it is reported. A word with STATUS and NERR that is poisoned while VALUE is clean is read as it stands and written whole,
which clears its mark. (DEDUCED, log entry 12.) -/
def State.cntAddAt (s : State) (ks : List Nat) (glob : Bool) (n : W64) (status : W32) (addr tag : W64) :
    State :=
  let s := if glob then s.widen none ks else s
  let k := ks.headD 0
  if s.anyPsn (ks.take 8) then (s.filterOwn tag k 0 true).uncorrectable 6 (dieOfKey s k) (instOf k) addr tag
  else
    let cells := cntCells ks (s.num ks) n status
    let v := BitVec.ofNat 64 (s.num (ks.take 8))
    (if glob then (s.writeHome false cells 0).1 else s.writeClean cells).filterOwn tag k v false
/-- The hardware as the party of the accesses it makes for a context. -/
def hwWho (ctx : Nat) : Who :=
  { sec := true, core := 0, clus := 0x7F, team := 0xFFF, ctx := ctx, W := 0, gid := 0 }
/-- A counter addition at its home, or on its way to the page's owner (16 R458, 17 R383). -/
def State.performCount (s : State) (h : HomeOp) (n : W64) (status : W32) : State :=
  if isPeerKey h.place.key then s.request (s.countPacket (field h.tag.toNat 0 16) h.addr n status) (.count h.op)
  else if !s.sys.allUp && decide (h.tag ≠ 0) && s.cutFrom (s.tagDie h.tag) h.place.key then
    s.lostWrite (s.tagDie h.tag) h.place.key h.addr
  else s.cntAddAt (span h.place.key 16) h.place.glob n status h.addr h.tag

/-! ## Updates in order at their homes (05 R97, R103, R116). -/

/-- Apply an update at its home. -/
def State.performHome (s : State) (h : HomeOp) : State :=
  match h.act with
  | .rmw op z c d => s.performRmw h op z c d
  | .arrive k => s.barUpdate h fun b => b.arrive k
  | .expect n => s.barUpdate h fun b => b.post n
  | .bytes n arv code => s.barUpdate h fun b => b.count n arv code
  | .count n status => s.performCount h n status
  | .store n data => s.writeClean (cellsOf (span h.place.key n) (leBytes n data.toNat))
/-- Bytes an update touches. -/
def HomeOp.keys (h : HomeOp) : List Nat :=
  match h.act with
  | .rmw _ z _ _ => span h.place.key (asizeBytes z)
  | .store n _ => span h.place.key n
  | _ => span h.place.key 16
/-- Some of these results of a group have not arrived. -/
def State.gated (s : State) (gid : Nat) (after : List Nat) : Bool :=
  !after.isEmpty && s.everyGroup.any fun g =>
    g.gid == gid && g.pend.any fun p => after.contains p.id && !p.ready
/-- Results of loads and atomics that a write of the group may not go before (05 R97). -/
def Group.unread (g : Group) : List Nat := (g.pend.filter fun p => !p.ready && !p.sect).map (·.id)
/-- Bytes that travel with an atomic whose reply is not in. -/
def State.carriedOut (s : State) (ks : List Nat) : Bool := s.fab.reqs.any fun r =>
  match r.use with
  | .atom _ _ _ l => l.any fun e => ks.contains e.1
  | _ => false
/-- A peer's line with bytes published here and not held exclusively: its owner does not have them yet. -/
def State.dirtyShared (s : State) (ks : List Nat) : Option Nat :=
  (findFirst (fun k => s.own.openLine (lineOf k)) ks).map fun k => lineOf (k - regionBase 5)
/-- What an update still waits for: nothing, something that comes by itself, or a line to be asked for. -/
inductive HomeWait | go | stay | want (line : Nat)
  deriving DecidableEq, Repr
/-- What an update waits for at its home: earlier results of its group, room in a replay filter, a page that migrates, bytes
on their way, a line that a peer holds (03 R58, 04 R84, 05 R97, 06 R126, R130). -/
def State.homeWait (s : State) (h : HomeOp) : HomeWait :=
  let ks := h.keys
  if s.gated h.gid h.after || (s.crosses h.tag h.place.key && s.filterFull (aluOf h.place.key)) then .stay
  else if !h.place.glob then .go
  else if ks.any (s.heldFor ((s.findGid h.gid).getD Group.empty)) || s.carriedOut ks then .stay
  else
    match (if isPeerKey h.place.key then s.dirtyShared ks else s.wantWrite ks) with
    | some l => .want l
    | none => .go
/-- Apply an update if it may be applied now; whether it was. Narrow-published bytes travel only once what was published with
them is with its owners (06 R127). -/
def State.tryHome (s : State) (h : HomeOp) : State × Bool :=
  match s.homeWait h with
  | .stay => (s, false)
  | .want l => (s.getLine (field h.tag.toNat 0 16) l true, false)
  | .go =>
    if h.place.glob && s.carriesNarrow h.gid h.keys then
      let s := (s.carryAlone h.gid h.keys).flushInvals
      match s.fabWants with
      | some l => (s.getLine (field h.tag.toNat 0 16) l true, false)
      | none => (s.performHome h, true)
    else (s.performHome h, true)
/-- Apply several in order; those that must wait, and those behind them at their bytes, are given back. -/
def State.performHomes (s : State) (stuck : List HomeOp) : List HomeOp → State × List HomeOp
  | [] => (s, stuck)
  | h :: r =>
    if stuck.any fun x => x.keys.any h.keys.contains then s.performHomes (stuck ++ [h]) r
    else
      let x := s.tryHome h
      if x.2 then x.1.performHomes stuck r else x.1.performHomes (stuck ++ [h]) r
/-- The updates that satisfy a test with the earlier ones at their bytes, the others, and the bytes of the former. -/
def splitNeed (p : HomeOp → Bool) : List HomeOp → List HomeOp × List HomeOp × List Nat
  | [] => ([], [], [])
  | h :: r =>
    let x := splitNeed p r
    if p h || h.keys.any x.2.2.contains then (h :: x.1, x.2.1, h.keys ++ x.2.2) else (x.1, h :: x.2.1, x.2.2)
/-- Apply the updates that satisfy a test, and those before them at their bytes, in order. -/
def State.drainHome (s : State) (p : HomeOp → Bool) : State :=
  if s.homeQ.any p then
    let x := splitNeed p s.homeQ
    let r := ({ s with homeQ := x.2.1 }).performHomes [] x.1
    { r.1 with homeQ := r.2 ++ r.1.homeQ }
  else s
/-- Updates that touch some bytes reach their homes before a later access does (05 R97). -/
def State.settle (s : State) (ks : List Nat) : State :=
  s.drainHome fun h => h.keys.any ks.contains
/-- An update that touches some of these bytes has not been performed. -/
def State.unsettled (s : State) (ks : List Nat) : Bool := s.homeQ.any fun h => h.keys.any ks.contains
/-- Queue an update, and apply it if it may be applied now. -/
def State.homeNow (s : State) (h : HomeOp) : State :=
  ({ s with homeQ := s.homeQ ++ [h] }).settle h.keys
/-- A completion addition: its permissions are checked now; a counter whose page a peer owns gets it
over the fabric (16 R458, 17 R383). One whose page migrates, or whose line a peer holds, waits (04 R84, 06
R126). -/
def State.cntComplete (s : State) (ctx unit op : Nat) (a : W64) (n : W64) (status : W32) : State :=
  match cntAcc s (hwWho ctx) .cntAdd a with
  | .error _ => s.errorRecord 16 3 (s.tagDie (s.nextTag unit)) 0 a (s.nextTag unit) 1
  | .ok acc =>
    s.tagged.homeNow { act := .count n status, place := acc.place, addr := a, ctx := ctx, tag := s.nextTag unit, op := op }

/-! ## A core's ports (05 R103). -/

/-- The banks of an accepted access. -/
def BankAcc.banks (a : BankAcc) : List Nat := a.keys.map bankOf
/-- An accepted access may perform at its banks. -/
def State.bankReady (s : State) (a : BankAcc) : Bool :=
  match a.op with
  | some h => decide (s.homeWait h = .go)
  | none => !s.gated a.gid a.after
/-- An accepted access performs (05 R103). -/
def State.performBank (s : State) (a : BankAcc) : State :=
  match a.op, a.load with
  | some h, _ => s.performHome h
  | none, some (p, d) =>
    let got := a.keys.map s.atHome
    s.modEver a.gid fun g => g.fill p d (BitVec.ofNat 64 (gotNum got)) (gotPsn got || s.cutFor a.gid a.keys) a.data
  | none, none => s.writeClean (cellsOf a.keys (leBytes a.keys.length a.data.toNat))
/-- Pass accesses to their banks in order; those that must wait, and those behind them at a bank, are given back. -/
def State.runBanks (s : State) (stuck : List BankAcc) : List BankAcc → State × List BankAcc
  | [] => (s, stuck)
  | a :: r =>
    if (stuck.any fun b => b.banks.any a.banks.contains) || !s.bankReady a then s.runBanks (stuck ++ [a]) r
    else (s.performBank a).runBanks stuck r
/-- Accepted accesses that must perform before an access to some banks, those that need not, and the banks of the
former and the access together: to each bank the port's order holds (05 R103). -/
def splitBanks : List BankAcc → List Nat → List BankAcc × List BankAcc × List Nat
  | [], need => ([], [], need)
  | a :: r, need =>
    let x := splitBanks r need
    if a.banks.any x.2.2.contains then (a :: x.1, x.2.1, a.banks ++ x.2.2) else (x.1, a :: x.2.1, x.2.2)
/-- Accepted accesses that may perform now: no earlier one shares a bank. With each, the port's queue without it;
`before` holds what stands before. -/
def State.bankHeads (s : State) (before : List BankAcc) : List BankAcc → List (BankAcc × List BankAcc)
  | [] => []
  | a :: r =>
    let rest := s.bankHeads (before ++ [a]) r
    if (before.any fun b => b.banks.any a.banks.contains) || !s.bankReady a then rest else (a, before ++ r) :: rest
/-- Pass some accesses of a core's port to their banks; the others stay. -/
def State.passBanks (s : State) (c : Nat) (now later : List BankAcc) : State :=
  if now.isEmpty then s
  else
    let r := (s.modCore c fun x => { x with bankQ := later }).runBanks [] now
    r.1.modCore c fun x => { x with bankQ := r.2 ++ later }
/-- Drain a core's ports, as far as their accesses may perform. -/
def State.drainBanks (s : State) (c : Nat) : State := s.passBanks c (s.core c).bankQ []
/-- What a core's port passes to its banks before an access to some locations (05 R97, R103). -/
def State.drainShared (s : State) (c : Nat) (ks : List Nat) : State :=
  let r := splitBanks (s.core c).bankQ (ks.map bankOf)
  s.passBanks c r.1 r.2.1
/-- The same for the current group. -/
def State.drainBefore (s : State) (ks : List Nat) : State :=
  match s.g.unit with
  | .core c _ => s.drainShared c ks
  | .damper _ _ => s
/-- An access that the core's port has accepted stands before one to some locations. -/
def State.bankBusy (s : State) (ks : List Nat) : Bool :=
  match s.g.unit with
  | .core c _ => (s.core c).bankQ.any fun a => a.banks.any (ks.map bankOf).contains
  | .damper _ _ => s.unsettled ks
/-- Drain the ports of the current group's core. -/
def State.drainOwn (s : State) : State :=
  match s.g.unit with
  | .core c _ => s.drainBanks c
  | .damper _ _ => s
/-- An update of the current group's: to a core's port where its home is a bank, else on its way. -/
def State.queueOp (s : State) (h : HomeOp) : State :=
  match s.g.unit with
  | .core c _ =>
    if h.place.glob then { s with homeQ := s.homeQ ++ [h] }
    else s.modCore c fun x => { x with bankQ := x.bankQ ++ [{ keys := h.keys, data := 0, gid := s.g.gid, op := some h }] }
  | .damper _ _ => { s with homeQ := s.homeQ ++ [h] }
/-- Accept an unmanaged store: at a core's port, or at once on a Damper where nothing stands before it. -/
def State.storeBank (s : State) (ks : List Nat) (data : W64) : State :=
  let after := s.g.unread
  match s.g.unit with
  | .core c _ =>
    s.modCore c fun x =>
      { x with bankQ := x.bankQ ++ [{ keys := ks, data := data, gid := s.g.gid, after := after }] }
  | .damper _ _ =>
    s.homeNow { act := .store ks.length data, place := ⟨false, ks.headD 0⟩, addr := 0, ctx := s.g.ctx, gid := s.g.gid
                after := after }
/-- An unmanaged load by the current group, nothing standing before it (05 R103). -/
def State.loadBank (s : State) (ks : List Nat) : State × List Got :=
  let s := s.drainBefore ks
  (s, ks.map s.atHome)
/-- Every update of a group reaches its home or bank, as far as it may: a release waits for them (05 R104). -/
def State.settleGroup (s : State) (gid : Nat) : State :=
  let s := s.drainHome fun h => h.gid == gid
  match s.coreOfGid gid with
  | none => s
  | some c =>
    let mine (a : BankAcc) : Bool := a.gid == gid && (a.op.isSome || a.load.isSome)
    if (s.core c).bankQ.any mine then s.drainShared c (((s.core c).bankQ.filter mine).flatMap (·.keys))
    else s
/-- An update of a group has not been performed. -/
def State.opsOut (s : State) (gid : Nat) : Bool :=
  s.homeQ.any (fun h => h.gid == gid) || s.cores.any fun e => e.2.bankQ.any fun a => a.gid == gid && a.op.isSome

/-- Bytes of a load whose path crosses a DOWN die link; what the group, its core or its L1 holds crosses none (01 R16). -/
def State.cutBytes (s : State) (a : Acc) : List Nat :=
  if s.sys.allUp then []
  else a.keys.filter fun k => s.cutTo s.g.unit k && (!a.glob ||
    ((s.nearBy k).isNone && (match s.g.unit with
      | .core c _ => s.g.det.isSome || ((s.core c).hit (lineOf k) s.g.gts).isNone
      | .damper _ _ => true)))
/-- A load by the current group of the bytes of an access. -/
def State.load (s : State) (a : Acc) : State × List Got :=
  let cut := s.cutBytes a
  let r := if a.glob then s.loadGlob a.keys else s.loadBank a.keys
  let got := if cut.isEmpty then r.2
    else (a.keys.zip r.2).map fun e => if cut.contains e.1 then ⟨e.2.b, true⟩ else e.2
  (if a.glob then r.1.dropLost a.keys else r.1, got)

/-! ## Loads whose bytes are not there yet (03 R58, 04 R84, 05 R97, 08 R192). -/

/-- An atomic of a group whose reply is not in touches some bytes of a peer. -/
def State.atomAt (s : State) (gid : Nat) (ks : List Nat) : Bool := s.fab.reqs.any fun r =>
  match r.use with
  | .atom i _ _ _ => i == gid && ks.any fun k =>
      decide (keyPeer r.pkt.addr.toNat ≤ k) && decide (k < keyPeer r.pkt.addr.toNat + 8)
  | _ => false
/-- What a load by the current group waits for: its own earlier updates of the bytes, a line that it must have first, a page
that migrates, bytes on their way. `pend` is its result, where it has been issued: later updates stand behind it. -/
def State.loadWait (s : State) (a : Acc) (pend : Option Nat) : HomeWait :=
  let behind (h : HomeOp) : Bool := match pend with
    | some p => h.after.contains p
    | none => false
  let first := s.homeQ.any fun h => h.gid == s.g.gid && !behind h && h.keys.any a.keys.contains
  if first then .stay
  else if !a.glob then .go
  else
    let far := a.keys.filter fun k => (s.g.own k).isNone
    if s.atomAt s.g.gid a.keys || far.any (s.heldFor s.g) then .stay
    else
      match s.wantLine s.g a.keys with
      | some l => .want l
      | none => .go
/-- A deferred load reads: its group's private bytes are those of its own place in program order (05 R97). -/
def State.serveLoad (s : State) (x : LoadOp) : State × List Got :=
  let g := s.g
  let r := (s.setG { g with priv := x.own, fences := [] }).load ⟨isGlobKey (x.keys.headD 0), x.keys⟩
  (r.1.setG { r.1.g with priv := g.priv, fences := g.fences }, r.2)
/-- What a deferred load waits for. -/
def State.deferWait (s : State) (x : LoadOp) : HomeWait :=
  (s.setG { s.g with priv := x.own, fences := [] }).loadWait ⟨isGlobKey (x.keys.headD 0), x.keys⟩ (some x.pend)
/-- Serve the deferred loads that can be, in program order; `kept` are those that cannot. -/
def State.serveLoads (s : State) (kept : List LoadOp) : List LoadOp → State
  | [] => s.setG { s.g with loads := kept }
  | x :: r =>
    match s.deferWait x with
    | .stay => s.serveLoads (kept ++ [x]) r
    | .want l => (s.getLine (unitCode s.g.unit) l false).serveLoads (kept ++ [x]) r
    | .go =>
      let y := s.serveLoad x
      (y.1.setG (y.1.g.fill x.pend x.dest (BitVec.ofNat 64 (gotNum y.2)) (gotPsn y.2) x.addr)).serveLoads kept r
/-- The current group's own updates reach their homes, and its deferred loads are served, as far as they may. -/
def State.settleOwn (s : State) : State :=
  let s := s.settleGroup s.g.gid
  if s.g.loads.isEmpty then s else (s.serveLoads [] s.g.loads).settleGroup s.g.gid

/-- A store by the current group: private on the managed channel, accepted at its port otherwise. -/
def State.store (s : State) (a : Acc) (data : W64) : State :=
  if a.glob then
    s.storePriv (cellsOf a.keys (leBytes a.keys.length data.toNat)) false
  else s.storeBank a.keys data
/-- Unmanaged part of a release (05 R103): at CLUSTER scope or wider everything that the core's ports accepted has
performed. -/
def State.releaseBank (s : State) (sc : Scope) : State := if narrowScope sc then s else s.drainOwn

end Sys2Proof.Machine
end

