-- ==== Sys2Proof/Machine/Issue.lean ====
section
/-!
DEFINITION. What every instruction does before its own effect: the decode checks that depend on the
group, stalls on pending results, flag selection, turns of a deterministic domain (11 R244, R245, 08
R167, R192, 06 R135), and the release and acquire of 05 R104.
-/
namespace Sys2Proof.Machine

/-! ## Raising an exception (10 R216, R217). -/

/-- Own updates reach their homes, deferred loads are served, and results that have arrived are written. -/
def State.writeback (s : State) : State :=
  let s := s.settleOwn
  s.setG s.g.writebackAll
/-- The deferred form of POISON_CONSUMED (10 R460): the clean values are written, the result is no longer
pending, and TRAP_PC is the next instruction. -/
def State.poisonTrap (s : State) (p : Pend) : State :=
  let s := s.setG (s.g.retirePend p)
  s.trap { cause := 0x30, addr := p.addr, info := (p.ipc &&& ~~~3#64) ||| 1, thread := p.psnThread,
           pc := s.g.pc, resumable := false }
/-- A result of a retired instruction has come back poisoned. -/
def Group.poisonDue (g : Group) : Option Pend :=
  findFirst (fun p => p.ready && p.poisoned && !p.sync) g.pend
/-- The group's outstanding results are written before handler entry (10 R217); one that came back poisoned traps at the
boundary before the instruction at the pc (10 R460). -/
def State.entering (s : State) (k : State → Out) : Out :=
  let s := s.writeback
  if s.g.pend.any (fun p => !p.ready && !p.sect) then s.blockOn .result
  else
    match s.g.poisonDue with
    | some p => .next (s.poisonTrap p)
    | none => k s
/-- The group's own earlier accesses have reached its core's banks, then go on (05 R97). -/
def ownBanks (s : State) (k : State → Out) : Out :=
  let s := s.settleOwn.drainOwn
  let busy := match s.g.unit with
    | .core c _ => (s.core c).bankQ.any fun a => a.gid == s.g.gid
    | .damper _ _ => false
  if busy then s.blockOn .result else k s
/-- An exception that the instruction at the pc raises. -/
def State.raise (s : State) (cause : Nat) (addr info : W64) : Out :=
  s.entering fun s => .next (s.trap { cause := cause, addr := addr, info := info, pc := s.g.pc })
/-- An exception that names the lowest failing thread of a vector instruction (02 R36, 10 R217). -/
def State.raiseAt (s : State) (cause : Nat) (addr info : W64) (thread : Nat) (fmask : W32) : Out :=
  s.entering fun s =>
    .next (s.trap { cause := cause, addr := addr, info := info, thread := thread, fmask := fmask,
                    pc := s.g.pc })
/-- ILLEGAL_INSTRUCTION (11 R250). -/
def State.illegal (s : State) (info : W64) : Out := s.raise 0x01 0 info

/-! ## Checks 4 to 6 of 11 R245 that depend on the group. -/

/-- The first v register at or above nv (08 R172). -/
def badReg (g : Group) (l : List VReg) : Option VReg := findFirst (fun r => decide (g.nv ≤ r.val)) l
/-- Privilege and use inside a section: check 6 comes first on a Damper (11 R245). `priv` is TRAP_INFO of
PRIVILEGE where check 5 fails; `sec` the cause inside a section. -/
def useCheck (g : Group) (priv : Option W64) (sec : Option Nat) : Option (Nat × W64) :=
  if g.isSection then
    match sec, priv with
    | some c, _ => some (c, 0)
    | none, some i => some (0x03, i)
    | none, none => none
  else priv.map fun i => (0x03, i)
/-- Checks 4 to 6, then the instruction. -/
def checked (s : State) (vs : List VReg) (priv : Option W64) (sec : Option Nat) (k : Out) : Out :=
  match badReg s.g vs with
  | some r => s.illegal (BitVec.ofNat 64 (2 ^ 63 + r.val))
  | none =>
    match useCheck s.g priv sec with
    | some (c, i) => s.raise c 0 i
    | none => k

/-! ## Pending results (11 R244, 08 R192, 10 R460). -/

/-- A read, or a second write, of a register whose result is pending stalls (08 R192). -/
def stalled (s : State) (uses : List Nat) (k : State → Out) : Out :=
  if s.g.pend.any (fun p => p.touches uses) then
    let s := s.writeback
    match findFirst (fun p => p.touches uses) s.g.pend with
    | none => k s
    | some p => if p.ready then s.entering fun s => .next (s.poisonTrap p) else s.blockOn .result
  else k s
/-- A uniform instruction: checks, then stalls, then its effect. -/
def uniform (s : State) (priv : Option W64) (sec : Option Nat) (uses : List Nat) (k : State → Out) : Out :=
  checked s [] priv sec (stalled s uses k)
/-- A vector instruction: under an all-zero governing mask it only retires (08 R167). The continuation gets
the active threads. -/
def vector (s : State) (vs : List VReg) (sec : Option Nat) (uses : List Nat) (m : MReg) (words : Nat)
    (k : State → List Nat → Out) : Out :=
  checked s vs none sec
    (if s.g.govern m = 0 then .next (s.retire words)
     else stalled s (usesV vs ++ uses) fun s => k s (activeOf (s.g.govern m)))

/-- Take the flag of an instruction that writes a register; hold the issue while it is full (11 R244). -/
def withFlag (s : State) (f : Bool) (k : State → Option Nat → Out) : Out :=
  let n := s.g.selFlag f
  if s.g.flagFull n then
    let s := s.writeback
    if s.g.flagFull n then s.blockOn (.fullFlag (n.getD 0)) else k s n
  else k s n
/-- Give a result: at once where it is synchronous, else as a pending result that holds its flag. -/
def State.result (s : State) (flag : Option Nat) (addr : W64) (writes : List (Dest × W64 × Bool)) : State :=
  match flag with
  | none => s.setG (s.g.writeAll (writes.map fun w => (w.1, w.2.1)))
  | some f =>
    let p : Pend := { id := s.nextId, flag := some f, addr := addr, ipc := s.g.pc,
                      writes := writes.map fun w => (w.1, some w.2) }
    let s := s.fresh
    s.setG { s.g.fInc f with pend := s.g.pend ++ [p] }
/-- A result that something else will fill, under a fresh name, that holds a flag if it has one. -/
def State.await (s : State) (flag : Option Nat) (addr : W64) (dests : List Dest) : State :=
  let p : Pend := { id := s.nextId, flag := flag, addr := addr, ipc := s.g.pc,
                    writes := dests.map fun d => (d, none) }
  let s := s.fresh
  let g := match flag with
    | some f => s.g.fInc f
    | none => s.g
  s.setG { g with pend := s.g.pend ++ [p] }

/-! ## Checks of the active threads (02 R36, 10 R217). -/

/-- Threads as a mask. -/
def threadMask (ts : List Nat) : W32 := BitVec.ofNat 32 (foldL (fun n t => n + 2 ^ t) 0 ts)
/-- The value a check gives when it fails. -/
def failOf {α : Type} (r : Except Fail α) : Option Fail :=
  match r with
  | .error e => some e
  | .ok _ => none
/-- Raise the cause of the lowest thread whose check fails; a uniform instruction names no thread. -/
def checkThreads (s : State) (uni : Bool) (ts : List Nat) (chk : Nat → Option Fail) (k : Out) : Out :=
  let bad := ts.filter fun t => (chk t).isSome
  match bad with
  | [] => k
  | t :: _ =>
    match chk t with
    | none => k
    | some e =>
      if uni then s.raise e.cause e.addr e.info else s.raiseAt e.cause e.addr e.info t (threadMask bad)

/-! ## Turns (06 R135). -/

/-- The group is still in the middle of a synchronising operation. -/
def Group.midTurn (g : Group) : Bool :=
  match g.block with
  | none | some .turn => false
  | some _ => true
/-- A synchronising operation of a deterministic group waits for its turn, and gives it up once it is
complete. -/
def inTurn (s : State) (k : State → Out) : Out :=
  match s.g.det with
  | none => k s
  | some d =>
    if d.turn then
      match k s with
      | .next s' =>
        .next (s'.modGid s.g.gid fun g =>
          if g.midTurn then g else { g with det := g.det.map fun d => { d with turn := false } })
      | r => r
    else s.blockOn .turn
/-- A wait whose condition is false: it blocks in place, or retires and re-executes in a deterministic
domain (06 R135). -/
def waitFalse (s : State) (b : Block) : Out :=
  match s.g.det with
  | none => s.blockOn b
  | some _ => .next (s.setG { s.g with
      retired := if s.g.handler then s.g.retired else s.g.retired + 1, block := some .turn })

/-! ## Releases and acquires (05 R102 to R104, 06 R126). -/

/-- The scope that a release acts at: in a section every scope acts as DEVICE (05 R94). -/
def Group.scopeOf (g : Group) (sc : Scope) : Scope := if g.isSection && sc != .fab then .dev else sc
/-- A release at a scope (05 R104): po-earlier atomics perform, then the unmanaged part, then the managed
part. -/
def State.release (s : State) (sc : Scope) : State :=
  let sc := s.g.scopeOf sc
  ((s.settleOwn.releaseBank sc).releaseGlob sc).flushInvals
/-- A byte to be published lies in a page that migrates (04 R84, R85): its publication waits. -/
def State.releaseHeld (s : State) : Bool :=
  !s.own.migs.isEmpty && s.g.allPriv.any fun e => s.heldFor s.g e.1
/-- A RED or atomic of the group has not been performed, or is out at a peer. -/
def State.atomsOut (s : State) : Bool := s.opsOut s.g.gid || s.fab.reqs.any fun r =>
  match r.use with
  | .atom gid _ _ _ => gid == s.g.gid
  | _ => false
/-- An access that the ports of the current group's core have accepted has not performed (05 R103). -/
def State.portsBusy (s : State) (sc : Scope) : Bool :=
  !narrowScope sc && (match s.g.unit with
    | .core c _ => !(s.core c).bankQ.isEmpty
    | .damper _ _ => false)
/-- Results of the group's own loads and atomics are still to come (05 R102, R104). -/
def Group.reading (g : Group) : Bool := g.pend.any fun p => !p.ready && !p.sect
/-- A release as far as it goes, and what it still waits for: po-earlier loads and atomics, a page that finishes its
migration, the ports, and at FABRIC scope exclusive lines and acknowledged invalidations (05 R103, R104, 06 R126). -/
def State.releaseStep (s : State) (sc : Scope) : State × Option Block :=
  let s := s.settleOwn
  if s.g.reading || s.atomsOut then (s, some .result)
  else if s.releaseHeld then (s, some (.peer waitPage))
  else
    let s := s.release sc
    if s.portsBusy (s.g.scopeOf sc) then (s, some .result)
    else if sc ≠ .fab then (s, none)
    else
      match s.fabWants with
      | some l => (s.getLine (unitCode s.g.unit) l true, some (.peer l))
      | none => (s, none)
/-- Release, then go on. -/
def releasing (s : State) (sc : Scope) (k : State → Out) : Out :=
  match s.releaseStep sc with
  | (s, some b) => s.blockOn b
  | (s, none) => k s
/-- An acquire waits for po-earlier loads and atomics, then raises gts (05 R102). -/
def acquiring (s : State) (k : State → Out) : Out :=
  let s := s.settleOwn
  if s.g.reading then s.blockOn .result else k s.acquire

/-! ## Transfers (12 R259). -/

/-- transfer(t): the checks, then the effect given, at the target. -/
def transfer (s : State) (t : W64) (k : Group → Group) : Out :=
  if t.toNat % 4 ≠ 0 ∨ t.toNat ≥ 2 ^ 63 then s.raise 0x04 t 0
  else
    match fetchWord s t with
    | .absent l => (s.getLine (unitCode s.g.unit) l false).blockOn (.peer l)
    | .fail e => (s.dropFetched e.cause t).raise e.cause t e.info
    | .word w =>
      if (headerFlags w).isNone then s.raise 0x04 t 0 else .next (s.setG (k (s.g.retireTo t)))

end Sys2Proof.Machine
end

