-- ==== Sys2Proof/Machine/VecInt.lean ====
section
/-!
DEFINITION. Vector integer arithmetic, logic, shifts, comparisons (13 R278 to R284).
-/
namespace Sys2Proof.Machine

/-- Write a v register in some threads. -/
def Group.vSets (g : Group) (a : VReg) : List (Nat × W64) → Group
  | [] => g
  | (t, x) :: r => (g.vSet a t x).vSets a r
/-- The mask whose 1 bits are the listed threads that satisfy a test (13 R284). -/
def maskOf (ts : List Nat) (p : Nat → Bool) : W32 :=
  BitVec.ofNat 32 (foldL (fun n t => n + if p t then 2 ^ t else 0) 0 ts)

/-- Apply an operation to every sub-element. -/
def lanes1 (w : Nat) (f : Nat → Nat) (x : W64) : W64 := joinSubs w ((subs w x).map f)
/-- Apply an operation to every pair of sub-elements. -/
def lanes2 (w : Nat) (f : Nat → Nat → Nat) (x y : W64) : W64 :=
  joinSubs w (List.zipWith f (subs w x) (subs w y))
/-- Apply an operation to every triple of sub-elements. -/
def lanes3 (w : Nat) (f : Nat → Nat → Nat → Nat) (x y z : W64) : W64 :=
  joinSubs w (List.zipWith (fun p c => f p.1 p.2 c) ((subs w x).zip (subs w y)) (subs w z))
/-- Clamp to the signed range of w bits (13 R281). -/
def clampI (w : Nat) (i : Int) : Nat :=
  ofInt w (max (-(2 ^ (w - 1) : Nat)) (min i ((2 ^ (w - 1) : Nat) - 1)))

/-- A vector instruction that writes vA in each active thread. -/
def vwrite (s : State) (vs : List VReg) (sec : Option Nat) (uses : List Nat) (f : VForm) (a : VReg)
    (val : State → Nat → W64) : Out :=
  vector s (a :: vs) sec uses (vMask f) (vWords f) fun s ts =>
    .next (s.setG ((s.g.retire (vWords f)).vSets a (ts.map fun t => (t, val s t))))
/-- A vector instruction that writes mask mA (13 R284). -/
def vmask (s : State) (vs : List VReg) (f : VForm) (a : MReg) (test : State → Nat → Bool) : Out :=
  vector s vs none [] (vMask f) (vWords f) fun s ts =>
    .next (s.setG ((s.g.retire (vWords f)).mSet a (maskOf ts (test s))))
/-- One source. -/
def vint1 (s : State) (z : Size) (f : VForm) (a b : VReg) (op : Nat → Nat → Nat) : Out :=
  vwrite s [b] none [] f a fun s t => lanes1 (zw z) (op (zw z)) (s.g.vGet b t)
/-- Two sources. -/
def vint2 (s : State) (z : Size) (f : VForm) (a b : VReg) (c : VC) (op : Nat → Nat → Nat → Nat) : Out :=
  vwrite s (b :: vcRegs c) none [] f a fun s t =>
    lanes2 (zw z) (op (zw z)) (s.g.vGet b t) (vcVal s.g (zw z) t c)

/-- VADD (13 R281). -/
def execVadd (z : Size) (f : VForm) (a b : VReg) (c : VC) (s : State) : Out :=
  vint2 s z f a b c fun w x y => (x + y) % 2 ^ w
/-- VSUB (13 R281). -/
def execVsub (z : Size) (f : VForm) (a b : VReg) (c : VC) (s : State) : Out :=
  vint2 s z f a b c fun w x y => (x + 2 ^ w - y) % 2 ^ w
/-- VADDS (13 R281). -/
def execVadds (z : Size) (f : VForm) (a b : VReg) (c : VC) (s : State) : Out :=
  vint2 s z f a b c fun w x y => clampI w (toInt w x + toInt w y)
/-- VSUBS (13 R281). -/
def execVsubs (z : Size) (f : VForm) (a b : VReg) (c : VC) (s : State) : Out :=
  vint2 s z f a b c fun w x y => clampI w (toInt w x - toInt w y)
/-- VMUL (13 R281). -/
def execVmul (z : Size) (f : VForm) (a b : VReg) (c : VC) (s : State) : Out :=
  vint2 s z f a b c fun w x y => x * y % 2 ^ w
/-- VMULH (13 R281). -/
def execVmulh (z : Size) (f : VForm) (a b : VReg) (c : VC) (s : State) : Out :=
  vint2 s z f a b c fun w x y => ofInt w (toInt w x * toInt w y / (2 ^ w : Nat))
/-- VMAD (13 R281). -/
def execVmad (z : Size) (f : VForm) (a b : VReg) (c : VC) (d : VReg) (s : State) : Out :=
  vwrite s (b :: d :: vcRegs c) none [] f a fun s t =>
    lanes3 (zw z) (fun x y u => (x * y + u) % 2 ^ zw z) (s.g.vGet b t) (vcVal s.g (zw z) t c)
      (s.g.vGet d t)
/-- VNEG (13 R281). -/
def execVneg (z : Size) (f : VForm) (a b : VReg) (s : State) : Out :=
  vint1 s z f a b fun w x => (2 ^ w - x) % 2 ^ w

/-- VAND (13 R282). -/
def execVand (z : Size) (f : VForm) (a b : VReg) (c : VC) (s : State) : Out :=
  vint2 s z f a b c fun _ x y => x &&& y
/-- VOR (13 R282). -/
def execVor (z : Size) (f : VForm) (a b : VReg) (c : VC) (s : State) : Out :=
  vint2 s z f a b c fun _ x y => x ||| y
/-- VXOR (13 R282). -/
def execVxor (z : Size) (f : VForm) (a b : VReg) (c : VC) (s : State) : Out :=
  vint2 s z f a b c fun _ x y => x ^^^ y
/-- VNOT (13 R282). -/
def execVnot (z : Size) (f : VForm) (a b : VReg) (s : State) : Out :=
  vint1 s z f a b fun w x => 2 ^ w - 1 - x
/-- VSHL (13 R282). -/
def execVshl (z : Size) (f : VForm) (a b : VReg) (c : VC) (s : State) : Out :=
  vint2 s z f a b c fun w x y => x * 2 ^ (y % w) % 2 ^ w
/-- VSHR (13 R282). -/
def execVshr (z : Size) (f : VForm) (a b : VReg) (c : VC) (s : State) : Out :=
  vint2 s z f a b c fun w x y => x / 2 ^ (y % w)
/-- VSHRA (13 R282). -/
def execVshra (z : Size) (f : VForm) (a b : VReg) (c : VC) (s : State) : Out :=
  vint2 s z f a b c fun w x y => ofInt w (toInt w x / (2 ^ (y % w) : Nat))
/-- VCLZ (13 R282). -/
def execVclz (z : Size) (f : VForm) (a b : VReg) (s : State) : Out :=
  vint1 s z f a b fun w x => clzN w x

/-- VMIN (13 R283). -/
def execVmin (z : Size) (f : VForm) (a b : VReg) (c : VC) (s : State) : Out :=
  vint2 s z f a b c fun w x y => if toInt w y < toInt w x then y else x
/-- VMAX (13 R283). -/
def execVmax (z : Size) (f : VForm) (a b : VReg) (c : VC) (s : State) : Out :=
  vint2 s z f a b c fun w x y => if toInt w x < toInt w y then y else x
/-- VMIN.u (13 R283). -/
def execVminU (z : Size) (f : VForm) (a b : VReg) (c : VC) (s : State) : Out :=
  vint2 s z f a b c fun _ x y => if y < x then y else x
/-- VMAX.u (13 R283). -/
def execVmaxU (z : Size) (f : VForm) (a b : VReg) (c : VC) (s : State) : Out :=
  vint2 s z f a b c fun _ x y => if x < y then y else x
/-- VABS (13 R283). -/
def execVabs (z : Size) (f : VForm) (a b : VReg) (s : State) : Out :=
  vint1 s z f a b fun w x => (toInt w x).natAbs % 2 ^ w
/-- VABSS (13 R283). -/
def execVabss (z : Size) (f : VForm) (a b : VReg) (s : State) : Out :=
  vint1 s z f a b fun w x => Nat.min (toInt w x).natAbs (2 ^ (w - 1) - 1)
/-- VPOPC (13 R283). -/
def execVpopc (z : Size) (f : VForm) (a b : VReg) (s : State) : Out :=
  vint1 s z f a b fun w x => popN w x
/-- VCMP (13 R284): a thread's bit is 1 when every pair of its sub-elements meets the condition. -/
def execVcmp (cond : Cond) (z : Size) (f : VForm) (a : MReg) (b : VReg) (c : VC) (s : State) : Out :=
  vmask s (b :: vcRegs c) f a fun s t =>
    ((subs (zw z) (s.g.vGet b t)).zip (subs (zw z) (vcVal s.g (zw z) t c))).all fun p =>
      condHolds cond (zw z) p.1 p.2

end Sys2Proof.Machine
end

