-- ==== Sys2Proof/Machine/VecFloat.lean ====
section
/-!
DEFINITION. Vector floating arithmetic (13 R286 to R291).
-/
namespace Sys2Proof.Machine

/-- A float immediate as one sub-element, as a bit pattern (13 R279). -/
def fImm (t : FType) (v : W32) : Nat := v.toNat % 2 ^ ftw t
/-- Operand C of a float instruction in a thread. -/
def fcVal (g : Group) (t : FType) (n : Nat) : VC → W64
  | .reg c => g.vGet c n
  | .imm v => splat (ftw t) (fImm t v)
/-- One source. -/
def vfl1 (s : State) (t : FType) (f : VForm) (a b : VReg) (op : Nat → Nat) : Out :=
  vwrite s [b] none [] f a fun s n => lanes1 (ftw t) op (s.g.vGet b n)
/-- Two sources. -/
def vfl2 (s : State) (t : FType) (f : VForm) (a b : VReg) (c : VC) (op : Fmt → Fp → Fp → Nat) : Out :=
  vwrite s (b :: vcRegs c) none [] f a fun s n =>
    lanes2 (ftw t) (fun x y => op (ftFmt t) ((ftFmt t).dec x) ((ftFmt t).dec y)) (s.g.vGet b n)
      (fcVal s.g t n c)

/-- VFADD (13 R287). -/
def execVfadd (t : FType) (f : VForm) (a b : VReg) (c : VC) (s : State) : Out :=
  vfl2 s t f a b c fun m x y => m.enc (x.add y)
/-- VFSUB (13 R287). -/
def execVfsub (t : FType) (f : VForm) (a b : VReg) (c : VC) (s : State) : Out :=
  vfl2 s t f a b c fun m x y => m.enc (x.add y.neg)
/-- VFMUL (13 R287). -/
def execVfmul (t : FType) (f : VForm) (a b : VReg) (c : VC) (s : State) : Out :=
  vfl2 s t f a b c fun m x y => m.enc (x.mul y)
/-- VFMA: one rounding (13 R287). -/
def execVfma (t : FType) (f : VForm) (a b : VReg) (c : VC) (d : VReg) (s : State) : Out :=
  vwrite s (b :: d :: vcRegs c) none [] f a fun s n =>
    let m := ftFmt t
    lanes3 (ftw t) (fun x y u => m.enc (((m.dec x).mul (m.dec y)).add (m.dec u))) (s.g.vGet b n)
      (fcVal s.g t n c) (s.g.vGet d n)
/-- VFMIN (13 R287). -/
def execVfmin (t : FType) (f : VForm) (a b : VReg) (c : VC) (s : State) : Out :=
  vfl2 s t f a b c fun m x y => m.enc (x.min_ y)
/-- VFMAX (13 R287). -/
def execVfmax (t : FType) (f : VForm) (a b : VReg) (c : VC) (s : State) : Out :=
  vfl2 s t f a b c fun m x y => m.enc (x.max_ y)
/-- VFABS: bit w - 1 is cleared, all else copied (13 R286). -/
def execVfabs (t : FType) (f : VForm) (a b : VReg) (s : State) : Out :=
  vfl1 s t f a b fun x => x % 2 ^ (ftw t - 1)
/-- VFNEG: bit w - 1 is flipped, all else copied (13 R286). -/
def execVfneg (t : FType) (f : VForm) (a b : VReg) (s : State) : Out :=
  vfl1 s t f a b fun x => (x + 2 ^ (ftw t - 1)) % 2 ^ ftw t

/-- VFRCP (13 R288). -/
def execVfrcp (t : FType) (f : VForm) (a b : VReg) (s : State) : Out :=
  vfl1 s t f a b fun x => (ftFmt t).rcp ((ftFmt t).dec x)
/-- VFRSQ (13 R288). -/
def execVfrsq (t : FType) (f : VForm) (a b : VReg) (s : State) : Out :=
  vfl1 s t f a b fun x => (ftFmt t).rsq ((ftFmt t).dec x)
/-- VFSQRT (13 R288). -/
def execVfsqrt (t : FType) (f : VForm) (a b : VReg) (s : State) : Out :=
  vfl1 s t f a b fun x => (ftFmt t).sqrt ((ftFmt t).dec x)
/-- VFDIV (13 R288). -/
def execVfdiv (t : FType) (f : VForm) (a b : VReg) (c : VC) (s : State) : Out :=
  vfl2 s t f a b c fun m x y => m.div x y
/-- VFEXP2 (13 R288). -/
def execVfexp2 (t : FType) (f : VForm) (a b : VReg) (s : State) : Out :=
  vfl1 s t f a b fun x => (ftFmt t).exp2 ((ftFmt t).dec x)
/-- VFLOG2 (13 R288). -/
def execVflog2 (t : FType) (f : VForm) (a b : VReg) (s : State) : Out :=
  vfl1 s t f a b fun x => (ftFmt t).log2 ((ftFmt t).dec x)
/-- VFRND (13 R289). -/
def execVfrnd (t : FType) (f : VForm) (a b : VReg) (mode : RMode) (s : State) : Out :=
  vfl1 s t f a b fun x => (ftFmt t).rnd mode ((ftFmt t).dec x)
/-- VFCLASS (13 R289). -/
def execVfclass (t : FType) (f : VForm) (a b : VReg) (s : State) : Out :=
  vfl1 s t f a b fun x => (ftFmt t).classBits x
/-- VFCMP (13 R290). -/
def execVfcmp (cond : FCond) (t : FType) (f : VForm) (a : MReg) (b : VReg) (c : VC) (s : State) : Out :=
  vmask s (b :: vcRegs c) f a fun s n =>
    ((subs (ftw t) (s.g.vGet b n)).zip (subs (ftw t) (fcVal s.g t n c))).all fun p =>
      fcondHolds cond ((ftFmt t).dec p.1) ((ftFmt t).dec p.2)

/-- Width of a type of VFCVT. -/
def ctw : CType → Nat
  | .s2 => 32
  | .h4 => 16
  | .b4 => 16
  | .w => 32
/-- The register VFCVT writes, from the old destination and the source (13 R291). -/
def cvtReg (d s : CType) (h : Bool) (mode : RMode) (old x : W64) : W64 :=
  let k := if h then 2 else 0
  let cv (e : Nat) : Nat := convert d s mode (sub_ (ctw s) x e)
  if ctw s < ctw d then joinSubs 32 [cv k, cv (k + 1)]
  else if ctw d < ctw s then
    joinSubs 16 ((upTo 4).map fun e => if e / 2 == k / 2 then cv (e - k) else sub_ 16 old e)
  else joinSubs (ctw d) ((upTo (64 / ctw d)).map cv)
/-- VFCVT (13 R291). -/
def execVfcvt (dt st : CType) (f : VForm) (a b : VReg) (h : Bool) (mode : RMode) (s : State) : Out :=
  vwrite s [b] none [] f a fun s n => cvtReg dt st h mode (s.g.vGet a n) (s.g.vGet b n)

end Sys2Proof.Machine
end

