-- ==== Sys2Proof/Machine/VecQuant.lean ====
section
/-!
DEFINITION. Quantising in the vector unit (13 R292 to R294).
-/
namespace Sys2Proof.Machine

/-- QDESC.E (13 R292). -/
def qdE (d : Nat) : Nat := field d 0 8
/-- QDESC.FMT. -/
def qdFmt (d : Nat) : Nat := field d 8 3
/-- QDESC.DITH. -/
def qdDith (d : Nat) : Bool := field d 11 1 == 1
/-- D as VQNT and VDQNT take it: 0 when DITH is 0 (13 R294). -/
def qdD (d : Nat) : Int := if qdDith d then toInt 4 (field d 12 4) else 0
/-- FORMAT_INVALID of a descriptor in a thread: its lowest bad sub-element (13 R294). -/
def qdescFail (pc : W64) (w : Nat) (x : W64) : Option Fail :=
  (findFirst (fun d => decide (qdFmt d > 3)) (subs w x)).map fun d => formatFail pc (qdFmt d) 0
/-- VQNT of one sub-element (13 R294). -/
def vqntElem (t : FType) (x d : Nat) : Nat :=
  ofInt (ftw t) (quantise (qdFmt d) (qdE d) (qdD d) ((ftFmt t).dec x))
/-- VDQNT of one sub-element (13 R294). -/
def vdqntElem (t : FType) (x d : Nat) : Nat :=
  dequantise (ftFmt t) (toInt (qBits (qdFmt d)) x) (qdE d) (qdD d) (qdDith d)
/-- A conversion under descriptors. -/
def qconv (s : State) (t : FType) (f : VForm) (a b : VReg) (c : VC) (op : Nat → Nat → Nat) : Out :=
  vector s (a :: b :: vcRegs c) none [] (vMask f) (vWords f) fun s ts =>
    checkThreads s false ts (fun n => qdescFail s.g.pc (ftw t) (fcVal s.g t n c))
      (.next (s.setG ((s.g.retire (vWords f)).vSets a (ts.map fun n =>
        (n, lanes2 (ftw t) op (s.g.vGet b n) (fcVal s.g t n c))))))
/-- VQNT (13 R294). -/
def execVqnt (t : FType) (f : VForm) (a b : VReg) (c : VC) (s : State) : Out :=
  qconv s t f a b c (vqntElem t)
/-- VDQNT (13 R294). -/
def execVdqnt (t : FType) (f : VForm) (a b : VReg) (c : VC) (s : State) : Out :=
  qconv s t f a b c (vdqntElem t)

/-! ## Instructions that read a frame (13 R293, 14 R308). -/

/-- View row i and column j of a coordinate register (13 R293). -/
def coordI (x : W64) : Nat := x.toNat % 2 ^ 32
/-- View column of sub-element 0. -/
def coordJ (x : W64) : Nat := x.toNat / 2 ^ 32
/-- Reasons 6 and 7 for the elements of a thread; `scales` says that scales are read. -/
def frameThreadFail (S : Nat) (off : W64) (fr : List W32) (i : Nat) (js : List Nat) (scales : Bool) :
    Option Fail :=
  if frameRowBad S fr i then some (frameFail off 0 6)
  else if scales && js.any (frameScaleBad S fr i) then some (frameFail off 0 7)
  else none
/-- Locations of the index entry and scales a thread reads. -/
def frameKeys (core : Nat) (fr : List W32) (i : Nat) (js : List Nat) (scales : Bool) : List Nat :=
  (if frIdx fr then span (keyCore core (frIndex fr + 4 * i)) 4 else []) ++
  (if scales then js.map fun j => keyCore core (frScaleAt fr i j) else [])
/-- D of a view element as the core's scratchpad gives it. -/
def State.frameD (s : State) (core : Nat) (fr : List W32) (i j : Nat) : Int :=
  frD fr (if frIdx fr then frameIndexAt s core fr i else 0) (BitVec.ofNat 32 i) (BitVec.ofNat 32 j)
/-- An instruction that reads a frame of its core's scratchpad at the offset given. Accepted stores to the
core's scratchpad perform first (05 R97); the frame's own checks come first, then reasons 6 and 7 per
thread, then poison (13 R293, 14 R308, R309; the place of the frame's own poison among these checks is DEDUCED, log entry 41). The continuation gets the core and the frame. -/
def framed (s : State) (ts : List Nat) (off : W64) (same : List W32 → Except Fail Unit) (scales : Bool)
    (at_ : Nat → Nat × List Nat) (k : State → Nat → List W32 → Out) : Out :=
  ownBanks s fun s =>
  let core := unitCoreN s.g.unit
  let S := spaceSize s s.who .core
  let fr := frameAt s core off.toNat
  match frameHead s.g.pc S off 0 fr with
  | .error e => s.raiseAt e.cause e.addr e.info (ts.headD 0) (threadMask ts)
  | .ok _ =>
    match same fr with
    | .error e => s.raiseAt e.cause e.addr e.info (ts.headD 0) (threadMask ts)
    | .ok _ =>
      checkThreads s false ts (fun t => frameThreadFail S off fr (at_ t).1 (at_ t).2 scales)
        (checkThreads s false ts
          (fun t => (findFirst s.psn (span (keyCore core off.toNat) 32 ++
              frameKeys core fr (at_ t).1 (at_ t).2 scales)).map fun k =>
            ⟨0x30, BitVec.ofNat 64 (k - keyCore core 0), 0⟩)
          (k s core fr))
/-- VSCALE's or VDITH's result (13 R293). -/
def descOp (s : State) (t : FType) (f : VForm) (a b : VReg) (c : SReg) (scales : Bool)
    (val : State → Nat → List W32 → Nat → Nat → Nat) : Out :=
  vector s [a, b] (some 0x17) [useS c] (vMask f) (vWords f) fun s ts =>
    let n := 64 / ftw t
    let at_ (th : Nat) : Nat × List Nat := (coordI (s.g.vGet b th), from_ (coordJ (s.g.vGet b th)) n)
    framed s ts (s.g.sGet c) (fun _ => .ok ()) scales at_ fun s core fr =>
      .next (s.setG ((s.g.retire (vWords f)).vSets a (ts.map fun th =>
        (th, joinSubs (ftw t) ((at_ th).2.map (val s core fr (at_ th).1))))))
/-- VSCALE (13 R293). -/
def execVscale (t : FType) (f : VForm) (a b : VReg) (c : SReg) (s : State) : Out :=
  descOp s t f a b c true fun s core fr i j =>
    (frameScaleByte s core fr i j).toNat + 256 * frFmt fr + 2048 * (if frDith fr then 1 else 0) +
      4096 * ofInt 4 (s.frameD core fr i j)
/-- VDITH (13 R293). -/
def execVdith (t : FType) (f : VForm) (a b : VReg) (c : SReg) (s : State) : Out :=
  descOp s t f a b c false fun s core fr i j => ofInt (ftw t) (s.frameD core fr i j)

end Sys2Proof.Machine
end

