-- ==== Sys2Proof/Machine/Memory.lean ====
section
/-!
DEFINITION. Loads, stores, STQ, prefetch and address tests (14 R302 to R311).
-/
namespace Sys2Proof.Machine

/-- A memory instruction, uniform or per thread (14 R303). `dst` says that the data register is written. -/
def memInstr (s : State) (o : MOpnd) (m : MReg) (words : Nat) (sec : Option Nat)
    (k : State → List Nat → Out) : Out :=
  if moUni o then uniform s none sec (moUses o) fun s => k s [0]
  else vector s (moRegs o) sec [] m words k
/-- How an instruction turns an effective address into an access. -/
abbrev AccFn := State → Nat → W64 → Except Fail Acc
/-- Generic loads and stores (02 R35). -/
def accGeneric (k : Kind) (z : Size) : AccFn := fun s t a =>
  genericAcc s s.who t k a (zBytes z) (zBytes z)
/-- LDG and STG (02 R32, 14 R304). -/
def accGlobal (k : Kind) (z : Size) : AccFn := fun s _ a => globalAcc s s.who k a (zBytes z)
/-- A specific offset of a space (02 R31, R32). -/
def accSpace (sp : Space) (z : Size) : AccFn := fun s t a => specificAcc s s.who t sp a (zBytes z)

/-- The access of a check that has passed. -/
def accD (r : Except Fail Acc) : Acc :=
  match r with
  | .ok a => a
  | .error _ => ⟨false, []⟩
/-- Cache the translations of some accesses (04 R73). -/
def State.fillTlbs (s : State) (accs : List (W64 × Acc)) : State :=
  foldL (fun s e => if e.2.glob then s.fillTlb s.who.tlbs s.g.ctx (e.1.toNat % 2 ^ 53) else s) s accs
/-- What a global access still waits for: a line it must have first, a page that migrates, or the group's own atomics there
(03 R58, 04 R84, 05 R97). -/
def accWait (s : State) (ks : List Nat) (k : State → Out) : Out :=
  let s := s.settle ks
  match s.loadWait ⟨true, ks⟩ none with
  | .go => k s
  | .want l => (s.getLine (unitCode s.g.unit) l false).blockOn (.peer l)
  | .stay => s.blockOn (.peer waitPage)

/-- Load every thread's bytes, in ascending thread order: thread, address, value and poison. -/
def loadThreads (s : State) : List (Nat × W64 × Acc) → State × List (Nat × W64 × W64 × Bool)
  | [] => (s, [])
  | (t, a, acc) :: r =>
    let x := s.load acc
    let y := loadThreads x.1 r
    (y.1, (t, a, BitVec.ofNat 64 (gotNum x.2), gotPsn x.2) :: y.2)
/-- The instruction at the pc has been issued, and its results are still to come. -/
def State.syncPend (s : State) : Option Pend :=
  findFirst (fun p => p.sync && decide (p.ipc = s.g.pc)) s.g.pend
/-- Threads as TRAP_MASK.FMASK; a uniform instruction names none. -/
def Pend.psnMask (p : Pend) : W32 := threadMask p.psnThreads
/-- A load that the instruction waits for: once every value is there the result is written, or poison traps in the precise
form (10 R460). -/
def finishLoad (s : State) (words id : Nat) : Out :=
  let s := s.settleOwn
  match findFirst (fun q => q.id == id) s.g.pend with
  | none => .next (s.retire words)
  | some q =>
    if !q.ready then s.blockOn .result
    else if q.poisoned then
      s.entering fun s =>
        (s.setG { s.g with pend := dropFirst (fun r => r.id == q.id) s.g.pend }).raiseAt 0x30 q.addr 0 q.psnThread q.psnMask
    else .next ((s.setG (s.g.retirePend q)).retire words)
/-- A thread's load that has to wait: it stands in the port of its core behind what was accepted before, or with the group
(03 R58, 05 R97, R103). -/
def State.deferLoad (s : State) (id : Nat) (d : Dest) (a : W64) (acc : Acc) : State :=
  let g := s.g
  let here : State := s.setG { g with loads := g.loads ++ [
    { pend := id, dest := d, addr := a, keys := acc.keys, own := g.allPriv.filter fun e => acc.keys.contains e.1 }] }
  match g.unit with
  | .core c _ =>
    if acc.glob then here
    else s.modCore c fun x => { x with
      bankQ := x.bankQ ++ [{ keys := acc.keys, data := a, gid := g.gid, load := some (id, d) }] }
  | .damper _ _ => here
/-- A load of which some thread's bytes are not there yet: with a flag the group goes on, else it waits (08 R192, 11
R244). -/
def deferLoads (s : State) (flag : Option Nat) (words : Nat) (l : List (Dest × W64 × Acc)) : Out :=
  let id := s.nextId
  let s := s.await flag ((l.map (·.2.1)).headD 0) (l.map (·.1))
  let s := s.setG { s.g with
    pend := modFirst (fun p => p.id == id) (fun p => { p with sync := flag.isNone }) s.g.pend }
  let s := (foldL (fun s e => s.deferLoad id e.1 e.2.1 e.2.2) s l).settleOwn
  if flag.isSome then .next (s.retire words) else finishLoad s words id
/-- Every thread's bytes can be read now. -/
def loadsReady (s : State) (accs : List Acc) : Bool :=
  accs.all fun a => decide (s.loadWait a none = .go) && (a.glob || !s.bankBusy a.keys)
/-- A load (14 R302 to R305, 10 R460). -/
def loadOp (z : Size) (o : MOpnd) (d : Sys2Proof.Disp) (f : Bool) (sec : Option Nat) (acc : AccFn) (s : State) : Out :=
  memInstr s o (dispMask d) (dispWords d) sec fun s ts =>
    match s.syncPend with
    | some p => finishLoad s (dispWords d) p.id
    | none =>
    let ea (t : Nat) : W64 := moEa s.g z o d t
    checkThreads s (moUni o) ts (fun t => failOf (acc s t (ea t))) <|
      withFlag s f fun s flag =>
        let accs := ts.map fun t => (t, ea t, accD (acc s t (ea t)))
        let ks := accs.flatMap fun x => x.2.2.keys
        let s := ((s.settle ks).fillTlbs (accs.map (·.2))).drainBefore
          ((accs.filter fun x => !x.2.2.glob).flatMap fun x => x.2.2.keys)
        if !loadsReady s (accs.map (·.2.2)) then
          deferLoads s flag (dispWords d) (accs.map fun x => (moDest x.1 o, x.2))
        else
          let r := loadThreads s accs
          let bad := r.2.filter (·.2.2.2)
          let first := bad.headD (0, ea 0, 0, false)
          if flag.isNone && !bad.isEmpty then
            if moUni o then s.raise 0x30 first.2.1 0
            else s.raiseAt 0x30 first.2.1 0 first.1 (threadMask (bad.map (·.1)))
          else
            let s := r.1.result flag first.2.1 (r.2.map fun x => (moDest x.1 o, x.2.2.1, x.2.2.2))
            .next (s.retire (dispWords d))
/-- Store some bytes of the current group, or lose them behind a DOWN link (01 R16). -/
def State.storeOr (s : State) (a : W64) (acc : Acc) (data : W64) : State :=
  if !acc.glob && s.cutAny s.g.unit acc.keys then
    s.lostWrite (unitDie s s.g.unit) (acc.keys.headD 0) a
  else s.store acc data
/-- Store every thread's bytes, in ascending thread order (05 R96). -/
def storeThreads (s : State) : List (W64 × Acc × W64) → State
  | [] => s
  | (a, acc, v) :: r => storeThreads (s.storeOr a acc v) r
/-- A store (14 R302 to R305). -/
def storeOp (z : Size) (o : MOpnd) (d : Sys2Proof.Disp) (sec : Option Nat) (acc : AccFn) (s : State) : Out :=
  memInstr s o (dispMask d) (dispWords d) sec fun s ts =>
    let ea (t : Nat) : W64 := moEa s.g z o d t
    checkThreads s (moUni o) ts (fun t => failOf (acc s t (ea t))) <|
      let l := ts.map fun t => (ea t, accD (acc s t (ea t)), moData s.g t o)
      let s := (s.settle (l.flatMap fun x => x.2.1.keys)).fillTlbs (l.map fun x => (x.1, x.2.1))
      .next ((storeThreads s l).retire (dispWords d))

/-- LD (14 R302). -/
def execLd (z : Size) (o : MOpnd) (d : Sys2Proof.Disp) (f : Bool) (s : State) : Out :=
  loadOp z o d f none (accGeneric .load z) s
/-- ST (14 R302). -/
def execSt (z : Size) (o : MOpnd) (d : Sys2Proof.Disp) (s : State) : Out :=
  storeOp z o d none (accGeneric .store z) s
/-- LDG (14 R302, R304). -/
def execLdg (z : Size) (o : MOpnd) (d : Sys2Proof.Disp) (f : Bool) (s : State) : Out :=
  loadOp z o d f none (accGlobal .load z) s
/-- STG (14 R302, R304). -/
def execStg (z : Size) (o : MOpnd) (d : Sys2Proof.Disp) (s : State) : Out :=
  storeOp z o d none (accGlobal .store z) s
/-- LDS (14 R302, R306). -/
def execLds (z : Size) (o : MOpnd) (d : Sys2Proof.Disp) (f : Bool) (s : State) : Out :=
  loadOp z o d f (some 0x17) (accSpace .core z) s
/-- STS (14 R302, R306). -/
def execSts (z : Size) (o : MOpnd) (d : Sys2Proof.Disp) (s : State) : Out :=
  storeOp z o d (some 0x17) (accSpace .core z) s
/-- LDC (14 R302, R306). -/
def execLdc (z : Size) (o : MOpnd) (d : Sys2Proof.Disp) (f : Bool) (s : State) : Out :=
  loadOp z o d f (some 0x17) (accSpace .cluster z) s
/-- STC (14 R302, R306). -/
def execStc (z : Size) (o : MOpnd) (d : Sys2Proof.Disp) (s : State) : Out :=
  storeOp z o d (some 0x17) (accSpace .cluster z) s
/-- LDL (14 R302, R306). -/
def execLdl (z : Size) (o : MOpnd) (d : Sys2Proof.Disp) (f : Bool) (s : State) : Out :=
  loadOp z o d f (some 0x17) (accSpace .lane z) s
/-- STL (14 R302, R306). -/
def execStl (z : Size) (o : MOpnd) (d : Sys2Proof.Disp) (s : State) : Out :=
  storeOp z o d (some 0x17) (accSpace .lane z) s
/-- LDX (14 R302). -/
def execLdx (z : Size) (o : MOpnd) (d : Sys2Proof.Disp) (f : Bool) (s : State) : Out :=
  loadOp z o d f none (accSpace .chip z) s
/-- STX (14 R302). -/
def execStx (z : Size) (o : MOpnd) (d : Sys2Proof.Disp) (s : State) : Out :=
  storeOp z o d none (accSpace .chip z) s

/-! ## STQ (14 R307 to R309). -/

/-- STQC.BF: the source is BF16. -/
def stqBf (c : W64) : Bool := field c.toNat 20 1 == 1
/-- Values of a thread. -/
def stqN (c : W64) : Nat := if stqBf c then 4 else 2
/-- The exact value of a source sub-element. -/
def stqVal (c x : W64) (e : Nat) : Fp :=
  if stqBf c then bf16.dec (sub_ 16 x e) else fp32.dec (sub_ 32 x e)
/-- Reason 4: Q6 does not go with an FP32 source (14 R309). -/
def stqSame (c : W64) (fr : List W32) : Except Fail Unit :=
  if !stqBf c && frFmt fr == 1 then .error (frameFail (c &&& 0xFFFFF) 0 4) else .ok ()
/-- The largest power of two that divides the run length. -/
def stqAlign (m : Nat) : Nat :=
  match m with
  | 1 => 1
  | 2 => 2
  | 3 => 1
  | 4 => 4
  | _ => 2
/-- STQ's codes for a thread (14 R308). -/
def stqCodes (s : State) (core : Nat) (fr : List W32) (c x : W64) (i : Nat) (js : List Nat) : List Int :=
  js.zipIdx.map fun e =>
    quantise (frFmt fr) (frameScaleByte s core fr i e.1).toNat (s.frameD core fr i e.1) (stqVal c x e.2)
/-- STQ, with its coordinates given (14 R308, R309). -/
def stqOp (s : State) (vs : List VReg) (m : MReg) (words : Nat) (a b : VReg) (c : SReg) (disp : W64)
    (at_ : Group → Nat → Nat → Nat × List Nat) : Out :=
  vector s (a :: b :: vs) (some 0x17) [useS c] m words fun s ts =>
    let cw := s.g.sGet c
    let n := stqN cw
    framed s ts (cw &&& 0xFFFFF) (stqSame cw) true (at_ s.g n) fun s core fr =>
      let len := qRunBytes (frFmt fr) n
      let ea (t : Nat) : W64 := s.g.vGet b t + disp
      let acc (t : Nat) := genericAcc s s.who t .store (ea t) len (stqAlign len)
      checkThreads s false ts (fun t => failOf (acc t)) <|
        let l := ts.map fun t =>
          let p := at_ s.g n t
          (ea t, accD (acc t), BitVec.ofNat 64 (leNat (qPack (frFmt fr)
            (stqCodes s core fr cw (s.g.vGet a t) p.1 p.2))))
        let s := (s.settle (l.flatMap fun x => x.2.1.keys)).fillTlbs (l.map fun x => (x.1, x.2.1))
        .next ((storeThreads s l).retire words)
/-- STQ: view element (0, n·t + e) (14 R307). -/
def execStq (a b : VReg) (c : SReg) (s : State) : Out :=
  stqOp s [] 0 1 a b c 0 fun _ n t => (0, from_ (n * t) n)
/-- STQ with coordinates (14 R307). -/
def execStqCoord (m : MReg) (a b : VReg) (c : SReg) (d : VReg) (v : W32) (s : State) : Out :=
  stqOp s [d] m 3 a b c (sext64 v) fun g n t =>
    (coordI (g.vGet d t), from_ (coordJ (g.vGet d t)) n)

/-! ## PFG, SPTEST, SPCAST (14 R310, R311). -/

/-- Queue a translation, unless it is cached; one that names the page of a pending miss joins it (04 R74). -/
def State.queueWalk (s : State) (w : Who) (off : Nat) : State :=
  if w.tlbs.any fun n => (s.cached w.ctx off n).isSome then s
  else
    let same (x : Walk) : Bool := x.ctx == w.ctx && x.off / 2 ^ 16 == off / 2 ^ 16
    let join (x : Walk) : Walk := { x with tlbs := x.tlbs ++ w.tlbs.filter fun n => !x.tlbs.contains n }
    if s.walks.any same then { s with walks := modFirst same join s.walks }
    else { s with walks := s.walks ++ [{ tlbs := w.tlbs, ctx := w.ctx, off := off }] }
/-- Prefetch the line of one address; anything that fails is dropped (14 R310). -/
def State.prefetch (s : State) (llc : Bool) (a : W64) : State :=
  match genericAcc s s.who 0 .prefetch a 1 1 with
  | .error _ => s
  | .ok acc =>
    if !acc.glob || s.cutAny s.g.unit acc.keys then s
    else
      let s := s.queueWalk s.who (a.toNat % 2 ^ 53)
      let k := acc.place.key
      let l := lineOf k
      if !s.here k then s.askLine (unitCode s.g.unit) (lineOf (k - regionBase 5)) false
      else if llc then s
      else
        match s.g.unit with
        | .damper _ _ => s
        | .core c _ =>
          if ((s.core c).hit l s.g.gts).isSome then s
          else s.modCore c fun x => { x with
            missQ := x.missQ ++ [{ line := l, gts := s.g.gts, ctx := s.g.ctx, off := a.toNat % 2 ^ 53 }] }
/-- PFG (14 R310). -/
def pfgOp (s : State) (llc : Bool) (o : POpnd) (f : DForm) : Out :=
  let mo := poMo o
  let go (s : State) (ts : List Nat) : Out :=
    .next ((foldL (fun s t => s.prefetch llc (moBase s.g t mo + dDisp f)) s ts).retire (dWords f))
  match o with
  | .u b => uniform s none none [useS b] fun s => go s [0]
  | .v b => vector s [b] none [] (dMask f) (dWords f) go
/-- PFG for the L1 and the local slice (14 R310). -/
def execPfg (o : POpnd) (f : DForm) (s : State) : Out := pfgOp s false o f
/-- PFG.llc (14 R310). -/
def execPfgLlc (o : POpnd) (f : DForm) (s : State) : Out := pfgOp s true o f

/-- SPTEST and SPCAST: one source, one destination, either kind of register (14 R311). -/
def spOp (s : State) (o : MOpnd) (f : VForm) (val : State → W64 → W64) : Out :=
  memInstr s o (vMask f) (vWords f) none fun s ts =>
    .next (s.setG ((s.g.retire (vWords f)).writeAll
      (ts.map fun t => (moDest t o, val s (moBase s.g t o)))))
/-- SPTEST (02 R39). -/
def execSptest (o : MOpnd) (f : VForm) (s : State) : Out := spOp s o f fun s a => sptestOf s s.who a
/-- SPCAST.g (02 R40). -/
def execSpcastG (o : MOpnd) (f : VForm) (c : Space) (s : State) : Out :=
  spOp s o f fun s x => spcastGOf s.who c x
/-- SPCAST.s (02 R40). -/
def execSpcastS (o : MOpnd) (f : VForm) (c : Space) (s : State) : Out :=
  spOp s o f fun s x => spcastSOf s.who c x

end Sys2Proof.Machine
end

