-- ==== Sys2Proof/Machine/Atomic.lean ====
section
/-!
DEFINITION. The atomics (14 R312 to R314, 05 R105, R106, R116).
-/
namespace Sys2Proof.Machine

/-- What an atomic does, and how its instruction waits. -/
structure AtomKind where
  op : AtomOp
  z : ASize
  ret : Bool
  uni : Bool
  ord : Ord
  scope : Scope
  words : Nat
  /-- TCLAIM.clu: the value goes to the cluster's delivery queues (08 R191). -/
  clu : Bool := false
  deriving DecidableEq, Repr
/-- One thread's update: its address, operands, destination and access. -/
structure AtomReq where
  t : Nat
  ea : W64
  c : W64
  d : W64
  dest : Dest
  acc : Acc
  deriving DecidableEq, Repr
/-- The ordering has a release part (05 R105). -/
def ordRel : Ord → Bool
  | .rel | .ar => true
  | _ => false
/-- The ordering has an acquire part (05 R105). -/
def ordAcq : Ord → Bool
  | .acq | .ar => true
  | _ => false
/-- The access of an atomic: the checks in the order of 14 R314; window 0xF is refused (03 R46). -/
def atomAcc (s : State) (z : ASize) (a : W64) : Except Fail Acc :=
  windowAcc s s.who .rmw (fun n => n != 0xF) a (asizeBytes z) (asizeBytes z)
/-- Send one thread's atomic on its way to its home; the private bytes it overlaps go with it (05 R106, R116). -/
def State.sendAtomic (s : State) (x : AtomKind) (pend : Option Nat) (after : List Nat) (r : AtomReq) : State :=
  let g := s.g
  let own := if r.acc.glob then g.takeOwn (span r.acc.place.key (asizeBytes x.z)) else (g, [])
  let h : HomeOp :=
    { act := .rmw x.op x.z r.c r.d, place := r.acc.place, addr := r.ea, ctx := g.ctx, gid := g.gid
      pend := pend, dest := pend.map fun _ => r.dest, red := !x.ret, tag := s.nextTag (unitCode g.unit)
      after := after, own := own.2, det := g.det.isSome }
  ((s.setG own.1).queueOp h).tagged
/-- Send every thread's atomic, in ascending thread order (14 R314). -/
def State.sendAtomics (s : State) (x : AtomKind) (pend : Option Nat) (after : List Nat) : List AtomReq → State
  | [] => s
  | r :: l => (s.sendAtomic x pend after r).sendAtomics x pend after l

/-- The groups that a cluster claim is delivered to: those of the launch in the cluster (08 R191). A saved one keeps its queue
(10 R231). -/
def State.recipients (s : State) (launch clus : Nat) : List Group :=
  s.everyGroup.filter fun g => g.launch == launch &&
    (match unitCore g.unit with
     | some c => s.sys.fuse.clusterOf c == clus
     | none => false)
/-- A cluster claim that is issued takes a place among the deliveries (08 R191). -/
def State.claimOpen (s : State) (x : AtomKind) (pend : Nat) : State :=
  if !x.clu then s
  else
    let clus := s.sys.fuse.clusterOf (unitCoreN s.g.unit)
    let e : Delivery :=
      { launch := s.g.launch, clus := clus, gids := (s.recipients s.g.launch clus).map (·.gid), gid := s.g.gid, pend := pend
        val := none }
    { s with disp := { s.disp with deliveries := s.disp.deliveries ++ [e] } }
/-- An atomic that the instruction waits for: once every value is there, the acquire part, then the result.
Without a flag, poison traps in the precise form (10 R460). -/
def finishAtomic (s : State) (x : AtomKind) (p : Pend) : Out :=
  let done (s : State) : Out :=
    match findFirst (fun q => q.id == p.id) s.g.pend with
    | none => .next (s.retire x.words)
    | some q =>
      if q.flag.isSome then
        .next ((s.setG { s.g with
          pend := modFirst (fun r => r.id == q.id) (fun r => { r with sync := false }) s.g.pend }).retire x.words)
      else if q.poisoned then
        s.entering fun s =>
          (s.setG { s.g with pend := dropFirst (fun r => r.id == q.id) s.g.pend }).raiseAt 0x30 q.addr 0
            q.psnThread q.psnMask
      else .next ((s.setG (s.g.retirePend q)).retire x.words)
  let s := s.settleOwn
  match findFirst (fun q => q.id == p.id) s.g.pend with
  | none => done s
  | some q =>
    if !q.ready then s.blockOn .result
    else if ordAcq x.ord then acquiring s done
    else done s
/-- The poisoned threads of an atomic whose homes are all here and can answer, if it is to trap before it writes anything
(10 R217, R460). -/
def poisonedThreads (s : State) (n : Nat) (l : List AtomReq) : List AtomReq :=
  l.filter fun e =>
    let ks := span e.acc.place.key n
    !isPeerKey e.acc.place.key && !s.unsettled ks && (s.wantWrite ks).isNone && !ks.any (s.heldFor s.g) &&
    (s.cutAny s.g.unit ks ||
      s.rmwPoisoned ks (ks.map fun k => if e.acc.glob then s.carriedByte s.g.gid k else none))
/-- Issue an atomic: the release part, then each thread's update. -/
def issueAtomic (s : State) (x : AtomKind) (flag : Option Nat) (l : List AtomReq) : Out :=
  let go (s : State) : Out :=
    let s := s.fillTlbs (l.map fun e => (e.ea, e.acc))
    let ks := l.flatMap fun e => e.acc.keys
    let s := (s.settle ks).drainBefore ((l.filter fun e => !e.acc.glob).flatMap fun e => e.acc.keys)
    let precise := x.ret && flag.isNone
    let s := if precise then s.widen (unitCore s.g.unit) ((l.filter fun e => e.acc.glob).flatMap fun e => e.acc.keys) else s
    let bad := poisonedThreads s (asizeBytes x.z) l
    let first := (l.map (·.ea)).headD 0
    let after := s.g.unread
    if precise && !bad.isEmpty then
      s.raiseAt 0x30 ((bad.map (·.ea)).headD 0) 0 (if x.uni then 0xFF else (bad.map (·.t)).headD 0)
        (if x.uni then 0 else threadMask (bad.map (·.t)))
    else
      let sync := s.g.det.isSome || ordAcq x.ord || precise || x.clu
      if x.ret || sync then
        let id := s.nextId
        let s := s.await flag first (l.map (·.dest))
        let s := s.setG { s.g with
          pend := modFirst (fun p => p.id == id) (fun p => { p with sync := sync }) s.g.pend }
        let s := (s.claimOpen x id).sendAtomics x (some id) after l
        if sync then
          match findFirst (fun q => q.id == id) s.g.pend with
          | some p => finishAtomic s x p
          | none => .next (s.retire x.words)
        else .next (s.retire x.words)
      else .next ((s.sendAtomics x none after l).retire x.words)
  if ordRel x.ord then releasing s x.scope go else go s
/-- An atomic once its accesses are known. -/
def runAtomic (s : State) (x : AtomKind) (f : Bool) (accs : State → List AtomReq) : Out :=
  let l := accs s
  if x.ret then withFlag s f fun s flag => issueAtomic s x flag l else issueAtomic s x none l

/-- An atomic instruction: its operation, registers and attributes, and whether it returns the old value. -/
structure AtomIns where
  op : AtomOp
  regs : AtomRegs
  attr : AtomAttr
  ret : Bool
  deriving DecidableEq, Repr
/-- The effective address in a thread. -/
def AtomIns.ea (x : AtomIns) (g : Group) (t : Nat) : W64 :=
  x.regs.val g x.regs.addr t + sext64 x.attr.imm
/-- What it does. -/
def AtomIns.kind (x : AtomIns) : AtomKind :=
  { op := x.op, z := x.attr.size, ret := x.ret, uni := x.regs.uni, ord := x.attr.ord, scope := x.attr.scope
    words := 3 }
/-- What a thread of a RED that must be waited for fills: no register. -/
def noDest (t : Nat) : Dest := .s (64 * (t + 1))
/-- The updates of an atomic's threads, its checks passed. -/
def atomReqs (x : AtomIns) (ts : List Nat) (s : State) : List AtomReq :=
  ts.map fun t =>
    { t := t, ea := x.ea s.g t, c := x.regs.val s.g x.regs.opnd t, d := x.regs.val s.g x.regs.new_ t
      dest := if x.ret then x.regs.target t else noDest t, acc := accD (atomAcc s x.attr.size (x.ea s.g t)) }
/-- An atomic instruction (14 R312 to R314). -/
def atomOp (x : AtomIns) (f : Bool) (s : State) : Out :=
  let run (s : State) (ts : List Nat) : Out :=
    inTurn s fun s =>
      match s.syncPend with
      | some p => finishAtomic s x.kind p
      | none =>
        checkThreads s x.regs.uni ts (fun t => failOf (atomAcc s x.attr.size (x.ea s.g t))) <|
          runAtomic s x.kind f (atomReqs x ts)
  if x.regs.uni then uniform s none none x.regs.named fun s => run s [0]
  else vector s x.regs.vregs none [] x.attr.mask 3 run

/-- An ATOM. -/
def atomIns (op : AtomOp) (o : AOpnd) (t : AtomAttr) : AtomIns := ⟨op, aoRegs o, t, true⟩
/-- A RED. -/
def redIns (op : AtomOp) (o : ROpnd) (t : AtomAttr) : AtomIns := ⟨op, redRegs o, t, false⟩

/-- ATOM.add (14 R313). -/
def execAtomAdd (o : AOpnd) (t : AtomAttr) (f : Bool) (s : State) : Out := atomOp (atomIns .add o t) f s
/-- ATOM.and (14 R313). -/
def execAtomAnd (o : AOpnd) (t : AtomAttr) (f : Bool) (s : State) : Out := atomOp (atomIns .and o t) f s
/-- ATOM.or (14 R313). -/
def execAtomOr (o : AOpnd) (t : AtomAttr) (f : Bool) (s : State) : Out := atomOp (atomIns .or o t) f s
/-- ATOM.xor (14 R313). -/
def execAtomXor (o : AOpnd) (t : AtomAttr) (f : Bool) (s : State) : Out := atomOp (atomIns .xor o t) f s
/-- ATOM.min (14 R313). -/
def execAtomMin (o : AOpnd) (t : AtomAttr) (f : Bool) (s : State) : Out := atomOp (atomIns .min o t) f s
/-- ATOM.max (14 R313). -/
def execAtomMax (o : AOpnd) (t : AtomAttr) (f : Bool) (s : State) : Out := atomOp (atomIns .max o t) f s
/-- ATOM.xchg (14 R313). -/
def execAtomXchg (o : AOpnd) (t : AtomAttr) (f : Bool) (s : State) : Out := atomOp (atomIns .xchg o t) f s
/-- ATOM.incwrap (14 R313). -/
def execAtomIncwrap (o : AOpnd) (t : AtomAttr) (f : Bool) (s : State) : Out :=
  atomOp (atomIns .incwrap o t) f s
/-- ATOM.fadd (14 R313). -/
def execAtomFadd (o : AOpnd) (t : AtomAttr) (f : Bool) (s : State) : Out := atomOp (atomIns .fadd o t) f s
/-- ACAS (14 R313). -/
def execAcas (o : CasOpnd) (t : AtomAttr) (f : Bool) (s : State) : Out :=
  atomOp ⟨.cas, casRegs o, t, true⟩ f s
/-- RED.add (14 R313). -/
def execRedAdd (o : ROpnd) (t : AtomAttr) (s : State) : Out := atomOp (redIns .add o t) false s
/-- RED.fadd (14 R313). -/
def execRedFadd (o : ROpnd) (t : AtomAttr) (s : State) : Out := atomOp (redIns .fadd o t) false s
/-- RED.min (14 R313). -/
def execRedMin (o : ROpnd) (t : AtomAttr) (s : State) : Out := atomOp (redIns .min o t) false s
/-- RED.max (14 R313). -/
def execRedMax (o : ROpnd) (t : AtomAttr) (s : State) : Out := atomOp (redIns .max o t) false s

end Sys2Proof.Machine
end

