-- ==== Sys2Proof/Machine/Control.lean ====
section
/-!
DEFINITION. Clause headers, transfers, housekeeping and the trap instructions (11 R242 to R244, 12 R255 to
R264), and the two ways a fetch ends in an exception (11 R245, R250).
-/
namespace Sys2Proof.Machine

/-- CLAUSE (11 R242, R243): waits for the flags of its mask, then governs what follows. -/
def execClause (wait : BitVec 12) (fa fb : FlagSel) (_hot _last _stream : Bool) (s : State) : Out :=
  let go (s : State) : Out :=
    .next (s.setG { (s.g.retire 1) with hdr := s.g.pc, fa := fa, fb := fb })
  if s.g.flagsBusy wait then
    let s := s.writeback
    if s.g.flagsBusy wait then s.blockOn (.flags wait) else go s
  else go s
/-- WAITF (12 R255). -/
def execWaitf (mask : BitVec 12) (s : State) : Out :=
  if s.g.flagsBusy mask then
    let s := s.writeback
    if s.g.flagsBusy mask then s.blockOn (.flags mask) else .next (s.retire 1)
  else .next (s.retire 1)
/-- NOP (12 R255). -/
def execNop (s : State) : Out := .next (s.retire 1)
/-- NOP with a tag, which is ignored (12 R255). -/
def execNopTag (f : NopForm) (s : State) : Out :=
  .next (s.retire (match f with
    | .lit _ => 2
    | .three => 3))
/-- YIELD (12 R256): gts rises to PCLK, but in a deterministic context; the group is passed over once. -/
def execYield (s : State) : Out :=
  let s := s.retire 1
  .next (s.setG { s.g with
    gts := if s.g.det.isSome then s.g.gts else Nat.max s.g.gts s.pclk, yielded := true })

/-- The target of a transfer with a literal (12 R257). -/
def target (g : Group) (off : W32) : W64 := g.pc + sext64 off
/-- BR (12 R257, R258). -/
def execBr (off : W32) (s : State) : Out := transfer s (target s.g off) id
/-- BRC (12 R258). -/
def execBrc (cond : Cond) (a b : SReg) (off : W32) (s : State) : Out :=
  stalled s [useS a, useS b] fun s =>
    if condHolds cond 64 (s.g.sGet a).toNat (s.g.sGet b).toNat then transfer s (target s.g off) id
    else .next (s.retire 2)
/-- BRM (12 R258). -/
def execBrm (cond : MCond) (a : MReg) (off : W32) (s : State) : Out :=
  if mcondHolds cond (s.g.mGet a) s.g.present then transfer s (target s.g off) id
  else .next (s.retire 2)
/-- JMP (12 R258). -/
def execJmp (a : SReg) (s : State) : Out :=
  stalled s [useS a] fun s => transfer s (s.g.sGet a) id
/-- CALL (12 R258): the link is written once the transfer succeeds. -/
def execCall (a : SReg) (off : W32) (s : State) : Out :=
  stalled s [useS a] fun s => transfer s (target s.g off) fun g => g.sSet a (s.g.pc + 8)
/-- RET (12 R258). -/
def execRet (a : SReg) (s : State) : Out :=
  stalled s [useS a] fun s => transfer s (s.g.sGet a) id
/-- LOOP (12 R261). -/
def execLoop (a : SReg) (off : W32) (s : State) : Out :=
  stalled s [useS a] fun s =>
    if 1 < (s.g.sGet a).toNat then
      transfer s (target s.g off) fun g => g.sSet a (s.g.sGet a - 1)
    else .next (s.setG ((s.g.retire 2).sSet a 0))

/-- An exception whose instruction has completed: TRAP_PC is the next instruction (10 R216). -/
def nextTrap (s : State) (cause : Nat) (info : W64) : Out :=
  s.entering fun s =>
  let pc := s.g.pc
  let s := s.retire 1
  .next (s.trap { cause := cause, addr := pc, info := info, pc := s.g.pc })
/-- TRAP (12 R264). -/
def execTrap (code : BitVec 12) (s : State) : Out := nextTrap s 0x21 (code.setWidth 64)
/-- BKPT (12 R264). -/
def execBkpt (s : State) : Out := nextTrap s 0x22 0
/-- An array that its pre-emption froze resumes at TRET (10 R229); one frozen by MFREEZE stays. -/
def State.thawAtTret (s : State) : State :=
  match unitCore s.g.unit with
  | none => s
  | some c =>
    let x := s.arr (c / 2)
    if x.holder = some s.g.gid && x.frozen && !x.manual then s.setArr (c / 2) { x with frozen := false }
    else s
/-- TRET (10 R219, R220, 12 R264). -/
def execTret (s : State) : Out :=
  checked s [] (if s.g.handler || s.g.ufwd then none else some 3) (some 0x17)
    (let h := s.g.trapHdr
     if h.toNat % 4 ≠ 0 ∨ h.toNat ≥ 2 ^ 63 then s.raise 0x04 h 0
     else
       match fetchWord s h with
       | .absent l => (s.getLine (unitCode s.g.unit) l false).blockOn (.peer l)
       | .fail e => (s.dropFetched e.cause h).raise e.cause h e.info
       | .word w =>
         match headerFlags w with
         | none => s.raise 0x04 h 0
         | some (fa, fb) =>
           let s := if s.g.handler then s.thawAtTret else s
           let g := if s.g.handler then s.g else { s.g with retired := s.g.retired + 1 }
           .next (s.setG { (g.trapReturn fa fb) with block := none }))

/-- A base word that checks 2 or 4 refuse (11 R245, R250): ILLEGAL_INSTRUCTION. -/
def execUnassignedEncoding (info : W64) (s : State) : Out := s.illegal info
/-- A fetch that faults (11 R245, 04 R76): TRAP_PC is the instruction's base word, TRAP_ADDR the word
that was fetched. -/
def execInstructionFetchFault (cause : BitVec 8) (addr info : W64) (s : State) : Out :=
  s.raise cause.toNat addr info

end Sys2Proof.Machine
end

