-- ==== Sys2Proof/Machine/CrossThread.lean ====
section
/-!
DEFINITION. Cross-thread instructions (13 R296 to R301, 06 R131).
-/
namespace Sys2Proof.Machine

/-- Element of flat index L of a register, as it stands (13 R296). -/
def flatElem (g : Group) (w : Nat) (b : VReg) (L : Nat) : Nat :=
  sub_ w (g.vGet b (L / (64 / w))) (L % (64 / w))
/-- The active elements' flat indices, ascending (13 R296). -/
def activeElems (w : Nat) (ts : List Nat) : List Nat := ts.flatMap fun t => from_ (64 / w * t) (64 / w)
/-- Write a value for every flat index of the active threads (13 R296). -/
def Group.setFlat (g : Group) (w : Nat) (a : VReg) (ts : List Nat) (val : Nat → Nat) : Group :=
  g.vSets a (ts.map fun t => (t, joinSubs w ((from_ (64 / w * t) (64 / w)).map val)))

/-- XSEL, XSHF, XROT: each active element takes the element of some index, or 0. In a section an index of
another thread raises SECTION_ILLEGAL (13 R297, R301). -/
def moveElems (s : State) (vs : List VReg) (uses : List Nat) (z : Size) (f : VForm) (a b : VReg)
    (idx : Group → Nat → Option Nat) : Out :=
  vector s (a :: b :: vs) none uses (vMask f) (vWords f) fun s ts =>
    let w := zw z
    let n := 64 / w
    let g := s.g
    let foreign := (activeElems w ts).any fun L => match idx g L with
      | some j => decide (n ≤ j)
      | none => false
    if g.isSection && foreign then s.raise 0x17 0 0
    else
      .next (s.setG ((g.retire (vWords f)).setFlat w a ts fun L =>
        match idx g L with
        | some j => flatElem g w b j
        | none => 0))
/-- XSEL (13 R297). -/
def execXsel (z : Size) (f : VForm) (a b : VReg) (c : VC) (s : State) : Out :=
  moveElems s (vcRegs c) [] z f a b fun g L =>
    let w := zw z
    let j := sub_ w (vcVal g w (L / (64 / w)) c) (L % (64 / w))
    if j < 32 * (64 / w) then some j else none
/-- XSHF (13 R297). -/
def execXshf (z : Size) (f : VForm) (a b : VReg) (c : XC) (s : State) : Out :=
  moveElems s [] (xcUses c) z f a b fun g L =>
    let j : Int := L - xcVal g c
    if 0 ≤ j ∧ j < (32 * (64 / zw z) : Nat) then some j.toNat else none
/-- XROT (13 R297). -/
def execXrot (z : Size) (f : VForm) (a b : VReg) (c : XC) (s : State) : Out :=
  moveElems s [] (xcUses c) z f a b fun g L =>
    some (((L : Int) - xcVal g c) % (32 * (64 / zw z) : Nat)).toNat
/-- XBFLY (13 R297, R301). -/
def execXbfly (z : Size) (f : VForm) (a b : VReg) (p : Fin 8) (s : State) : Out :=
  vector s [a, b] (if 2 ^ p.val < 64 / zw z then none else some 0x17) [] (vMask f) (vWords f) fun s ts =>
    .next (s.setG ((s.g.retire (vWords f)).setFlat (zw z) a ts fun L =>
      flatElem s.g (zw z) b (L ^^^ 2 ^ p.val)))

/-- The combining operations of XRED and XSCAN (13 R298). -/
def redApply (op : RedOp) (w a b : Nat) : Nat :=
  match op with
  | .add => (a + b) % 2 ^ w
  | .adds => clampI w (toInt w a + toInt w b)
  | .min => if toInt w b < toInt w a then b else a
  | .max => if toInt w a < toInt w b then b else a
  | .minu => if b < a then b else a
  | .maxu => if a < b then b else a
  | .and => a &&& b
  | .or => a ||| b
  | .xor => a ^^^ b
  | .fadd => fadd32 a b
  | .fmin => fp32.enc ((fp32.dec a).min_ (fp32.dec b))
  | .fmax => fp32.enc ((fp32.dec a).max_ (fp32.dec b))
/-- Scan identities (13 R298). -/
def redIdentity (op : RedOp) (w : Nat) : Nat :=
  match op with
  | .min => 2 ^ (w - 1) - 1
  | .max => 2 ^ (w - 1)
  | .minu | .and => 2 ^ w - 1
  | .fmin => fp32.infBits false
  | .fmax => fp32.infBits true
  | _ => 0
/-- One level of the canonical tree: each rank with its partner one place on (06 R131). -/
def treeLevel {α : Type} (op : α → α → α) : List α → List α
  | a :: b :: r => op a b :: treeLevel op r
  | l => l
/-- The canonical tree; fuel bounds the levels (06 R131). -/
def treeFold {α : Type} (op : α → α → α) : Nat → List α → List α
  | 0, l => l
  | n + 1, l => treeFold op n (treeLevel op l)
/-- The canonical reduction of a list that is not empty (06 R131). -/
def canonical {α : Type} (op : α → α → α) (l : List α) (d : α) : α := (treeFold op l.length l).headD d

/-- XRED (13 R298). -/
def execXred (op : RedOp) (z : Size) (f : VForm) (a b : VReg) (s : State) : Out :=
  vector s [a, b] none [] (vMask f) (vWords f) fun s ts =>
    let w := zw z
    let r := canonical (redApply op w) ((activeElems w ts).map (flatElem s.g w b)) 0
    .next (s.setG ((s.g.retire (vWords f)).vSets a (ts.map fun t => (t, splat w r))))

/-- The running values of a scan, exclusive or inclusive (13 R299). -/
def scanVals (op : RedOp) (w : Nat) (x : Bool) : Option Nat → List Nat → List Nat
  | _, [] => []
  | acc, e :: r =>
    if x then acc.getD 0 :: scanVals op w x (some (redApply op w (acc.getD 0) e)) r
    else
      let v := match acc with
        | none => e
        | some v => redApply op w v e
      v :: scanVals op w x (some v) r
/-- XSCAN (13 R299). -/
def execXscan (op : RedOp) (x : Bool) (z : Size) (f : VForm) (a b : VReg) (s : State) : Out :=
  vector s [a, b] none [] (vMask f) (vWords f) fun s ts =>
    let w := zw z
    let n := 64 / w
    let vals := scanVals op w x (if x then some (redIdentity op w) else none)
      ((activeElems w ts).map (flatElem s.g w b))
    .next (s.setG ((s.g.retire (vWords f)).vSets a (ts.zipIdx.map fun p =>
      (p.1, joinSubs w ((vals.drop (n * p.2)).take n)))))
/-- XBAL (13 R300). -/
def execXbal (_z : Size) (f : VForm) (a : MReg) (b : VReg) (s : State) : Out :=
  vmask s [b] f a fun s t => decide (s.g.vGet b t ≠ 0)

end Sys2Proof.Machine
end

