-- ==== Sys2Proof/Machine/Array.lean ====
section
/-!
DEFINITION. The residue array of a pair: its stages, its freeze, and what it shows of itself (07 R159 to
R164, 10 R227 to R229, 15 R330, R335 to R337, R343).
-/
namespace Sys2Proof.Machine

/-! ## An MMA's parameters (15 R332). -/

/-- Parameter word n of an MMA. -/
def Mma.w (x : Mma) (n : Nat) : Nat := (x.p.getD n 0).toNat
/-- MMA.AOFF. -/
def Mma.aoff (x : Mma) : Nat := field (x.w 0) 0 20
/-- Rows computed. -/
def Mma.rows (x : Mma) : Nat := field (x.w 0) 20 7 + 1
/-- MMA.AFMT. -/
def Mma.afmt (x : Mma) : Nat := field (x.w 0) 27 3
/-- MMA.AFRAME. -/
def Mma.aoffFrame (x : Mma) : Nat := field (x.w 1) 0 20
/-- MMA.KCODE. -/
def Mma.kcode (x : Mma) : Nat := field (x.w 1) 20 2
/-- K. -/
def Mma.K (x : Mma) : Nat := 32 * 2 ^ x.kcode
/-- MMA.ACC. -/
def Mma.acc (x : Mma) : Nat := field (x.w 1) 22 1
/-- MMA.MODE. -/
def Mma.mode (x : Mma) : Nat := field (x.w 1) 23 2
/-- MMA.BOFF. -/
def Mma.boff (x : Mma) : Nat := field (x.w 2) 0 16
/-- MMA.BFMT. -/
def Mma.bfmt (x : Mma) : Nat := field (x.w 2) 27 3
/-- MMA.BFRAME. -/
def Mma.boffFrame (x : Mma) : Nat := field (x.w 3) 0 20
/-- First column, and how many (MMA.COLS). -/
def Mma.cols (x : Mma) : Nat × Nat :=
  match field (x.w 3) 20 2 with
  | 0 => (0, 256)
  | 1 => (0, 128)
  | _ => (128, 128)
/-- Output (r, c) is one that the MMA computes. -/
def Mma.computes (x : Mma) (r c : Nat) : Bool :=
  decide (r < x.rows) && decide (x.cols.1 ≤ c) && decide (c < x.cols.1 + x.cols.2)
/-- Bytes of a row of A (15 R335). -/
def Mma.rb (x : Mma) : Nat := qRunBytes x.afmt x.K
/-- Operands whose frame is dithered (07 R163). -/
def Mma.ndith (x : Mma) : Nat :=
  (if frDith x.aframe then 1 else 0) + if frDith x.bframe then 1 else 0

/-! ## Operand reads (15 R335, 07 R151, R159). -/

/-- Code of element (i, k) of A, and whether its bytes are poisoned: as it was read ahead, else as the scratchpad holds it
(15 R336). -/
def Mma.aCode (x : Mma) (s : State) (lead i k : Nat) : Int × Bool :=
  match tblGet none x.aread (256 * i + k) with
  | some e => e
  | none =>
    let at_ (b : Nat) : Nat := keyCore lead (x.aoff + i * x.rb + b)
    (qElem x.afmt (fun b => s.byte (at_ b)) k, (qSpan x.afmt k).any fun b => s.psn (at_ b))
/-- A byte of a B-store: as it was read ahead, else as the store holds it (03 R62). -/
def Mma.bByte (x : Mma) (s : State) (k : Nat) : Byte × Bool :=
  match tblGet none x.bread k with
  | some e => e
  | none => (s.byte k, s.psn k)
/-- Location of byte b of column n of B. -/
def Mma.bKey (x : Mma) (lead n b : Nat) : Nat := keyB (lead + n / 128) (n % 128) (x.boff + b)
/-- Port value of element (i, k) of A. -/
def Mma.aPort (x : Mma) (s : State) (lead i k : Nat) : Int :=
  portValue (x.aCode s lead i k).1 (frD x.aframe (x.aidx.getD i 0) (BitVec.ofNat 32 i) (BitVec.ofNat 32 k))
    (frDith x.aframe)
/-- Port value of element (k, n) of B. -/
def Mma.bPort (x : Mma) (s : State) (lead k n : Nat) : Int :=
  let q := qElem x.bfmt (fun b => (x.bByte s (x.bKey lead n b)).1) k
  portValue q (frD x.bframe (x.bidx.getD k 0) (BitVec.ofNat 32 k) (BitVec.ofNat 32 n)) (frDith x.bframe)
/-- Residues of output (i, n) after steps k0 to k1 - 1 (07 R160). -/
def Mma.sum (x : Mma) (s : State) (lead i n k0 k1 : Nat) (r : W64) : W64 :=
  packRes (foldL (fun r k => accRes r (x.aPort s lead i k) (x.bPort s lead k n)) (unpackRes r)
    (from_ k0 (k1 - k0)))
/-- The residue tile after steps k0 to k1 - 1 (15 R335). -/
def Mma.tile (x : Mma) (s : State) (lead k0 k1 : Nat) (old : List (Nat × W64)) : List (Nat × W64) :=
  tabulate 0 32768 fun n =>
    if x.computes (n / 256) (n % 256) then x.sum s lead (n / 256) (n % 256) k0 k1 (tblGet 0 old n) else 0
/-- Rows and columns whose codes of steps k0 to k1 - 1 are read poisoned, added to those that were before (15 R337). -/
def Mma.readPsn (x : Mma) (s : State) (lead k0 k1 : Nat) : Mma :=
  let ks := from_ k0 (k1 - k0)
  { x with
    arowPsn := (x.arowPsn ++ (upTo x.rows).filter fun i => ks.any fun k => (x.aCode s lead i k).2).eraseDups
    bcolPsn := (x.bcolPsn ++ (from_ x.cols.1 x.cols.2).filter fun n =>
      ks.any fun k => (qSpan x.bfmt k).any fun b => (x.bByte s (x.bKey lead n b)).2).eraseDups }

/-! ## The two stages (15 R330). -/

/-- K elements of one step (10 R227): a step consumes two of Q4 and Q6. -/
def Mma.step (x : Mma) : Nat := if x.afmt ≤ 1 ∧ x.bfmt ≤ 1 then 2 else 1
/-- The streaming MMA does its steps up to k1 (15 R335). -/
def State.streamTo (s : State) (pair k1 : Nat) : State :=
  let a := s.arr pair
  match a.stream with
  | none => s
  | some x =>
    s.setArr pair { a with
      stream := some (x.readPsn s (2 * pair) a.kdone k1), kdone := k1
      res := x.tile s (2 * pair) a.kdone k1 a.res }
/-- The array reads some codes of later steps ahead; which ones is free (15 R336, 03 R62; DESIGN CHOICE, log entry 40). -/
def Mma.ahead (x : Mma) (s : State) (lead k d : Nat) : Mma :=
  let as_ := ((upTo x.rows).flatMap fun i => (from_ k (x.K - k)).map fun j => (i, j)).filter fun e =>
    Config.freeRead d (256 * e.1 + e.2) && (tblGet none x.aread (256 * e.1 + e.2)).isNone
  let bs := ((from_ x.cols.1 x.cols.2).flatMap fun n => (upTo (qRunBytes x.bfmt x.K)).map (x.bKey lead n)).filter fun b =>
    Config.freeRead d b && (tblGet none x.bread b).isNone
  { x with
    aread := tblSetMany none x.aread (as_.map fun e => (256 * e.1 + e.2, some (x.aCode s lead e.1 e.2)))
    bread := tblSetMany none x.bread (bs.map fun b => (b, some (s.byte b, s.psn b))) }
/-- The array goes on: some steps are done, and some codes of later ones are read (15 R330, R336; how many is free, DESIGN
CHOICE, log entry 40). -/
def State.streamOn (s : State) (pair : Nat) : State :=
  let a := s.arr pair
  match a.stream with
  | none => s
  | some x =>
    if a.frozen || a.freezing then s
    else
      let d := s.draws
      let s := s.draw.streamTo pair (Nat.min x.K (a.kdone + x.step * (Config.freeKsteps d).toNat))
      let b := s.arr pair
      s.setArr pair { b with stream := b.stream.map fun y => y.ahead s (2 * pair) b.kdone d }
/-- The streaming MMA has done its last step and the conversion stage is empty: it moves there. -/
def State.streamEnd (s : State) (pair : Nat) : State :=
  let a := s.arr pair
  match a.stream with
  | none => s
  | some x =>
    if a.frozen || a.freezing || a.conv.isSome then s
    else
      s.setArr pair { a with
        stream := none, conv := some (x.readPsn s (2 * pair) a.kdone x.K), kdone := 0, res := []
        convRes := x.tile s (2 * pair) a.kdone x.K a.res }
/-- Output element (r, c) after a conversion (07 R163, 15 R335). -/
def Arr.convert (a : Arr) (x : Mma) (r c : Nat) (old : W32) : W32 :=
  let t := unpackRes (tblGet 0 a.convRes (256 * r + c))
  accUpdate x.mode old (crt t.1 t.2.1 t.2.2) (x.ascale.getD r 0).toNat (x.bscale.getD c 0).toNat x.ndith
/-- The converting MMA writes its accumulator, all at once (15 R330, R337). -/
def State.convEnd (s : State) (pair : Nat) : State :=
  let a := s.arr pair
  match a.conv with
  | none => s
  | some x =>
    let mine (k : Nat) : Bool := k / 32768 == x.acc && x.computes (k % 32768 / 256) (k % 256)
    let bad (k : Nat) : Bool := x.arowPsn.contains (k % 32768 / 256) || x.bcolPsn.contains (k % 256)
    let acc := tabulate 0 65536 fun k =>
      if mine k then a.convert x (k % 32768 / 256) (k % 256) (tblGet 0 a.acc k) else tblGet 0 a.acc k
    let psn := tabulate false 65536 fun k =>
      if mine k then bad k || (x.mode != 1 && tblGet false a.accPsn k) else tblGet false a.accPsn k
    let s := s.setArr pair { a with acc := acc, accPsn := psn, conv := none, convRes := [] }
    if x.arowPsn.isEmpty && x.bcolPsn.isEmpty then s
    else s.uncorrectable 7 (s.sys.fuse.dieOf (2 * pair)) (2 * pair) 0 0
/-- Freeze the streaming MMA at its next step boundary, the step in progress included; one whose steps are then done is
not frozen (10 R227, 15 R344). -/
def State.freezeArray (s : State) (pair : Nat) (manual : Bool) : State :=
  let a := s.arr pair
  match a.stream with
  | none => s
  | some x =>
    if a.frozen || decide (x.K ≤ a.kdone) then s.setArr pair { a with freezing := false }
    else
      let s := s.streamTo pair (Nat.min x.K (a.kdone + x.step))
      let b := s.arr pair
      if x.K ≤ b.kdone then s.setArr pair { b with freezing := false }
      else s.setArr pair { b with
        stream := b.stream.map fun y => { y with aread := [], bread := [] }
        frozen := true, manual := manual || a.freezing, freezing := false }
/-- The step boundary at which an accepted MFREEZE takes effect (15 R344). -/
def State.boundary (s : State) (pair : Nat) : State :=
  if (s.arr pair).freezing then s.freezeArray pair true else s
/-- The streaming stage frees itself where it can: an MMA in it has done its steps, and the conversion before it
has ended. -/
def State.freeStream (s : State) (pair : Nat) : State :=
  let s := s.boundary pair
  if (s.arr pair).stream.isNone then s else (s.convEnd pair).streamEnd pair
/-- Bring a pair's array to rest: both stages empty, or a frozen MMA and no conversion (15 R330). -/
def State.runArray (s : State) (pair : Nat) : State := (((s.boundary pair).convEnd pair).streamEnd pair).convEnd pair
/-- The fields that MSTATE and MSTAT share (10 R227, 15 R343). -/
def Arr.status (x : Arr) : Nat :=
  let bit (k : Nat) (b : Bool) : Nat := if b then 2 ^ k else 0
  let m := match x.stream with
    | none => 0
    | some m => 4096 * m.acc + 8192 * m.mode
  x.kdone + bit 9 x.frozen + bit 10 x.manual + bit 11 x.conv.isSome + m
/-- MSTATE of the group's pair (10 R227). -/
def State.mstate (s : State) : W64 :=
  match unitCore s.g.unit with
  | none => 0
  | some c => BitVec.ofNat 64 ((s.arr (c / 2)).status)
/-- The group holds its pair's matrix right (08 R180). -/
def State.isMatrix (s : State) : Bool :=
  match unitCore s.g.unit with
  | none => false
  | some c => decide (c % 2 = 0) && decide ((s.arr (c / 2)).holder = some s.g.gid)
/-- The pair of the current group. -/
def State.pair (s : State) : Nat := unitCoreN s.g.unit / 2
/-- The array as a new holder of the matrix right finds it (08 R180, R182). -/
def Arr.emptied (next : Option Nat) : Arr := { holder := next }
/-- The array once its matrix group has ended: a frozen MMA is discarded; with nobody to take the right the accumulators
keep their contents, which no group can read (08 R180, 12 R262). -/
def Arr.left (a : Arr) : Option Nat → Arr
  | some g => Arr.emptied (some g)
  | none => { acc := a.acc, accPsn := a.accPsn }

end Sys2Proof.Machine
end

