-- ==== Sys2Proof/Machine/Sync.lean ====
section
/-!
DEFINITION. Fences and phases, barriers and counters (14 R315 to R323, 05 R102 to R109, 03 R64 to R68, R457).
-/
namespace Sys2Proof.Machine

/-! ## Fences (05 R107, R108). -/

/-- The first fences of a list have been published at a scope: nothing of what they cover is private any more, and those
whose own scope asks for no more are done with it (05 R99, R100, R107). -/
def markFences (sc : Scope) : Nat → List FenceRec → List FenceRec
  | n + 1, f :: r => { f with cover := [], published := f.published || scopeMeets sc f.scope } :: markFences sc n r
  | _, l => l
/-- How many fences stand up to the first one of a k register. -/
def fencesTo (k : Nat) : List FenceRec → Nat
  | [] => 0
  | f :: r => if f.k == k then 1 else 1 + fencesTo k r
/-- The release part of a fence publishes what it and the group's earlier fences cover. A deterministic group publishes
nothing (06 R133). -/
def State.publishFence (s : State) (f : FenceRec) : State :=
  if f.published then s
  else
    let n := fencesTo f.k s.g.fences
    let sc := s.g.scopeOf f.scope
    let mark (g : Group) : Group := { g with fences := markFences sc n g.fences }
    let cover := foldL (fun t f => tblSetMany none t f.cover) [] (s.g.fences.take n)
    if s.g.det.isSome then s.setG (mark s.g) else s.releaseSome sc cover mark
/-- The oldest fence of a k register. -/
def Group.fenceOf (g : Group) (k : Nat) : Option FenceRec := findFirst (fun f => f.k == k) g.fences
/-- What a fence waits for before it publishes: po-earlier loads and atomics, and a page that migrates (04 R84, 05 R97,
R104). -/
def State.fenceEarly (s : State) (f : FenceRec) : Bool :=
  s.g.pend.any (fun p => f.waits.contains p.id && !p.ready) || s.atomsOut ||
    (!s.own.migs.isEmpty && f.cover.any fun e => s.heldFor s.g e.1)
/-- The release part of a fence, as far as it goes: accepted accesses perform, and what it covers is published (05 R103,
R107). -/
def State.runFence (s : State) (f : FenceRec) : State :=
  ((s.releaseBank (s.g.scopeOf f.scope)).publishFence f).flushInvals
/-- The release part of a fence is done: its token completes, or its arrival is sent (05 R107, 14 R319). -/
def State.endFence (s : State) (f : FenceRec) : State :=
  let g := { s.g with fences := dropFirst (fun x => x.k == f.k) s.g.fences }
  match f.arv with
  | some h => (s.setG g).queueOp h
  | none => s.setG (g.kSet f.k { (g.kGet f.k) with pending := false })
/-- Publish a fence of the current group, and complete it if nothing more is awaited. -/
def State.finishFence (s : State) (k : Nat) : State :=
  let s := s.settleOwn
  match s.g.fenceOf k with
  | none => s
  | some f =>
    if s.fenceEarly f then s
    else
      let s := s.runFence f
      if s.portsBusy (s.g.scopeOf f.scope) then s
      else if f.scope ≠ .fab then s.endFence f
      else
        match s.fabWants with
        | some l => s.getLine (unitCode s.g.unit) l true
        | none => s.endFence f
/-- Bring every fence of the current group as far as it goes. -/
def State.finishFences (s : State) : State :=
  foldL (fun s (f : FenceRec) => s.finishFence f.k) s s.g.fences
/-- The release of a fork: the engine's, section's or operation's first access waits for the group's fences too (06 R119,
R123). -/
def forking (s : State) (sc : Scope) (k : State → Out) : Out :=
  releasing s sc fun s =>
    let s := s.finishFences
    if s.g.fences.isEmpty then k s else s.blockOn .result
/-- FENCE (05 R107): the token, and what its release part covers. In a deterministic context it covers no
global byte (06 R133). -/
def execFence (sc : Scope) (k : KReg) (s : State) : Out :=
  let s := if (s.g.kGet k.val).pending && decide ((s.g.kGet k.val).kind = .fence) then s.finishFence k.val else s
  if (s.g.kGet k.val).pending then s.blockOn (.token k.val)
  else
    let g := s.g
    let f : FenceRec :=
      { k := k.val, scope := sc, cover := if g.det.isSome then [] else g.priv, published := false
        waits := g.unread }
    let g := { g with priv := if g.det.isSome then g.priv else [], fences := g.fences ++ [f] }
    .next ((s.setG (g.kSet k.val { kind := .fence, pending := true, scope := sc })).retire 1)
/-- FWAIT (05 R108): a fence's release part is brought to its end; a token of another kind is waited for as
WAITTOK waits. Then an acquire. -/
def execFwait (k : KReg) (s : State) : Out :=
  let other := match (s.g.kGet k.val).kind with
    | .none | .fence => false
    | _ => true
  let run (s : State) : Out :=
    let s := if other then s else s.finishFence k.val
    if (s.g.kGet k.val).pending then
      if other then waitFalse s (.token k.val) else s.blockOn (.token k.val)
    else acquiring s fun s => .next (s.retire 1)
  if other then inTurn s run else run s
/-- PHASE (05 R104). -/
def execPhase (sc : Scope) (s : State) : Out :=
  releasing s sc fun s => acquiring s fun s => .next (s.retire 1)
/-- ACQ (05 R102, R104): its scope changes nothing on managed channels, and it waits for the same loads. -/
def execAcq (_sc : Scope) (s : State) : Out := acquiring s fun s => .next (s.retire 1)
/-- REL (05 R104). -/
def execRel (sc : Scope) (s : State) : Out := releasing s sc fun s => .next (s.retire 1)

/-! ## Barriers (14 R317 to R322). -/

/-- The effective address of a barrier or counter operand (14 R317, R323). -/
def objEa (g : Group) (b : SReg) (f : DForm) : W64 := g.sGet b + dDisp f
/-- The result of a check, or the exception it gives. -/
def withAcc (s : State) (r : Except Fail Acc) (k : Acc → Out) : Out :=
  match r with
  | .error e => s.raise e.cause e.addr e.info
  | .ok a => k a
/-- An object as the group finds it: its own earlier accesses have performed. -/
def State.settled (s : State) (ks : List Nat) : State := (s.settle ks).drainBefore ks
/-- An object once nothing of the group's stands before it any more. -/
def atObject (s : State) (ks : List Nat) (k : State → Out) : Out :=
  let s := s.settled ks
  if s.bankBusy ks || s.unsettled ks then s.blockOn .result else k s
/-- The object cannot be read: poisoned, or behind a cut link (03 R457, 01 R16). -/
def State.barBad (s : State) (acc : Acc) : Bool :=
  s.barPsn acc.place.key || s.cutAny s.g.unit acc.keys
/-- An arrival that waits for its tag (14 R319). -/
def arriveOp (k : ArrKind) (sc : Scope) (a b : SReg) (f : DForm) (s : State) : Out :=
  uniform s none none [useS a, useS b] fun s => inTurn s fun s =>
    withAcc s (barAcc s s.who (objEa s.g b f)) fun acc =>
      releasing s sc fun s => atObject s acc.keys fun s =>
        if s.barBad acc then s.raise 0x30 (objEa s.g b f) 0
        else
          let x := barOf (s.barNum acc.place.key)
          let v : W64 := if x.round then 1 else 0
          if s.crosses (s.nextTag (unitCode s.g.unit)) acc.place.key && s.filterFull (aluOf acc.place.key) then
            s.blockOn .result
          else
          let s := ((s.setBar acc.place.key (x.arrive k)).filterOwn (s.nextTag (unitCode s.g.unit)) acc.place.key v false).tagged
          .next ((s.setG (s.g.sSet a v)).retire (dWords f))
/-- BARARV (14 R319). -/
def execBararv (sc : Scope) (a b : SReg) (f : DForm) (s : State) : Out := arriveOp .plain sc a b f s
/-- BARARV.drop (14 R319). -/
def execBararvDrop (sc : Scope) (a b : SReg) (f : DForm) (s : State) : Out := arriveOp .drop sc a b f s
/-- BARARV.join (14 R319). -/
def execBararvJoin (sc : Scope) (a b : SReg) (f : DForm) (s : State) : Out := arriveOp .join sc a b f s
/-- The update of a barrier by the current group. -/
def State.barOp (s : State) (act : HomeAct) (acc : Acc) (ea : W64) : HomeOp :=
  { act := act, place := acc.place, addr := ea, ctx := s.g.ctx, gid := s.g.gid, after := s.g.unread
    tag := s.nextTag (unitCode s.g.unit), det := s.g.det.isSome }
/-- BARARV.fz (14 R319): the group goes on; its release runs in the background as a fence's does, the arrival follows it,
and sA is a pending result. A deterministic group's arrival is applied before its turn ends (06 R135). -/
def execBararvFz (sc : Scope) (a b : SReg) (f : DForm) (s : State) : Out :=
  uniform s none none [useS a, useS b] fun s => inTurn s fun s =>
    withAcc s (barAcc s s.who (objEa s.g b f)) fun acc =>
      let run (s : State) : State :=
        let id := s.nextId
        let ea := objEa s.g b f
        let h : HomeOp := { (s.barOp (.arrive .plain) acc ea) with pend := some id, dest := some (.s a.val) }
        let x : FenceRec :=
          { k := 16, scope := sc, cover := if s.g.det.isSome then [] else s.g.priv, published := false
            waits := s.g.unread, arv := some h }
        let s := s.tagged.await none ea [.s a.val]
        s.setG { s.g with
          priv := if s.g.det.isSome then s.g.priv else [], fences := s.g.fences ++ [x] }
      if s.g.det.isSome then releasing s sc fun s => .next (((run s).finishFence 16).settleOwn.retire (dWords f))
      else .next ((run s).retire (dWords f))
/-- BAREXP (14 R320). -/
def execBarexp (b c : SReg) (f : DForm) (s : State) : Out :=
  uniform s none none [useS b, useS c] fun s =>
    withAcc s (barAcc s s.who (objEa s.g b f)) fun acc =>
      .next (((s.queueOp (s.barOp (.expect ((s.g.sGet c).setWidth 32)) acc (objEa s.g b f))).tagged).retire (dWords f))
/-- BARWAIT (14 R321). -/
def execBarwait (t : Bool) (_sc : Scope) (a b : SReg) (f : DForm) (s : State) : Out :=
  uniform s none none [useS a, useS b] fun s => inTurn s fun s =>
    withAcc s (barAcc s s.who (objEa s.g b f)) fun acc => atObject s acc.keys fun s =>
      if s.barBad acc then s.raise 0x30 (objEa s.g b f) 0
      else
        let p := (s.g.sGet a).getLsbD 0
        let x := barOf (s.barNum acc.place.key)
        let put (s : State) : Out := .next ((s.setG (s.g.sSet a (x.status p))).retire (dWords f))
        if x.round != p then acquiring s put
        else if x.overrun then
          if t then s.raise 0x15 (objEa s.g b f) (x.status p) else put s
        else waitFalse s (.barrier acc.place p)
/-- BARTEST (14 R321). -/
def execBartest (_sc : Scope) (a b : SReg) (f : DForm) (s : State) : Out :=
  uniform s none none [useS a, useS b] fun s => inTurn s fun s =>
    withAcc s (barAcc s s.who (objEa s.g b f)) fun acc => atObject s acc.keys fun s =>
      if s.barBad acc then s.raise 0x30 (objEa s.g b f) 0
      else
        let p := (s.g.sGet a).getLsbD 0
        let x := barOf (s.barNum acc.place.key)
        let put (s : State) : Out := .next ((s.setG (s.g.sSet a (x.status p))).retire (dWords f))
        if x.round != p then acquiring s put else put s

/-! ## Counters (14 R323). -/

/-- VALUE as the group reads it at its home, its own bytes over it (05 R97); gts rises as for any load. -/
def State.readCount (s : State) (acc : Acc) : State × W64 × Bool :=
  let s := s.settle acc.keys
  let ks := acc.keys.take 8
  let r := if acc.glob then s.readHome ks else (s, ks.map s.atHome)
  let s := r.1
  let got := (ks.zip r.2).map fun e => match s.g.own e.1 with
    | some (b, p) => Got.withWord ⟨b, p⟩ e.2.psn (s.g.covers e.1)
    | none => e.2
  let s :=
    if acc.glob && s.g.det.isNone then
      s.setG { s.g with gts := Nat.max s.g.gts (maxOf ((linesOf ks).map s.wtsOf)) }
    else s
  (s, BitVec.ofNat 64 (gotNum got), gotPsn got || s.cutAny s.g.unit ks)
/-- Read a counter for CNTWAIT or CNTTEST: checks, what the access waits for, poison. -/
def countOp (a b c : SReg) (f : DForm) (s : State) (k : State → Acc → W64 → Out) : Out :=
  uniform s none none [useS a, useS b, useS c] fun s => inTurn s fun s =>
    withAcc s (cntAcc s s.who .cntWait (objEa s.g b f)) fun acc =>
      let read (s : State) : Out :=
        let r := (s.fillTlbs [(objEa s.g b f, acc)]).readCount acc
        if r.2.2 then r.1.raise 0x30 (objEa s.g b f) 0 else k r.1 acc r.2.1
      if acc.glob then accWait s acc.keys read else atObject s acc.keys read
/-- CNTWAIT (14 R323). -/
def execCntwait (a b c : SReg) (f : DForm) (s : State) : Out :=
  countOp a b c f s fun s acc v =>
    if (s.g.sGet c).toNat ≤ v.toNat then
      acquiring s fun s => .next ((s.setG (s.g.sSet a v)).retire (dWords f))
    else waitFalse s (.counter acc.place (s.g.sGet c))
/-- CNTTEST (14 R323). -/
def execCnttest (a b c : SReg) (f : DForm) (s : State) : Out :=
  countOp a b c f s fun s _ v =>
    if (s.g.sGet c).toNat ≤ v.toNat then
      acquiring s fun s => .next ((s.setG (s.g.sSet a 1)).retire (dWords f))
    else .next ((s.setG (s.g.sSet a 0)).retire (dWords f))

end Sys2Proof.Machine
end

