-- ==== Sys2Proof/Machine/EngRec.lean ====
section
/-!
DEFINITION. Copy records: their fields, the ranges they name, and the static checks (16 R346 to R348, R355).
-/
namespace Sys2Proof.Machine

/-- Word n of a record. -/
def crW (r : List W32) (n : Nat) : Nat := (r.getD n 0).toNat
/-- A 64-bit field, by its first word. -/
def crD (r : List W32) (n : Nat) : W64 := BitVec.ofNat 64 (crW r n + 2 ^ 32 * crW r (n + 1))
/-- A 32-bit signed pitch or step. -/
def crS (r : List W32) (n : Nat) : Int := toInt 32 (crW r n)
/-- CR.TYPE. -/
def crType (r : List W32) : Nat := field (crW r 0) 0 4
/-- CR.CKIND. -/
def crCkind (r : List W32) : Nat := field (crW r 0) 4 2
/-- CR.ARV. -/
def crArv (r : List W32) : Bool := field (crW r 0) 6 1 == 1
/-- CR.CADD. -/
def crCadd (r : List W32) : Nat := crW r 1
/-- CR.DONE. -/
def crDone (r : List W32) : W64 := crD r 2
/-- The source address. -/
def crSrc (r : List W32) : W64 := crD r 4
/-- The destination address. -/
def crDst (r : List W32) : W64 := crD r 6
/-- Rows and bytes per row, or view rows and columns, from the word that holds them. -/
def crRows (r : List W32) (n : Nat) : Nat := field (crW r n) 0 16
/-- Bytes per row. -/
def crRb (r : List W32) (n : Nat) : Nat := field (crW r n) 16 16
/-- BSLOAD.COL0. -/
def bsCol0 (r : List W32) : Nat := field (crW r 6) 0 7
/-- BSLOAD's columns. -/
def bsCols (r : List W32) : Nat := field (crW r 6) 8 7 + 1
/-- BSLOAD.BOFF. -/
def bsBoff (r : List W32) : Nat := field (crW r 7) 0 16
/-- BSLOAD.LEN. -/
def bsLen (r : List W32) : Nat := field (crW r 8) 0 17
/-- BSLOAD's target core (16 R348): TGT names the other core of the pair. -/
def bsCore (r : List W32) (c : Nat) : Nat := if field (crW r 6) 7 1 = 0 then c else c / 2 * 2 + 1 - c % 2
/-- REDUCE.OP. -/
def rdOp (r : List W32) : Nat := field (crW r 10) 10 4
/-- Bytes of a REDUCE element. -/
def rdE (r : List W32) : Nat := if rdOp r = 1 then 8 else 4
/-- REDUCE's source vectors. -/
def rdRanks (r : List W32) : Nat := field (crW r 10) 0 10 + 1
/-- REDUCE.ACC. -/
def rdAcc (r : List W32) : Bool := field (crW r 10) 14 1 == 1
/-- TILE.FR. -/
def tlFr (r : List W32) : Bool := field (crW r 11) 20 1 == 1

/-- The frames of a record: the byte of the record that names each, and its offset (16 R350, R349). -/
def crFrames (r : List W32) : List (Nat × Nat) :=
  match crType r with
  | 1 => if tlFr r then [(44, field (crW r 11) 0 20)] else []
  | 5 => [(32, field (crW r 8) 0 20), (36, field (crW r 9) 0 20)]
  | _ => []
/-- Format of REFRAME's view: its old frame's. -/
def rfFmt (frames : List W32) : Nat := frFmt frames

/-- Named bits of a type: first bit and count (16 R347, R348). -/
def crNamed (ty : Nat) : List (Nat × Nat) :=
  [(0, 7), (32, 32), (64, 64)] ++
  match ty with
  | 1 => [(128, 64), (192, 64), (256, 32), (288, 32), (320, 32), (352, 21), (384, 20), (416, 32), (448, 32)]
  | 2 => [(128, 64), (192, 64), (256, 64), (320, 32), (352, 32), (384, 32), (416, 32), (448, 4)]
  | 3 => [(128, 64), (192, 15), (224, 16), (256, 17), (288, 32)]
  | 4 => [(128, 64), (192, 64), (256, 32), (288, 32), (320, 15)]
  | 5 => [(128, 64), (192, 64), (256, 20), (288, 20), (320, 32), (352, 32), (384, 32)]
  | _ => [(128, 64), (192, 64), (256, 32)]
/-- The byte that holds the lowest nonzero reserved bit. -/
def crReserved (r : List W32) : Option Nat :=
  let named := crNamed (crType r)
  (findFirst (fun b => (crW r (b / 32)) / 2 ^ (b % 32) % 2 == 1 &&
    !(named.any fun p => decide (p.1 ≤ b) && decide (b < p.1 + p.2))) (upTo 512)).map (· / 8)

/-- A range of bytes: the first address as an offset from a base, and how many. -/
def spanOf (n : Nat) (dims : List (Nat × Int)) : Int × Nat :=
  let lo := foldL (fun (a : Int) d => a + min 0 (((d.1 : Int) - 1) * d.2)) 0 dims
  let hi := foldL (fun (a : Int) d => a + max 0 (((d.1 : Int) - 1) * d.2)) 0 dims
  (lo, (hi - lo).toNat + n)
/-- Bytes of a row of a REFRAME view. -/
def rfRow (fmt cols : Nat) : Nat := qRunBytes fmt cols
/-- A range that a record names: the record's byte, the address, the range from it, and whether only global
windows are accepted. -/
def crRanges (r : List W32) (fmt : Nat) : List (Nat × W64 × (Int × Nat) × Bool) :=
  let flat (n : Nat) : Int × Nat := (0, n)
  match crType r with
  | 1 =>
    [(16, crSrc r, spanOf (crRb r 8) [(crRows r 8, crS r 9)], false),
     (24, crDst r, spanOf (crRb r 8) [(crRows r 8, crS r 10)], false)]
  | 2 =>
    [(16, crSrc r, spanOf (crRb r 10) [(crRows r 10, crS r 11), (crW r 13, crS r 12)], false),
     (24, crDst r, flat (crW r 14 * crRows r 10 * crRb r 10), false)]
  | 3 => [(16, crSrc r, spanOf (bsLen r) [(bsCols r, (crW r 9 : Int))], true)]
  | 4 =>
    [(16, crSrc r, spanOf (crW r 8 * rdE r) [(rdRanks r, (crW r 9 : Int))], false),
     (24, crDst r, flat (crW r 8 * rdE r), false)]
  | 5 =>
    [(16, crSrc r, spanOf (rfRow fmt (crRb r 10)) [(crRows r 10, crS r 11)], false),
     (24, crDst r, spanOf (rfRow fmt (crRb r 10)) [(crRows r 10, crS r 12)], false)]
  | 6 => [(16, crSrc r, flat (crW r 8), false), (24, crDst r, flat (crW r 8), true)]
  | _ => [(16, crSrc r, flat (crW r 8), false), (24, crDst r, flat (crW r 8), false)]
/-- A range fails reason 5: a window it does not accept, or checks 1 to 4 of 02 R35 over all of it. -/
def rangeBad (s : State) (w : Who) (a : W64) (x : Int × Nat) (glob : Bool) : Bool :=
  let lo := a + BitVec.ofInt 64 x.1
  let n := window lo
  !(decide (n < 8) || (!glob && (n == 0xC || n == 0xD || n == 0xE))) ||
  (decide (n < 8) && decide (2 ^ 63 < lo.toNat + x.2)) ||
  (match check14 s w lo x.2 with
   | .ok _ => false
   | .error _ => true)
/-- Lengths and counts that lie outside their ranges, each with the byte of its lowest field (16 R355). -/
def crCounts (r : List W32) (fmt : Nat) : List (Nat × Bool) :=
  match crType r with
  | 1 => [(32, crRows r 8 == 0), (34, crRb r 8 == 0)]
  | 2 =>
    [(40, crRows r 10 == 0), (42, crRb r 10 == 0), (52, crW r 13 == 0),
     (56, decide (crW r 14 = 0) || decide (8 < crW r 14))]
  | 3 =>
    [(24, decide (127 < bsCol0 r + bsCols r - 1)), (28, decide (65536 < bsBoff r + bsLen r)),
     (32, decide (bsLen r = 0) || decide (65536 < bsLen r))]
  | 4 => [(32, decide (crW r 8 = 0) || decide (2 ^ 28 < crW r 8)), (41, decide (8 ≤ rdOp r))]
  | 5 => [(40, crRows r 10 == 0), (42, decide (fmt ≤ 3) && crRb r 10 % qGroup fmt != 0)]
  | _ => [(32, decide (crW r 8 = 0) || decide (2 ^ 30 < crW r 8))]
/-- Completion objects and empty barriers: the record's byte, the address, and whether it is a barrier. -/
def crObjs (r : List W32) : List (Nat × W64 × Bool) :=
  let stage (o : Nat) (a : W64) : List (Nat × W64 × Bool) :=
    (upTo (crW r 14)).map fun n => (o, a + BitVec.ofNat 64 (16 * n), true)
  if crType r = 2 then stage 8 (crDone r) ++ stage 32 (crD r 8)
  else if crCkind r = 1 then [(8, crDone r, true)]
  else if crCkind r = 2 then [(8, crDone r, false)]
  else []
/-- An object fails the window and alignment rules of 03 R64 or R67. -/
def objBad (s : State) (w : Who) (a : W64) (bar : Bool) : Bool :=
  !(if bar then barWindow (window a) else cntWindow (window a)) || a.toNat % 16 != 0 ||
  (match check14 s w a 16 with
   | .ok _ => false
   | .error _ => true)
/-- A frame offset is misaligned or out of range. -/
def offBad (S o : Nat) : Bool := o % 32 != 0 || decide (S < o + 32)
/-- The frames fail reason 8: the record's byte that takes part. -/
def crFrameBad (r : List W32) (S : Nat) (frames : List W32) : Option Nat :=
  let fr (n : Nat) : List W32 := (frames.drop (8 * n)).take 8
  let bad := findFirst (fun e : (Nat × Nat) × Nat => offBad S e.1.2 || !frReservedOk (fr e.2))
    ((crFrames r).zipIdx)
  match bad with
  | some e => some e.1.1
  | none =>
    if crType r = 5 ∧ (frFmt (fr 0) ≠ frFmt (fr 1) ∨ frBlk (fr 0) ≠ frBlk (fr 1)) then some 32
    else if crType r = 1 ∧ tlFr r then
      if offBad S (field (crW r 12) 0 20) then some 48
      else if crW r 14 % frL (fr 0) ≠ 0 then some 56
      else none
    else none
/-- The static checks, in order: reason and byte of the first that fails (16 R355). `frames` are the bytes at
the record's frame offsets. -/
def crCheck (s : State) (w : Who) (r : List W32) (frames : List W32) : Option (Nat × Nat) :=
  let ck := crCkind r
  let ty := crType r
  let fmt := if ty = 5 then rfFmt frames else 2
  if 6 < ty then some (1, 0)
  else if ck = 3 ∨ (ck = 0 ∧ (crArv r ∨ crCadd r ≠ 0)) ∨ (crArv r ∧ ck = 2) ∨ (ty = 2 ∧ ck ≠ 1) ∨
      (ty = 6 ∧ ck ≠ 2) then some (2, 0)
  else
    match crReserved r with
    | some b => some (3, b)
    | none =>
      match findFirst (fun e : Nat × Bool => e.2) (crCounts r fmt) with
      | some e => some (4, e.1)
      | none =>
        match findFirst (fun e : Nat × W64 × (Int × Nat) × Bool => rangeBad s w e.2.1 e.2.2.1 e.2.2.2)
            (crRanges r fmt) with
        | some e => some (5, e.1)
        | none =>
          match findFirst (fun e : Nat × W64 × Bool => objBad s w e.2.1 e.2.2) (crObjs r) with
          | some e => some (6, e.1)
          | none =>
            if ty = 4 ∧ ((crSrc r).toNat % rdE r ≠ 0 ∨ (1 < rdRanks r ∧ crW r 9 % rdE r ≠ 0)) then some (6, 16)
            else if ty = 4 ∧ (crDst r).toNat % rdE r ≠ 0 then some (6, 24)
            else
              let S := spaceSize s w .core
              let inS := (crFrames r).zipIdx.filter fun e => !offBad S e.1.2
              match findFirst (fun e : (Nat × Nat) × Nat =>
                  decide (3 < frFmt ((frames.drop (8 * e.2)).take 8))) inS with
              | some e => some (7, e.1.1)
              | none => (crFrameBad r S frames).map fun b => (8, b)
/-- EREC (16 R355). -/
def erec (x : Nat × Nat) : W64 := BitVec.ofNat 64 (x.1 + 256 * x.2)

/-- Bytes that an operation counts at completion; for LOOP, of one iteration (16 R351, R352). -/
def crBytes (r : List W32) (frames : List W32) : Nat :=
  match crType r with
  | 1 => crRows r 8 * crRb r 8
  | 2 => crRows r 10 * crRb r 10
  | 3 => bsCols r * bsLen r
  | 4 => crW r 8 * rdE r
  | 5 => crRows r 10 * rfRow (rfFmt frames) (crRb r 10)
  | _ => crW r 8

end Sys2Proof.Machine
end

