-- ==== Sys2Proof/Machine/EngRun.lean ====
section
/-!
DEFINITION. What a copy-engine operation does: reads, writes, the load map, and its completion (06 R118 to
R121, R131, R136; 16 R349 to R354, R458; 23 R446).
-/
namespace Sys2Proof.Machine

/-! ## Launches and deterministic members. -/

/-- Change a launch that has not completed. -/
def State.modLaunch (s : State) (n : Nat) (f : Launch → Launch) : State :=
  { s with disp := { s.disp with launches := modFirst (fun l => l.id == n) f s.disp.launches } }
/-- A launch that has not completed. -/
def State.launchOf (s : State) (n : Nat) : Option Launch := findFirst (fun l => l.id == n) s.disp.launches
/-- An operation or section of a launch begins (09 R204). -/
def State.opsInc (s : State) (n k : Nat) : State := s.modLaunch n fun l => { l with ops := l.ops + k }
/-- It ends. -/
def State.opsDec (s : State) (n : Nat) : State := s.modLaunch n fun l => { l with ops := l.ops - 1 }
/-- One pair comes before another (06 R135). -/
def pairLt (a b : Nat × Nat) : Bool := decide (a.1 < b.1) || (a.1 == b.1 && decide (a.2 < b.2))
/-- Pairs of the groups of a deterministic launch that still issue (06 R135); one that has executed EXIT is not among them
(DEDUCED, log entry 69). -/
def State.groupPairs (s : State) (n : Nat) : List (Nat × Nat) :=
  (s.everyGroup.filter fun g => g.launch == n && (match g.det with
    | some d => !d.leaving
    | none => false)).map fun g => (g.retired.toNat, g.gidx.toNat)
/-- A LOOP record that has started: it moves no byte itself, its iterations do (06 R118). -/
def EngOp.isLoop (o : EngOp) : Bool := crType o.rcd == 2 && o.of_.isNone
/-- Its pending members, each with its name (06 R136). -/
def State.memberPairs (s : State) (n : Nat) : List ((Nat × Nat) × Nat) :=
  (s.cores.flatMap fun e => (e.2.engQ ++ e.2.engRun.filter fun o => !o.isLoop).filterMap fun o =>
    if o.by_.launch = n then o.clock.map fun p => (p, o.id) else none) ++
  s.riddle.filterMap fun o => if o.by_.launch = n then o.clock.map fun p => (p, o.id) else none
/-- A section that a group of the launch has shipped has not ended; the turn of its SHIP goes on
(06 R135). -/
def State.shipsOut (s : State) (n : Nat) : Bool :=
  s.everyGroup.any fun g => g.launch == n && g.det.isSome &&
    g.k.any fun e => e.2.pending && decide (e.2.kind = .sect)
/-- Some group of the launch holds the turn. -/
def State.turnHeld (s : State) (n : Nat) : Bool :=
  s.everyGroup.any fun g => g.launch == n && (match g.det with
    | some d => d.turn
    | none => false)
/-- A group's pair is the smallest of its domain; a member of the same pair goes first (06 R135, R136). (DEDUCED, log entry
63.) -/
def State.smallest (s : State) (n : Nat) (p : Nat × Nat) : Bool :=
  (s.groupPairs n).all (fun q => q == p || pairLt p q) && (s.memberPairs n).all fun q => pairLt p q.1
/-- A member's completion may be applied now: its pair is the smallest, and of several members of one pair the one issued
first goes first (06 R136; DEDUCED, log entry 63). -/
def State.memberTurn (s : State) (n : Nat) (p : Option (Nat × Nat)) (id : Nat) : Bool :=
  match p with
  | none => true
  | some p =>
    (s.groupPairs n).all (fun q => q == p || pairLt p q) &&
    (s.memberPairs n).all (fun q => q.2 == id || pairLt p q.1 || (q.1 == p && decide (id < q.2))) &&
    !s.turnHeld n && !s.shipsOut n
/-- The pair of an operation that the current group issues (06 R136). -/
def Group.memberPair (g : Group) : Option (Nat × Nat) :=
  g.det.map fun d => (g.retired.toNat + d.quant, g.gidx.toNat)

/-! ## Engine accesses (06 R120). -/

/-- The access of an engine operation: resolved as its issuer's (02 R38). -/
def engAcc (s : State) (b : Issuer) (k : Kind) (a : W64) (n : Nat) : Except Fail Acc :=
  genericAcc s (whoBy s b) 0 k a n 1
/-- Engine reads: poisoned behind a cut link (01 R16). -/
def State.engRead (s : State) (b : Issuer) (ks : List Nat) : List Got :=
  ks.map fun k => if s.cutTo b.unit k then ⟨s.byte k, true⟩ else s.atHome k
/-- Engine writes: each line of global memory under its own stamp (06 R120); what lies behind a cut link is lost (01
R16). -/
def State.engWrite (s : State) (b : Issuer) (glob : Bool) (cells : List (Nat × Byte × Bool)) : State :=
  let r := s.overCut (unitDie s b.unit) (cells.map fun c => (c.1, some (c.2.1, c.2.2)))
  if glob then
    let s := r.1.widen none (r.2.map (·.1))
    (foldL (fun s l => (s.publish (r.2.filter fun c => lineOf c.1 == l) b.gts).1) s (linesOf (r.2.map (·.1)))).flushInvals
  else (r.1.writeClean (heldCells false r.2)).writePoisoned (heldCells true r.2)

/-! ## The plan of an operation: what it reads and writes, and what faults (16 R349, R354). -/

/-- Where bytes go: an address, or a B-store location. -/
inductive XDst | gen (a : W64) | bst (key : Nat)
  deriving DecidableEq, Repr
/-- Bytes that one computation reads and writes. -/
structure Item where
  off : Nat
  dst : W64
  srcs : List (List Nat)
  dkeys : List Nat
  glob : Bool
  act : List (List Got) → List (Byte × Bool)
/-- A plan: the items, and the offset and cause of each fault. -/
structure Plan where
  items : List Item
  faults : List (Nat × Nat)
/-- Bytes copied as they are; each keeps its word's poison (16 R354). -/
def copyAct (l : List (List Got)) : List (Byte × Bool) := (l.headD []).map fun g => (g.b, g.psn)
/-- Resolve one item; the first address that fails gives its cause. -/
def planItem (s : State) (b : Issuer) (off : Nat) (srcs : List (W64 × Nat)) (dst : XDst) (n : Nat)
    (act : List (List Got) → List (Byte × Bool)) : Plan :=
  let rs := srcs.map fun x => engAcc s b .load x.1 x.2
  let bad := firstSome (rs.map fun r => failOf r)
  let keys := rs.map fun r => (accD r).keys
  match bad with
  | some e => ⟨[], [(off, e.cause)]⟩
  | none =>
    match dst with
    | .bst k => ⟨[⟨off, 0, keys, span k n, false, act⟩], []⟩
    | .gen a =>
      match engAcc s b .store a n with
      | .error e => ⟨[], [(off, e.cause)]⟩
      | .ok acc => ⟨[⟨off, a, keys, acc.keys, acc.glob, act⟩], []⟩
/-- Two plans together. -/
def Plan.add (a b : Plan) : Plan := ⟨a.items ++ b.items, a.faults ++ b.faults⟩
/-- Several plans together. -/
def planAll (l : List Plan) : Plan := ⟨l.flatMap (·.items), l.flatMap (·.faults)⟩
/-- Bytes left in the 64 KiB page of an address. -/
def pageLeft (a : W64) : Nat := 2 ^ 16 - a.toNat % 2 ^ 16
/-- Bytes left in the 64-byte line of an address. -/
def lineLeft (a : Nat) : Nat := 64 - a % 64
/-- Copy a run piece by piece, no piece crossing a page of the source or a line of the destination (06 R120); fuel
bounds the pieces. -/
def planRun (s : State) (b : Issuer) : Nat → Nat → W64 → XDst → Nat → Plan
  | 0, _, _, _, _ => ⟨[], []⟩
  | f + 1, off, src, dst, n =>
    if n = 0 then ⟨[], []⟩
    else
      let k := Nat.min n (pageLeft src)
      let k := match dst with
        | .gen a => Nat.min k (lineLeft a.toNat)
        | .bst x => Nat.min k (lineLeft x)
      let dst' := match dst with
        | .gen a => XDst.gen (a + BitVec.ofNat 64 k)
        | .bst x => XDst.bst (x + k)
      (planItem s b off [(src, k)] dst k copyAct).add
        (planRun s b f (off + k) (src + BitVec.ofNat 64 k) dst' (n - k))
/-- Copy a run. -/
def planCopy (s : State) (b : Issuer) (off : Nat) (src : W64) (dst : XDst) (n : Nat) : Plan :=
  planRun s b (n / 64 + n / 2 ^ 16 + 4) off src dst n
/-- An address at a signed distance. -/
def addI (a : W64) (i : Int) : W64 := a + BitVec.ofInt 64 i

/-- REDUCE's combining operation on two elements (16 R348). -/
def rdApply (op a b : Nat) : Nat :=
  match op with
  | 0 => (a + b) % 2 ^ 32
  | 1 => (a + b) % 2 ^ 64
  | 2 => ofInt 32 (max (-2147483648) (min 2147483647 (toInt 32 a + toInt 32 b)))
  | 3 => redApply .fadd 32 a b
  | 4 => redApply .min 32 a b
  | 5 => redApply .max 32 a b
  | 6 => redApply .fmin 32 a b
  | _ => redApply .fmax 32 a b
/-- One REDUCE element from its ranks' bytes, in rank order (06 R131). -/
def rdAct (op e : Nat) (l : List (List Got)) : List (Byte × Bool) :=
  let bad := l.any gotPsn
  (leBytes e (canonical (rdApply op) (l.map gotNum) 0)).map fun b => (b, bad)
/-- The plan of a REDUCE (16 R349). -/
def planReduce (s : State) (b : Issuer) (r : List W32) : Plan :=
  let e := rdE r
  planAll ((List.range (crW r 8)).map fun k =>
    let at_ (a : W64) : W64 := a + BitVec.ofNat 64 (k * e)
    let ranks := (List.range (rdRanks r)).map fun n => (at_ (crSrc r + BitVec.ofNat 64 (n * crW r 9)), e)
    let ranks := if rdAcc r then (at_ (crDst r), e) :: ranks else ranks
    planItem s b (k * e) ranks (.gen (at_ (crDst r))) e (rdAct (rdOp r) e))
/-- index[i] of a frame as an engine reads it, and whether it is poisoned; an entry that does not lie below S is a free
value, for no check of a record covers it. It is read as the element's piece moves (16 R355; DESIGN CHOICE, log entry
16). -/
def engIndex (s : State) (b : Issuer) (fr : List W32) (i : Nat) : W32 × Bool :=
  if !frIdx fr then (0, false)
  else if spaceSize s (whoBy s b) .core < frIndex fr + 4 * i + 4 then
    ((Config.freeWord (s.draws + i)).setWidth 32, false)
  else (frameIndexAt s (unitCoreN b.unit) fr i, s.anyPsn (span (keyCore (unitCoreN b.unit) (frIndex fr + 4 * i)) 4))
/-- One group of codes moved from one frame to another; an element that reads a poisoned byte is written poisoned (07 R158,
16 R354). -/
def rfAct (s : State) (b : Issuer) (f i j0 : Nat) (fo fn : List W32) (bad : Bool) (l : List (List Got)) :
    List (Byte × Bool) :=
  let got := l.headD []
  let io := engIndex s b fo i
  let inn := engIndex s b fn i
  let d (fr : List W32) (x : W32) (j : Nat) : Int := frD fr x (BitVec.ofNat 32 i) (BitVec.ofNat 32 (j0 + j))
  let codes := (upTo (qGroup f)).map fun j =>
    reframe f (qElem f (fun n => (got.getD n ⟨0, false⟩).b) j) (d fo io.1 j) (d fn inn.1 j)
  (qPack f codes).map fun x => (x, bad || io.2 || inn.2 || gotPsn got)
/-- The plan of a REFRAME (16 R349). -/
def planReframe (s : State) (b : Issuer) (r frames : List W32) (bad : Bool) : Plan :=
  let fo := frames.take 8
  let fn := (frames.drop 8).take 8
  let f := rfFmt frames
  let gb := qGroupBytes f
  let n := crRb r 10 / qGroup f
  planAll ((List.range (crRows r 10)).flatMap fun (i : Nat) => (List.range n).map fun (g : Nat) =>
    let src := addI (crSrc r) ((i : Int) * crS r 11 + (g * gb : Nat))
    let dst := addI (crDst r) ((i : Int) * crS r 12 + (g * gb : Nat))
    planItem s b ((i * n + g) * gb) [(src, gb)] (.gen dst) gb
      (rfAct s b f i (g * qGroup f) fo fn bad))
/-- The plan of an operation, or of a LOOP's next iteration (16 R349 to R351). -/
def planOf (s : State) (c : Nat) (o : EngOp) : Plan :=
  let r := o.rcd
  let b := o.by_
  match crType r with
  | 1 => planAll ((List.range (crRows r 8)).map fun (i : Nat) =>
      planCopy s b (i * crRb r 8) (addI (crSrc r) ((i : Int) * crS r 9))
        (.gen (addI (crDst r) ((i : Int) * crS r 10))) (crRb r 8))
  | 2 =>
    let n := crRows r 10 * crRb r 10
    let src := addI (crSrc r) ((o.iter : Int) * crS r 12)
    let dst := crDst r + BitVec.ofNat 64 (o.iter % crW r 14 * n)
    planAll ((List.range (crRows r 10)).map fun (i : Nat) =>
      planCopy s b (i * crRb r 10) (addI src ((i : Int) * crS r 11))
        (.gen (dst + BitVec.ofNat 64 (i * crRb r 10))) (crRb r 10))
  | 3 => planAll ((List.range (bsCols r)).map fun j =>
      planCopy s b (j * bsLen r) (crSrc r + BitVec.ofNat 64 (j * crW r 9))
        (.bst (keyB (bsCore r c) (bsCol0 r + j) (bsBoff r))) (bsLen r))
  | 4 => planReduce s b r
  | 5 => planReframe s b r o.frame (!o.framePsn.isEmpty)
  | _ => planCopy s b 0 (crSrc r) (.gen (crDst r)) (crW r 8)

/-- What the plan still waits for: a line it must have first, or a copy at a peer to be invalidated (03 R58), or a page that
migrates (04 R84). -/
def State.planWaits (s : State) (p : Plan) : Option (Option Nat) :=
  let src := p.items.flatMap fun i => i.srcs.flatten
  let dst := (p.items.filter (·.glob)).flatMap (·.dkeys)
  match findFirst (fun k => !s.here k) src with
  | some k => some (some (lineOf (k - regionBase 5)))
  | none =>
    match s.exclLine src, s.wantWrite dst with
    | some l, _ => some (some l)
    | none, some l => some (some l)
    | none, none => if (src ++ dst).any s.heldKey then some none else none
/-- Values that an item writes. -/
def Item.values (i : Item) (s : State) (b : Issuer) : List (Nat × Byte × Bool) :=
  i.dkeys.zip (i.act (i.srcs.map (s.engRead b)))
/-- Carry out a plan: every read, then every write (16 R349); whether something was written poisoned. -/
def State.runPlan (s : State) (b : Issuer) (p : Plan) : State × Bool :=
  let s := s.widen none (p.items.flatMap fun i => i.srcs.flatten)
  let vals := p.items.map fun i => (i.glob, i.values s b)
  let s := s.dropLost (p.items.flatMap fun i => i.srcs.flatten)
  (foldL (fun s v => s.engWrite b v.1 v.2) s vals, vals.any fun v => v.2.any (·.2.2))

/-! ## REMOTE (23 R446). -/

/-- Merge pieces that follow one another within one packet. -/
def mergeRuns : List Item → List Item
  | a :: b :: r =>
    if a.off + a.dkeys.length == b.off && b.dst.toNat % 256 != 0 then
      match mergeRuns (b :: r) with
      | c :: r' =>
        ⟨a.off, a.dst, [a.srcs.flatten ++ c.srcs.flatten], a.dkeys ++ c.dkeys, a.glob, copyAct⟩ :: r'
      | [] => [a]
    else a :: mergeRuns (b :: r)
  | l => l
/-- The plan of a REMOTE: runs cut at every 256 bytes of the destination. -/
def planRemote (s : State) (o : EngOp) : Plan :=
  let r := o.rcd
  let first := 256 - (crDst r).toNat % 256
  let n := crW r 8
  let cuts := (List.range (n / 256 + 2)).map fun k =>
    let lo := if k = 0 then 0 else first + 256 * (k - 1)
    (Nat.min n lo, Nat.min n (first + 256 * k))
  let p := planAll (cuts.map fun e =>
    planCopy s o.by_ e.1 (crSrc r + BitVec.ofNat 64 e.1) (.gen (crDst r + BitVec.ofNat 64 e.1)) (e.2 - e.1))
  { p with items := mergeRuns p.items }
/-- Send one run: to its owner, or straight to its home. -/
def State.sendRemote (s : State) (o : EngOp) (i : Item) : State :=
  let l := i.act (i.srcs.map (s.engRead o.by_))
  if isPeerKey (i.dkeys.headD 0) then
    let p : Packet := { s.toOwner 10 (unitCode o.by_.unit) i.dst with
      data := l.map (·.1), psn := psnMarks i.dst.toNat (l.map (·.2)) }
    s.request p (.remote o.id)
  else s.engWrite o.by_ i.glob (i.dkeys.zip l)
/-- A request of a REMOTE has not been answered. -/
def State.remoteOut (s : State) (id : Nat) : Bool := s.fab.reqs.any fun r => decide (r.use = .remote id)

/-! ## Starting, writing and completing (16 R346, R351 to R354). -/

/-- Replace a running operation of a core. -/
def State.setRun (s : State) (c : Nat) (o : EngOp) : State :=
  s.modCore c fun x => { x with engRun := x.engRun.map fun y => if y.id = o.id then o else y }
/-- The load-map entry of a BSLOAD (03 R61). -/
def bsEntry (o : EngOp) : MapEnt :=
  let r := o.rcd
  { src := crSrc r, col0 := bsCol0 r, cols := bsCols r, off := bsBoff r, len := bsLen r
    pitch := r.getD 9 0, ctx := o.by_.ctx }
/-- An entry lies wholly within another. -/
def MapEnt.within (e n : MapEnt) : Bool :=
  decide (n.col0 ≤ e.col0) && decide (e.col0 + e.cols ≤ n.col0 + n.cols) &&
  decide (n.off ≤ e.off) && decide (e.off + e.len ≤ n.off + n.len)
/-- BSLOADs into a core's B-store that run and have a place in its load map: they count toward its 64 entries (DESIGN
CHOICE, log entry 62). -/
def State.bsRunning (s : State) (t : Nat) : Nat :=
  (s.cores.flatMap fun e => e.2.engRun.filter fun o =>
    crType o.rcd == 3 && o.code != 0x0012 && bsCore o.rcd e.1 == t).length
/-- An iteration of a LOOP as an operation of its own (06 R118). -/
def EngOp.iteration (o : EngOp) (id i : Nat) (clock : Option (Nat × Nat)) : EngOp :=
  { o with id := id, of_ := some o.id, iter := i, clock := clock, rounds := [], nexts := [] }
/-- What starts when a record does: a LOOP's first iterations, and the record that waits for its stages (16 R351). -/
def State.startOp (s : State) (c : Nat) (o : EngOp) : State :=
  if crType o.rcd ≠ 2 then s.modCore c fun y => { y with engRun := y.engRun ++ [o] }
  else
    let n := crW o.rcd 14
    let first := (upTo (Nat.min n (crW o.rcd 13))).map fun i => o.iteration (s.nextId + i) i o.clock
    let p := { o with nexts := (upTo n).map fun st => st + n }
    ({ s with nextId := s.nextId + first.length }).modCore c fun y => { y with engRun := y.engRun ++ p :: first }
/-- Start the next queued record, when fewer than 4 run (16 R346). A BSLOAD removes the entries it covers and
then counts (03 R61). -/
def State.engStart (s : State) (c : Nat) : State :=
  let x := s.core c
  match x.engQ with
  | [] => s
  | o :: r =>
    if 4 ≤ (x.engRun.filter fun y => y.of_.isNone).length then s
    else
      let s := s.modCore c fun y => { y with engQ := r }
      if crType o.rcd ≠ 3 then s.startOp c o
      else
        let t := bsCore o.rcd c
        let kept := (s.core t).loadMap.filter fun e => !(e.within (bsEntry o))
        let full := decide (64 ≤ kept.length + s.bsRunning t)
        let s := if full then s else s.modCore t fun y => { y with loadMap := kept }
        s.startOp c (if full then { o with code := 0x0012 } else o)
/-- Note what a plan met: ENG_FAULT before ENG_POISON, and the lowest offset that faulted (16 R353, R354). -/
def EngOp.note (o : EngOp) (faults : List (Nat × Nat)) (bad : Bool) : EngOp :=
  let had := if o.code = 0x0010 then some (o.foff, o.detail.toNat) else none
  let low := foldL (fun (m : Option (Nat × Nat)) e => match m with
    | none => some e
    | some f => if e.1 < f.1 then some e else some f) had faults
  match low with
  | some e => { o with code := 0x0010, detail := BitVec.ofNat 8 e.2, foff := e.1 }
  | none => if bad && o.code == 0 then { o with code := 0x0011 } else o
/-- The derived frame of a TILE (16 R350). -/
def tileFrame (r fr : List W32) : List W32 :=
  let trow := r.getD 13 0
  let tcol := r.getD 14 0
  let w (n : Nat) : W32 := fr.getD n 0
  let low20 (x : W32) (v : Nat) : W32 := BitVec.ofNat 32 (x.toNat / 2 ^ 20 * 2 ^ 20 + v % 2 ^ 20)
  let idx := frIdx fr
  [w 0, w 1,
    if idx then w 2 else w 2 + trow * step16 (frW fr 4 % 65536),
    w 3 + tcol * step16 (frW fr 4 / 65536),
    w 4,
    if idx then low20 (w 5) (frIndex fr + 4 * trow.toNat) else w 5,
    low20 (w 6) (frScale fr + trow.toNat * frStride fr + tcol.toNat / frL fr),
    w 7]
/-- The poisoned 8-byte words of a frame that word n of the derived one is made of: the flags and the block length stand in
the first, the steps in the third (16 R350, R354). -/
def tileReads (n : Nat) : List Nat :=
  match n with
  | 0 => [0]
  | 1 => [0, 1, 2]
  | 2 => [0, 2]
  | _ => [0, 3]
/-- Write the derived frame; a word made from a poisoned one is written poisoned (16 R350, R354). -/
def State.writeFrame (s : State) (c : Nat) (o : EngOp) : State :=
  if crType o.rcd = 1 ∧ tlFr o.rcd then
    let bs := (tileFrame o.rcd o.frame).flatMap fun w => leBytes 4 w.toNat
    let ks := span (keyCore c (field (crW o.rcd 12) 0 20)) 32
    s.engWrite o.by_ false ((ks.zip bs).zipIdx.map fun e =>
      (e.1.1, e.1.2, (tileReads (e.2 / 8)).any o.framePsn.contains))
  else s
/-- A barrier's update by an operation goes to its bank (16 R352). -/
def State.engBar (s : State) (b : Issuer) (op : Nat) (a : W64) (n : Nat) (arv : Bool) (code : BitVec 16) : State :=
  match barAcc s (whoBy s b) a with
  | .error _ => s
  | .ok acc =>
    s.tagged.homeNow { act := .bytes n arv code, place := acc.place, addr := a, ctx := b.ctx
                       tag := s.nextTag (unitCode b.unit), op := op }
/-- A completion write of an operation has not been made (16 R357). -/
def State.reportOut (s : State) (op : Nat) : Bool :=
  s.homeQ.any (fun h => h.op == op) || s.fab.reqs.any fun r => decide (r.use = .count op)
/-- Pieces that may be moved next: no earlier one that is left writes one of their bytes, so that writes to one
location keep the order of their indices (06 R120). -/
def freeItems : List Nat → List Item → List Item
  | _, [] => []
  | seen, i :: r =>
    let rest := freeItems (i.dkeys ++ seen) r
    if i.dkeys.any seen.contains then rest else i :: rest
/-- Pieces of a record that may be moved next: a REMOTE sends its packets in ascending address, any other is free but for
that (23 R446, 06 R120). -/
def nextItems (ty : Nat) (l : List Item) : List Item :=
  if ty = 6 then l.take 1 else freeItems [] l
/-- The barrier of an operation: for an iteration of a LOOP its stage's full barrier (16 R351, R352). -/
def EngOp.bar (o : EngOp) : W64 :=
  if crType o.rcd = 2 then crDone o.rcd + BitVec.ofNat 64 (16 * (o.iter % crW o.rcd 14)) else crDone o.rcd
/-- An operation subtracts some of the bytes it has moved from its barrier: a piece of at most 4 KiB, of a free size
(16 R352). A deterministic member does not (06 R136). -/
def State.engPiece (s : State) (o : EngOp) : State × EngOp :=
  if crCkind o.rcd ≠ 1 ∨ o.clock.isSome then (s, o)
  else
    let s := s.draw
    let n := (Config.freeWord s.draws).toNat % (Nat.min 4096 (o.moved - o.told) + 1)
    if n = 0 then (s, o) else (s.engBar o.by_ o.id o.bar n false 0, { o with told := o.told + n })
/-- The operation with what its plan says when it first writes. -/
def EngOp.planned (o : EngOp) (p : Plan) : EngOp :=
  match o.plan with
  | some _ => o
  | none => { (o.note p.faults false) with plan := some (p.items.map (·.off)) }
/-- The operation after a piece has been moved. -/
def EngOp.movedBy (o : EngOp) (i : Item) (bad : Bool) : EngOp :=
  let left := (o.plan.getD []).filter fun x => x != i.off
  { (o.note [] bad) with plan := some left, moved := o.moved + i.dkeys.length, wrote := left.isEmpty }
/-- The tag of a REDUCE's write that crosses a die link stands in the filter of its home (06 R130). -/
def State.noteReduce (s : State) (o : EngOp) (i : Item) : State :=
  if crType o.rcd = 4 then (s.filterOwn (s.nextTag (unitCode o.by_.unit)) (i.dkeys.headD 0) 0 false).tagged else s
/-- A REDUCE's write finds its home's filter full: it is tried again (06 R130). -/
def State.reduceFull (s : State) (o : EngOp) (i : Item) : Bool :=
  crType o.rcd == 4 && s.crosses (s.nextTag (unitCode o.by_.unit)) (i.dkeys.headD 0) &&
  s.filterFull (aluOf (i.dkeys.headD 0))
/-- Move one piece; it reads a poisoned byte or not. -/
def State.moveItem (s : State) (o : EngOp) (i : Item) : State × Bool :=
  if crType o.rcd = 6 then
    let s := s.widen none i.srcs.flatten
    (s.sendRemote o i, i.srcs.any fun ks => gotPsn (s.engRead o.by_ ks))
  else
    let r := s.runPlan o.by_ ⟨[i], []⟩
    (r.1.noteReduce o i, r.2)
/-- A write of a running operation performs: one piece, which a free value picks, under its line's own stamp; pages
that no longer translate fault (06 R120, 16 R354). -/
def State.engPerform (s : State) (c : Nat) (o : EngOp) : State :=
  if o.wrote || o.isLoop then s
  else if o.code = 0x0012 then s.setRun c { o with wrote := true }
  else
    let p := if crType o.rcd = 6 then planRemote s o else planOf s c o
    let o := o.planned p
    let todo := o.plan.getD []
    let bad := !o.framePsn.isEmpty
    match pick s.draws (nextItems (crType o.rcd) (p.items.filter fun i => todo.contains i.off)) with
    | none =>
      let o := (o.note (p.faults.filter fun e => todo.contains e.1) bad)
      (s.writeFrame c o).setRun c { o with plan := some [], wrote := true }
    | some i =>
      match s.planWaits ⟨[i], []⟩ with
      | some (some l) => s.getLine (unitCode o.by_.unit) l false
      | some none => s
      | none =>
        if s.reduceFull o i then s
        else
          let r := s.moveItem o i
          let o := o.movedBy i (r.2 || bad)
          if o.wrote then (r.1.writeFrame c o).setRun c o
          else
            let r := r.1.engPiece o
            r.1.setRun c r.2
/-- A status word (09 R202). -/
def statusWord (code : BitVec 16) (detail : BitVec 8) : W32 :=
  BitVec.ofNat 32 (detail.toNat + 2 ^ 16 * code.toNat)
/-- The last completion write of an operation goes to its home (16 R352, R353). -/
def State.engReport (s : State) (o : EngOp) (code : BitVec 16) (detail : BitVec 8) : State :=
  let r := o.rcd
  let n := crBytes r o.frame
  match crCkind r with
  | 1 => s.engBar o.by_ o.id o.bar (n - o.told) (crArv r) code
  | 2 =>
    s.cntComplete o.by_.ctx (unitCode o.by_.unit) o.id (crDone r) (BitVec.ofNat 64 (if crCadd r = 0 then n else crCadd r))
      (if code = 0 then 0 else statusWord code detail)
  | _ => s
/-- An operation that tear-down stops: every iteration of a LOOP that has been released, any other once (16 R354). (DEDUCED,
log entry 58.) -/
def State.engStop (s : State) (o : EngOp) : State :=
  if o.sent then s
  else if !o.isLoop then s.engReport o 0x0009 0
  else if !o.nexts.isEmpty then s
  else
    foldL (fun (s : State) (i : Nat) => s.engReport (o.iteration o.id i none) 0x0009 0) s
      (upTo (Nat.min (crW o.rcd 14) (crW o.rcd 13)))
/-- Every iteration of a LOOP has been released. -/
def EngOp.spent (o : EngOp) : Bool := o.nexts.all fun i => decide (crW o.rcd 13 ≤ i)
/-- A LOOP whose last iteration has completed leaves. -/
def State.loopLeave (s : State) (c id : Nat) : State :=
  let l := (s.core c).engRun
  match findFirst (fun y => y.id == id) l with
  | none => s
  | some o =>
    if !o.spent || l.any (fun y => decide (y.of_ = some id)) then s
    else (s.modCore c fun x => { x with engRun := dropFirst (fun y => y.id == id) x.engRun }).opsDec o.by_.launch
/-- An operation leaves the engine. -/
def State.engLeave (s : State) (c : Nat) (o : EngOp) : State :=
  let s := s.modCore c fun x => { x with engRun := dropFirst (fun y => y.id == o.id) x.engRun }
  match o.of_ with
  | some id => s.loopLeave c id
  | none => s.opsDec o.by_.launch
/-- The ROUND of the empty barrier of a stage, if it can be read. -/
def State.emptyRound (s : State) (o : EngOp) (st : Nat) : Option Bool :=
  match barAcc s (whoBy s o.by_) (crD o.rcd 8 + BitVec.ofNat 64 (16 * st)) with
  | .error _ => none
  | .ok acc => if s.barPsn acc.place.key then none else some (barOf (s.barNum acc.place.key)).round
/-- Release the next iteration of a LOOP's stage whose empty barrier has flipped; as a member of a domain it has the pair
given (06 R118, R136, 16 R351). (DEDUCED, log entry 34.) -/
def State.loopStage (s : State) (c id : Nat) (clock : Option (Nat × Nat)) (st : Nat) : State :=
  match findFirst (fun y => y.id == id) (s.core c).engRun with
  | none => s
  | some o =>
    let i := o.nexts.getD st (crW o.rcd 13)
    if crW o.rcd 13 ≤ i then s
    else
      match s.emptyRound o st with
      | none => s
      | some b =>
        if b == o.rounds.getD st false then s
        else
          let x := o.iteration s.nextId i clock
          let o := { o with rounds := o.rounds.set st b, nexts := o.nexts.set st (i + crW o.rcd 14) }
          (s.fresh.setRun c o).modCore c fun y => { y with engRun := y.engRun ++ [x] }
/-- Release the iterations of a LOOP whose stages' empty barriers have flipped. -/
def State.loopStages (s : State) (c : Nat) (o : EngOp) (clock : Option (Nat × Nat)) : State :=
  if o.isLoop then foldL (fun s st => s.loopStage c o.id clock st) s (upTo o.nexts.length) else s
/-- The same as an event. -/
def State.loopRefill (s : State) (c : Nat) (o : EngOp) : State := s.loopStages c o o.clock
/-- A deterministic party of a launch with a pair has acted: an iteration that its arrival released is issued at its clock
(06 R118, R136; DEDUCED, log entry 63). -/
def State.loopPoll (s : State) (launch : Nat) (p : Nat × Nat) : State :=
  match findFirst (fun d => d.launch == launch) s.disp.doms with
  | none => s
  | some d =>
    foldL (fun s (e : Nat × Core) => foldL (fun s (o : EngOp) =>
      if o.clock.isSome && o.by_.launch == launch then s.loopStages e.1 o (some (p.1 + d.quant, p.2)) else s) s e.2.engRun)
      s s.cores
/-- An operation whose completion write has been made leaves; the load map takes a BSLOAD (03 R61). -/
def State.engEnd (s : State) (c : Nat) (o : EngOp) : State :=
  if s.reportOut o.id then s
  else
    let s := if crType o.rcd = 3 ∧ o.code ≠ 0x0012 then
        s.modCore (bsCore o.rcd c) fun x => { x with loadMap := x.loadMap ++ [bsEntry o] }
      else s
    let s := s.engLeave c o
    match o.clock with
    | some p => s.loopPoll o.by_.launch p
    | none => s
/-- Complete an operation whose writes have performed; a deterministic member at its turn only (06 R136, 16 R351, R352). -/
def State.engFinish (s : State) (c : Nat) (o : EngOp) : State :=
  if o.sent then s.engEnd c o
  else if !o.wrote || s.remoteOut o.id || !s.memberTurn o.by_.launch o.clock o.id then s
  else
    let o' := { o with sent := true }
    ((s.setRun c o').engReport o o.code o.detail).engEnd c o'
/-- A LOOP that waits for an empty barrier is parked (16 R357). -/
def EngOp.parked (o : EngOp) : Bool := o.isLoop && !o.spent

end Sys2Proof.Machine
end

