-- ==== Sys2Proof/Machine/Engine.lean ====
section
/-!
DEFINITION. KICK and EQUIESCE (16 R346, R355 to R357, 08 R179).
-/
namespace Sys2Proof.Machine

/-- Core-local number of the producer group of the current group's launch on its core; 0xFF when there is none
(10 R216). -/
def State.producerNum (s : State) : W64 :=
  let g := s.g
  match findFirst (fun x : Group => decide (x.launch = g.launch) &&
      decide (unitCore x.unit = unitCore g.unit) && decide (x.producer = some x.localNum)) s.groups with
  | some x => BitVec.ofNat 64 x.localNum
  | none => 0xFF
/-- Words of consecutive bytes. -/
def State.words (s : State) (k n : Nat) : List W32 :=
  (upTo n).map fun j => BitVec.ofNat 32 (s.num (span (k + 4 * j) 4))
/-- The frames that a record names, eight words each; one that lies outside the core scratchpad is not read. -/
def readFrames (s : State) (c : Nat) (rcd : List W32) : List W32 :=
  (crFrames rcd).flatMap fun e => if offBad (spaceSize s s.who .core) e.2 then List.replicate 8 0
    else s.words (keyCore c e.2) 8
/-- The 8-byte words of those frames that are poisoned. -/
def framesPsn (s : State) (c : Nat) (rcd : List W32) : List Nat :=
  (crFrames rcd).zipIdx.flatMap fun e =>
    if offBad (spaceSize s s.who .core) e.1.2 then []
    else ((upTo 4).filter fun n => s.psn (keyCore c (e.1.2 + 8 * n))).map fun n => 4 * e.2 + n
/-- The operation that a record makes (16 R346, R350, R351). -/
def newOp (s : State) (c : Nat) (rcd : List W32) : EngOp :=
  let o : EngOp :=
    { id := s.nextId, rcd := rcd, by_ := issuerOf s.g, frame := readFrames s c rcd
      framePsn := framesPsn s c rcd, clock := s.g.memberPair }
  if crType rcd = 2 then { o with rounds := (upTo (crW rcd 14)).map fun st => (s.emptyRound o st).getD false } else o
/-- KICK (16 R356): the checks, the test for a full queue, the fork of 06 R119, and the record is queued. -/
def execKick (b : SReg) (s : State) : Out :=
  uniform s none (some 0x17) [useS b] fun s => inTurn s fun s =>
    let off := s.g.sGet b
    if s.g.producer ≠ some s.g.localNum then s.raise 0x14 0 s.producerNum
    else
      match checkSpecific s s.who .core off 64 64 with
      | .error e => s.raise e.cause e.addr e.info
      | .ok o => ownBanks s fun s =>
        let c := unitCoreN s.g.unit
        if s.anyPsn (span (keyCore c o) 64) then s.raise 0x30 off 0
        else
          let rcd := s.words (keyCore c o) 16
          match crCheck s s.who rcd (readFrames s c rcd) with
          | some e => s.raise 0x1C off (erec e)
          | none =>
            if 16 ≤ (s.core c).engQ.length then s.blockOn .engineFull
            else
              forking s (if crType rcd = 6 then .fab else .dev) fun s =>
                let op := newOp s c rcd
                let s := s.fresh.opsInc s.g.launch 1
                .next ((s.modCore c fun x => { x with engQ := x.engQ ++ [op] }).retire 1)

/-- The core's engine and Riddle operations have written their completion objects, a parked LOOP apart
(16 R357). -/
def State.engQuiet (s : State) (c : Nat) : Bool :=
  (s.core c).engQ.isEmpty && (s.core c).engRun.all EngOp.parked && !(s.riddle.any fun r => r.core == c)
/-- EQUIESCE (16 R357). -/
def execEquiesce (s : State) : Out :=
  uniform s none (some 0x17) [] fun s =>
    let s := s.finishFences
    if !s.engQuiet (unitCoreN s.g.unit) || s.g.fences.any (fun f => decide (f.k < 16)) then s.blockOn .quiesce
    else acquiring s fun s => .next (s.retire 1)

end Sys2Proof.Machine
end

