-- ==== Sys2Proof/Machine/Router.lean ====
section
/-!
DEFINITION. Packets and links: replies, header and flit layouts, what a link puts on the wire, and routing
(17 R376 to R388).
-/
namespace Sys2Proof.Machine

/-! ## Replies. -/

/-- The payload of a management answer: its status, with bit 63 set (the model's layout, DESIGN CHOICE, log entry 11). -/
def mgmtMark (code : Nat) : List Byte := leBytes 8 (2 ^ 63 + code)
/-- A management packet that answers another. -/
def mgmtAnswer (p : Packet) : Bool := decide (p.cls = 2) && p.data.length == 8 && (p.data.getD 7 0).getLsbD 7
/-- The status of a management answer. -/
def mgmtStatus (p : Packet) : Nat := leNat (p.data.take 4)
/-- The packet asks for an answer. -/
def isRequest (p : Packet) : Bool := decide (p.cls = 0) || (decide (p.cls = 2) && !mgmtAnswer p)
/-- Answer a request. -/
def State.reply (s : State) (q p : Packet) : State :=
  s.emit { p with
    cls := 1, hop := 0, dst := q.src, src := BitVec.ofNat 10 s.myId, unit := q.unit, seqn := q.seqn
    addr := q.addr, ndata := flitsOf p.data.length, len := BitVec.ofNat 32 p.data.length }
/-- Answer with a status (17 R383): 1 MIGRATION_CHAIN, 2 NOT_OWNER, 3 RETRY, 4 UNREACHABLE, 5 HELD. -/
def State.replyStatus (s : State) (q : Packet) (code : W32) : State := s.reply q { typ := 0x23, aux := code }
/-- Answer a management request. -/
def State.replyMgmt (s : State) (q : Packet) (code : Nat) : State :=
  s.emit { q with
    hop := 0, dst := q.src, src := BitVec.ofNat 10 s.myId, data := mgmtMark code, ndata := 1, len := 8, psn := 0 }
/-- A packet that cannot go on: a request is answered UNREACHABLE, a reply is discarded with a record of
the given kind (17 R377, R380, R387). -/
def State.refusePacket (s : State) (p : Packet) (kind : Nat) : State :=
  if isRequest p then if p.cls = 2 then s.replyMgmt p 4 else s.replyStatus p 4
  else if kind = 11 then s.notice 11 p.dst.toNat 0 (tagOf p) 1
  else s.notice kind 0 0 (tagOf p) 1

/-! ## The header flit and the flits (17 R381, R382). -/

/-- A header as a number. -/
def headerNum (p : Packet) : Nat :=
  let bit (k : Nat) (b : Bool) : Nat := if b then 2 ^ k else 0
  p.typ.toNat + 2 ^ 6 * p.cls.toNat + 2 ^ 8 * p.hop.toNat + 2 ^ 11 * p.ndata.toNat + 2 ^ 14 * p.dst.toNat +
  2 ^ 32 * p.src.toNat + 2 ^ 42 * p.stubs.toNat + bit 44 p.relayed + bit 45 p.redir +
  2 ^ 64 * p.unit.toNat + 2 ^ 80 * p.seqn.toNat + 2 ^ 128 * p.addr.toNat + 2 ^ 192 * p.aux.toNat +
  2 ^ 224 * p.len.toNat + 2 ^ 256 * p.opnd.toNat + 2 ^ 384 * p.psn.toNat
/-- A packet from its header's number and its payload. -/
def packetOf (n : Nat) (data : List Byte) : Packet :=
  { typ := BitVec.ofNat 6 n, cls := BitVec.ofNat 2 (n / 2 ^ 6), hop := BitVec.ofNat 3 (n / 2 ^ 8)
    ndata := BitVec.ofNat 3 (n / 2 ^ 11), dst := BitVec.ofNat 10 (n / 2 ^ 14)
    src := BitVec.ofNat 10 (n / 2 ^ 32), stubs := BitVec.ofNat 2 (n / 2 ^ 42)
    relayed := field n 44 1 == 1, redir := field n 45 1 == 1, unit := BitVec.ofNat 16 (n / 2 ^ 64)
    seqn := BitVec.ofNat 32 (n / 2 ^ 80), addr := BitVec.ofNat 64 (n / 2 ^ 128)
    aux := BitVec.ofNat 32 (n / 2 ^ 192), len := BitVec.ofNat 32 (n / 2 ^ 224)
    opnd := BitVec.ofNat 128 (n / 2 ^ 256), psn := BitVec.ofNat 64 (n / 2 ^ 384)
    data := data.take (field n 224 32) }
/-- One step of the CRC-24 of RFC 4880 for a byte. -/
def crcBits : Nat → Nat → Nat
  | 0, c => c
  | n + 1, c => crcBits n (let d := 2 * c; if d / 2 ^ 24 % 2 = 1 then d % 2 ^ 24 ^^^ 0x864CFB else d % 2 ^ 24)
/-- CRC-24 (17 R381). -/
def crc24 (l : List Byte) : Nat := foldL (fun c b => crcBits 8 (c ^^^ b.toNat * 2 ^ 16)) 0xB704CE l
/-- An envelope and its flit. -/
def flitBytes (data : List Byte) (seq : BitVec 16) (fidx : Nat) (last ackv nak : Bool) (ack : BitVec 16) :
    List Byte :=
  let bit (k : Nat) (b : Bool) : Nat := if b then 2 ^ k else 0
  let e := leBytes 5 (seq.toNat + 2 ^ 16 * fidx + bit 19 last + bit 20 ackv + bit 21 nak + 2 ^ 24 * ack.toNat)
  let d := (data ++ List.replicate 64 0).take 64
  d ++ e ++ leBytes 3 (crc24 (d ++ e))

/-! ## Links. -/

/-- Replace a fabric link. -/
def State.setLink (s : State) (n : Nat) (l : FLink) : State :=
  { s with fab := { s.fab with links := tblSet (linkInit s.sys.fuse.grade n) s.fab.links n l } }
/-- A link carries packets. -/
def FLink.up (l : FLink) : Bool := decide (l.st = .up16) || decide (l.st = .up8)
/-- The last packet that has been accepted, as ACK names it (17 R384). -/
def FLink.ackNum (l : FLink) : BitVec 16 := l.rxExp - 1
/-- The flits of a packet, with the acknowledgement that is due on the first. -/
def FLink.flits (l : FLink) (seq : BitVec 16) (p : Packet) : List (List Byte) :=
  let n := p.ndata.toNat
  let part (i : Nat) : List Byte := if i = 0 then leBytes 64 (headerNum p) else (p.data.drop (64 * (i - 1))).take 64
  (upTo (n + 1)).map fun i => flitBytes (part i) seq i (i == n) (l.ackDue && i == 0) (l.nak && i == 0) l.ackNum
/-- The virtual channel on which a packet crosses its next link (17 R377). -/
def channelOf (p : Packet) : Nat :=
  match p.cls.toNat with
  | 0 => p.hop.toNat
  | 1 => 7 + p.hop.toNat
  | _ => if mgmtAnswer p then 15 else 14
/-- Put packets of one channel on the wire, while the replay buffer has room (17 R384); what is left over. -/
def FLink.pumpOne (l : FLink) : List Packet → FLink × List Packet
  | [] => (l, [])
  | p :: r =>
    if 1024 ≤ l.replay.length then (l, p :: r)
    else
      ({ l with
        wire := l.wire ++ l.flits l.txSeq p, replay := l.replay ++ [(l.txSeq, p)], txSeq := l.txSeq + 1
        ackDue := false, nak := false, unacked := 0 }).pumpOne r
/-- Put the waiting packets of a link on the wire, channel by channel; which channel goes first the spec leaves open (DESIGN
CHOICE, log entry 64). -/
def FLink.pump (l : FLink) : List (Nat × List Packet) → FLink
  | [] => l
  | (c, ps) :: r =>
    let x := l.pumpOne ps
    ({ x.1 with txq := tblSet [] x.1.txq c x.2 }).pump r
/-- Put what waits on the wire, if the link is up and not retraining. -/
def State.pumpLink (s : State) (n : Nat) : State :=
  let l := s.flink n
  if l.up && !l.retraining then s.setLink n (l.pump l.txq) else s
/-- Send the buffered packets again (17 R385). -/
def FLink.replayAll (l : FLink) : FLink :=
  if l.replay.isEmpty then l
  else { l with wire := l.wire ++ l.replay.flatMap fun e => l.flits e.1 e.2, ackDue := false, nak := false }
/-- Send an idle flit with the acknowledgement (17 R384). -/
def FLink.sendIdle (l : FLink) : FLink :=
  { l with wire := l.wire ++ [flitBytes [] 0 7 false true l.nak l.ackNum], ackDue := false, nak := false
           unacked := 0 }
/-- Queue a packet on a port, in its virtual channel. -/
def State.linkSend (s : State) (n : Nat) (p : Packet) : State :=
  let l := s.flink n
  let c := channelOf p
  (s.setLink n { l with txq := tblSet [] l.txq c (tblGet [] l.txq c ++ [{ p with hop := p.hop + 1 }]) }).pumpLink n

/-! ## Routing (17 R377, R379, R380). -/

/-- The route of a destination. -/
def State.routeOf (s : State) (d : Nat) : Route := tblGet {} s.fab.routes d
/-- A packet that is not for this device goes to its port (17 R377, R380). -/
def State.route (s : State) (p : Packet) : State :=
  let r := s.routeOf p.dst.toNat
  if 7 ≤ p.hop.toNat then s.refusePacket p 12
  else if s.fab.markers.contains p.dst.toNat && decide (p.typ ≠ 0x31) then
    { s with fab := { s.fab with heldTx := s.fab.heldTx ++ [p] } }
  else if !r.v || !(s.flink r.port.toNat).up then s.refusePacket p 11
  else s.linkSend r.port.toNat p

/-! ## Neighbours, links that go down or train again (01 R25, 17 R375, R387, R396). -/

/-- The enumeration table has changed (01 R25). -/
def State.enumBump (s : State) : State := { s with sys := { s.sys with enumGen := s.sys.enumGen + 1 } }

/-- A link goes DOWN: what waits for it is refused, but for what its ends tell each other of themselves (17 R387). -/
def State.linkDown (s : State) (n : Nat) : State :=
  let l := s.flink n
  let out := (l.replay.map (·.2) ++ l.txq.flatMap (·.2)).filter fun p => decide (p.typ ≠ 0x32)
  let s := s.setLink n { l with st := .down, half := false, replay := [], txq := [], rxFlits := [], retraining := false
                                ackDue := false, nak := false, unacked := 0 }
  foldL (fun s p => s.refusePacket p 11) s.enumBump out
/-- The far end's ID is this device's, or another port's neighbour's (17 R375). -/
def State.nbrConflict (s : State) (n d : Nat) : Bool :=
  d == s.myId || (upTo 12).any fun m => m != n && ((s.flink m).nbr.map (·.1)) == some d
/-- The far end of a link has told its ID and port: the neighbour table holds them, or the link goes DOWN with a record (17
R375). -/
def State.neighbour (s : State) (n d port : Nat) : State :=
  if s.nbrConflict n d then
    (if (s.flink n).up then s.linkDown n else s).notice 10 n 0 (BitVec.ofNat 64 d) 1
  else s.setLink n { s.flink n with nbr := some (d, port) }
/-- This device tells the far end of a link its ID and the port: eight bytes (17 R375; the model's layout, DESIGN CHOICE, log
entry 11). -/
def State.sendNeighbour (s : State) (n : Nat) : State :=
  s.linkSend n { typ := 0x32, cls := 2, src := BitVec.ofNat 10 s.myId, data := leBytes 8 (s.myId + 2 ^ 16 * n), ndata := 1
                 len := 8 }
/-- The far end of a link trains it again: this end stops and trains too (17 R396). -/
def State.joinRetrain (s : State) (n : Nat) : State :=
  let l := s.flink n
  if l.up then s.setLink n { l with retraining := true } else s

/-! ## Combining (06 R129, 17 R388). -/

/-- The request is an integer add that a router may combine. -/
def combinable (p : Packet) : Bool :=
  decide (p.typ = 5) && decide (p.cls = 0) && p.data.getD 0 1 == 0 && p.data.getD 2 1 == 0 &&
  decide ((p.data.getD 3 2).toNat < 2) && p.data.getD 4 1 == 0
/-- Two packets of one class, source and destination, which keep their order (17 R379). -/
def sameStream (p q : Packet) : Bool := decide (p.cls = q.cls) && decide (p.src = q.src) && decide (p.dst = q.dst)
/-- A constituent of the window belongs to a packet's stream. -/
def Window.mate (w : Window) (p : Packet) : Bool := w.parts.any (sameStream p)
/-- The request may join the window: its address and size, and room. -/
def Window.takes (w : Window) (p : Packet) : Bool :=
  decide (w.addr = p.addr) && w.sent.isNone && decide (w.parts.length < 8) &&
  (match w.parts with
   | q :: _ => q.data.getD 1 0 == p.data.getD 1 0
   | [] => false)
/-- Put a request in a window of its address and size, if no later one holds an older request of its stream (04 R88,
06 R129). -/
def joinWindow (p : Packet) : List Window → Option (List Window)
  | [] => none
  | w :: r =>
    match joinWindow p r with
    | some l => some (w :: l)
    | none =>
      if r.any (fun x => x.mate p) || !w.takes p then none else some ({ w with parts := w.parts ++ [p] } :: r)
/-- Put a request in a window, or open one. -/
def State.combineIn (s : State) (p : Packet) : State :=
  let l := (joinWindow p s.fab.combine).getD
    (s.fab.combine ++ [{ addr := p.addr, parts := [p], sent := none, answers := [] }])
  { s with fab := { s.fab with combine := l } }
/-- A tag is a combined request's. -/
def State.isCombined (s : State) (t : W64) : Bool := s.fab.combine.any fun w => decide (w.sent = some t)
/-- The stored answer of a constituent that the router has answered (17 R388). -/
def State.combined (s : State) (p : Packet) : Option (W64 × Bool) :=
  firstSome (s.fab.combine.map fun w =>
    (findFirst (fun e : W64 × W64 × Bool => decide (e.1 = tagOf p)) w.answers).map (·.2))
/-- A new packet for another device: a replayed constituent gets its stored answer, or waits for the sum that carries it;
an add goes to a combining window; what stands behind a combined request of its stream waits for it; the rest goes to its
port (06 R129, 17 R377, R379, R388). -/
def State.sendOn (s : State) (p : Packet) : State :=
  let hold : State := { s with fab := { s.fab with heldTx := s.fab.heldTx ++ [p] } }
  match s.combined p with
  | some v => s.reply p { typ := 0x21, data := leBytes 8 v.1.toNat, psn := if v.2 then 1 else 0 }
  | none =>
    if s.isCombined (tagOf p) then s.route p
    else if s.fab.combine.any fun w => w.parts.any fun q => decide (tagOf q = tagOf p) then s
    else if s.fab.heldTx.any (sameStream p) then hold
    else if combinable p && !p.relayed then s.combineIn p
    else if s.fab.combine.any fun w => w.mate p then hold
    else s.route p
/-- Packets that wait in the router try again, in order. -/
def State.retryTx (s : State) : State :=
  if s.fab.heldTx.isEmpty then s
  else foldL State.sendOn { s with fab := { s.fab with heldTx := [] } } s.fab.heldTx

end Sys2Proof.Machine
end

