-- ==== Sys2Proof/Machine/RidRun.lean ====
section
/-!
DEFINITION. Riddle operations: elements, where they travel, and completion (16 R358 to R366, 21 R433,
06 R120, R121).
-/
namespace Sys2Proof.Machine

/-! ## Parameters (16 R358). -/

/-- Parameter word n. -/
def RidOp.w (o : RidOp) (n : Nat) : Nat := (o.p.getD n 0).toNat
/-- RID.IDX. -/
def RidOp.idx (o : RidOp) : Nat := field (o.w 0) 0 20
/-- Bytes of an element; for MCST, all its bytes. -/
def RidOp.esz (o : RidOp) : Nat :=
  if o.kind = .mcst then (field (o.w 0) 0 6 + 1) * 4 else (field (o.w 0) 20 10 + 1) * 4
/-- Elements. -/
def RidOp.count (o : RidOp) : Nat := if o.kind = .mcst then 1 else field (o.w 1) 0 16 + 1
/-- The most pieces that an element may have: words of a SCATADD, else parts of lines (06 R120, 16 R362). -/
def RidOp.perElem (o : RidOp) : Nat :=
  if o.kind = .scatadd then o.esz / (if field (o.w 1) 16 2 = 1 then 8 else 4) else (o.esz + 63) / 64 + 1
/-- RID.ADDT. -/
def RidOp.addt (o : RidOp) : Nat := field (o.w 1) 16 2
/-- MCST.GROUP. -/
def RidOp.group (o : RidOp) : Nat := field (o.w 1) 0 12
/-- RID.LOC. -/
def RidOp.loc (o : RidOp) : Nat := field (o.w 2) 0 25
/-- The space of LOC. -/
def RidOp.space (o : RidOp) : Space :=
  match field (o.w 2) 25 2 with
  | 1 => .chip
  | 2 => .cluster
  | _ => .core
/-- RID.FBM. -/
def RidOp.fbm (o : RidOp) : Nat := field (o.w 3) 0 20
/-- RID.NOBM. -/
def RidOp.nobm (o : RidOp) : Bool := field (o.w 3) 20 1 == 1
/-- Bytes of the fault bitmap, or of the acknowledgement record. -/
def RidOp.fbmBytes (o : RidOp) : Nat := if o.kind = .mcst then 16 else (o.count + 31) / 32 * 4
/-- Locations of n bytes of the local buffer. -/
def RidOp.locKeys (o : RidOp) (s : State) (off n : Nat) : List Nat :=
  spaceKeys s (whoBy s o.by_) 0 o.space (o.loc + off) n
/-- The access an element makes (04 R76). -/
def RidOp.access (o : RidOp) : Kind :=
  match o.kind with
  | .gather => .load
  | .scatter => .store
  | _ => .rmw

/-! ## Elements (16 R361 to R363). -/

/-- Locations of an index entry. -/
def RidOp.idxKeys (o : RidOp) (i : Nat) : List Nat := span (keyCore o.core (o.idx + 4 * i)) 4
/-- The index of element i, and whether it is poisoned: as the operation has read it, else as it stands (16 R361). -/
def RidOp.index (o : RidOp) (s : State) (i : Nat) : W32 × Bool :=
  match tblGet none o.idxRead i with
  | some e => e
  | none => (BitVec.ofNat 32 (s.num (o.idxKeys i)), s.anyPsn (o.idxKeys i))
/-- The operation once it has read the index of element i: all of the element uses that row. -/
def RidOp.latch (o : RidOp) (s : State) (i : Nat) : RidOp :=
  { o with idxRead := tblSet none o.idxRead i (some (o.index s i)) }
/-- The address of element i. -/
def RidOp.elemAddr (o : RidOp) (s : State) (i : Nat) : W64 :=
  o.base + BitVec.ofNat 64 ((o.index s i).1.toNat * o.esz)
/-- An element's locations, or why it faults (16 R363). -/
def RidOp.elem (o : RidOp) (s : State) (i : Nat) : Except Fail (List Nat) :=
  let a := o.elemAddr s i
  if (o.index s i).2 then .error ⟨0x30, a, 0⟩
  else if 2 ^ 63 < a.toNat + o.esz then .error ⟨0x0C, a, 0x8000000000000000⟩
  else globKeys s (whoBy s o.by_) o.access a o.esz
/-- The page of one byte, if the device does not own it. -/
def RidOp.peerPage (o : RidOp) (s : State) (a : W64) : Option W64 :=
  let w := whoBy s o.by_
  match xlate s w o.access a with
  | .error _ => none
  | .ok l => if l.isLocal then none else some (BitVec.ofNat 64 (a.toNat / l.size * l.size))
/-- The page that an element travels with (16 R361). -/
def RidOp.page (o : RidOp) (s : State) (a : W64) : Option W64 :=
  match o.peerPage s a with
  | some p => some p
  | none => o.peerPage s (a + BitVec.ofNat 64 (o.esz - 1))
/-- A Riddle operation that has not completed. -/
def State.rid (s : State) (id : Nat) : Option RidOp := findFirst (fun o => o.id == id) s.riddle
/-- Change an operation. -/
def State.modRid (s : State) (id : Nat) (f : RidOp → RidOp) : State :=
  { s with riddle := modFirst (fun o => o.id == id) f s.riddle }
/-- A request of an operation has not been answered. -/
def State.ridOut (s : State) (id : Nat) (i : Option Nat) : Bool := s.fab.reqs.any fun r =>
  match r.use with
  | .element o j => o == id && (match i with
    | none => true
    | some i => i == j)
  | .mroot o => o == id && i.isNone
  | _ => false

/-- Write an element of the local buffer. -/
def State.ridWriteLoc (s : State) (o : RidOp) (i : Nat) (l : List (Byte × Bool)) : State :=
  s.engWrite o.by_ false ((o.locKeys s (i * o.esz) o.esz).zip l)
/-- An element faults: it is noted, and a GATHER writes zeros, or poisoned words for a poisoned index
(16 R363). -/
def State.ridFault (s : State) (o : RidOp) (i cause : Nat) : State :=
  let s := s.modRid o.id fun x => { x with
    faults := if x.faults.any (fun e => e.1 == i) then x.faults else x.faults ++ [(i, cause)] }
  if o.kind = .gather then s.ridWriteLoc o i (List.replicate o.esz (0, cause == 0x30)) else s
/-- A poisoned byte was read, or a poisoned word found. -/
def State.ridPsn (s : State) (o : RidOp) (b : Bool) : State :=
  if b then s.modRid o.id fun x => { x with psn := true } else s
/-- GATHER: a piece of an element whose lines are here. An unreachable line makes all of the element poisoned
(16 R361, R363, R364). (DEDUCED, log entry 30.) -/
def State.ridGather (s : State) (o : RidOp) (i : Nat) (ks : List Nat) (x : Nat × Nat) : State :=
  let kp := (ks.drop x.1).take x.2
  let s := s.widen none kp
  let got := (s.engRead o.by_ kp).map fun g => (g.b, g.psn)
  if kp.any fun k => isPeerKey k && (tblGet {} s.own.peers ((k - regionBase 5) / 64)).lost then
    let s := (s.dropLost kp).ridWriteLoc o i (List.replicate o.esz (0, true))
    (s.ridPsn o true).modRid o.id fun y => { y with todo := y.todo.filter fun n => n / o.perElem != i }
  else
    (s.engWrite o.by_ false ((o.locKeys s (i * o.esz + x.1) x.2).zip got)).ridPsn o (got.any (·.2))
/-- The bytes are written here: the device owns them, or holds their line exclusively (21 R433). -/
def State.writesHere (s : State) (k : Nat) : Bool :=
  !isPeerKey k || s.exclHere k
/-- Cut n bytes from an address into pieces within 64-byte lines: offset and length; fuel bounds them. -/
def linePieces : Nat → Nat → Nat → Nat → List (Nat × Nat)
  | 0, _, _, _ => []
  | f + 1, a, off, n =>
    if n = 0 then []
    else
      let k := Nat.min n (64 - (a + off) % 64)
      (off, k) :: linePieces f a (off + k) (n - k)
/-- Ask the owner to write some bytes (17 R383): the mask has one bit a payload byte. -/
def State.sendWrite (s : State) (o : RidOp) (i : Nat) (a : W64) (l : List (Byte × Bool)) : State :=
  s.request { s.toOwner 3 (unitCode o.by_.unit) a with
    opnd := BitVec.ofNat 128 (2 ^ l.length - 1), data := l.map (·.1)
    psn := psnMarks a.toNat (l.map (·.2)) } (.element o.id i)
/-- Write some bytes of an element. -/
def State.ridStore (s : State) (o : RidOp) (i : Nat) (a : W64) (ks : List Nat) (l : List (Byte × Bool)) :
    State :=
  if ks.all s.writesHere then s.engWrite o.by_ true (ks.zip l) else s.sendWrite o i a l
/-- SCATTER: a piece of an element (16 R362). -/
def State.ridScatter (s : State) (o : RidOp) (i : Nat) (a : W64) (ks : List Nat) (x : Nat × Nat) : State :=
  let got := (s.engRead o.by_ (o.locKeys s (i * o.esz + x.1) x.2)).map fun g => (g.b, g.psn)
  (s.ridStore o i (a + BitVec.ofNat 64 x.1) ((ks.drop x.1).take x.2) got).ridPsn o (got.any (·.2))
/-- One word addition of SCATADD (16 R362). -/
def State.ridAdd (s : State) (o : RidOp) (i : Nat) (a : W64) (ks : List Nat) (l : List (Byte × Bool)) :
    State :=
  let op : AtomOp := if o.addt = 2 then .fadd else .add
  let z : ASize := if o.addt = 1 then .d else .w
  let c : W64 := BitVec.ofNat 64 (leNat (l.map (·.1)))
  let tag := s.nextTag (unitCode o.by_.unit)
  let k := ks.headD 0
  if l.any (·.2) then (s.ridStore o i a ks l).ridPsn o true
  else if !ks.all s.writesHere then
    s.request (s.atomPacket (unitCode o.by_.unit) a op z true o.clock.isSome c 0
      (List.replicate l.length none)) (.element o.id i)
  else if s.cutAny o.by_.unit ks then s.lostWrite (unitDie s o.by_.unit) k a
  else
    let s := s.tagged.widen none ks
    let old := s.num ks
    if s.anyPsn ks then ((s.filterOwn tag k 0 true).uncorrectable 6 (dieOfKey s k) (instOf k) a tag).ridPsn o true
    else
      match rmwNew op z old c.toNat 0 with
      | none => s
      | some v => (((s.writeHome false (cellsOf ks (leBytes l.length v)) o.by_.gts).1).filterOwn tag k
          (BitVec.ofNat 64 old) false).flushInvals
/-- SCATADD: a word of an element. -/
def State.ridScatadd (s : State) (o : RidOp) (i : Nat) (a : W64) (ks : List Nat) (x : Nat × Nat) : State :=
  let got := (s.engRead o.by_ (o.locKeys s (i * o.esz + x.1) x.2)).map fun g => (g.b, g.psn)
  s.ridAdd o i (a + BitVec.ofNat 64 x.1) ((ks.drop x.1).take x.2) got

/-- The pieces of an element at an address: offset and length. -/
def RidOp.pieces (o : RidOp) (a : W64) : List (Nat × Nat) :=
  if o.kind = .scatadd then (upTo o.perElem).map fun j => (o.esz / o.perElem * j, o.esz / o.perElem)
  else linePieces (o.esz / 64 + 2) a.toNat 0 o.esz
/-- Note the page of an element as it is first sent, or as its replies are in (21 R433). -/
def State.ridPage (s : State) (o : RidOp) (pg : Option W64) (i : Nat) (in_ : Bool) : State :=
  match pg with
  | none => s
  | some p => s.modRid o.id fun x =>
      if x.pages.any (fun e => decide (e.1 = p)) then
        { x with pages := x.pages.map fun e => if e.1 = p ∧ e.2.1 = i then (p, i, in_) else e }
      else { x with pages := x.pages ++ [(p, i, in_)] }
/-- An element of a peer page is held behind the page's first (21 R433). -/
def RidOp.holds (o : RidOp) (pg : Option W64) (i : Nat) : Bool :=
  match pg with
  | none => false
  | some p => o.pages.any fun e => decide (e.1 = p) && e.2.1 != i && !e.2.2
/-- What an element must have before it is performed (03 R58, 06 R126). -/
def State.ridWants (s : State) (o : RidOp) (ks : List Nat) : Option Nat :=
  if o.kind = .gather then s.wantLine Group.empty ks else s.wantWrite ks
/-- An addition finds its home's filter full: it is tried again (06 R130). -/
def State.ridFull (s : State) (o : RidOp) (ks : List Nat) : Bool :=
  decide (o.kind = .scatadd) && s.crosses (s.nextTag (unitCode o.by_.unit)) (ks.headD 0) &&
  s.filterFull (aluOf (ks.headD 0))
/-- Perform or send one piece of an element, if it may go now. -/
def State.ridStep (s : State) (id n : Nat) : State :=
  match s.rid id with
  | none => s
  | some o =>
    let i := n / o.perElem
    let o := o.latch s i
    let s := s.modRid id fun _ => o
    let drop (s : State) (f : Nat → Bool) : State := s.modRid id fun x => { x with todo := x.todo.filter fun m => !f m }
    match o.elem s i with
    | .error e => drop (s.ridFault o i e.cause) fun m => m / o.perElem == i
    | .ok ks =>
      let a := o.elemAddr s i
      match (o.pieces a)[n % o.perElem]? with
      | none => drop s fun m => m == n
      | some x =>
        let pg := o.page s a
        if o.holds pg i then s
        else
          let kp := (ks.drop x.1).take x.2
          match s.ridWants o kp with
          | some l => (s.getLine (unitCode o.by_.unit) l false).ridPage o pg i false
          | none =>
            if ks.any s.heldKey || s.unsettled kp || s.ridFull o kp then s.settle kp
            else
              let s := drop s fun m => m == n
              let s := match o.kind with
                | .gather => s.ridGather o i ks x
                | .scatter => s.ridScatter o i a ks x
                | _ => s.ridScatadd o i a ks x
              let more := match s.rid id with
                | some o => o.todo.any fun m => m / o.perElem == i
                | none => false
              s.ridPage o pg i (!more && !s.ridOut id (some i))
/-- Pieces that may go next: those of a peer's page in ascending order, and those that write one location in
ascending order (06 R120, 21 R433). -/
def State.ridFree (s : State) (o : RidOp) : List Nat → List W64 → List Nat → List Nat
  | _, _, [] => []
  | seen, pages, n :: r =>
    let i := n / o.perElem
    let pg := (o.page s (o.elemAddr s i)).toList
    let ks := if o.kind = .gather then [] else
      match o.elem s i, (o.pieces (o.elemAddr s i))[n % o.perElem]? with
      | .ok ks, some x => (ks.drop x.1).take x.2
      | _, _ => []
    let rest := s.ridFree o (ks ++ seen) (pg ++ pages) r
    if ks.any seen.contains || pg.any pages.contains then rest else n :: rest
/-- The replies of an element are in: its page's other elements may go (21 R433). -/
def State.ridReplied (s : State) (id i : Nat) : State :=
  if s.ridOut id (some i) then s
  else s.modRid id fun x => { x with
    pages := x.pages.map fun e => if e.2.1 = i then (e.1, i, true) else e }
/-- A write of a GATHER, SCATTER or SCATADD performs: one piece, which a free value picks (06 R120, 16 R361, R362). -/
def State.ridPerform (s : State) (o : RidOp) : State :=
  let s := match pick s.draws (s.ridFree o [] [] o.todo) with
    | some n => s.ridStep o.id n
    | none => s
  s.modRid o.id fun x => { x with wrote := x.todo.isEmpty }

/-! ## Completion (16 R352, R353, R361, R365, R366). -/

/-- The fault bitmap (16 R361). -/
def RidOp.bitmap (o : RidOp) : List Byte :=
  leBytes o.fbmBytes (foldL (fun n (e : Nat × Nat) => n + 2 ^ e.1) 0 o.faults)
/-- The acknowledgement record (16 R365). -/
def RidOp.ackRecord (o : RidOp) : List Byte :=
  leBytes 16 (o.mack.1 + 2 ^ 16 * o.mack.2.1 + 2 ^ 32 * o.mack.2.2.1 + 2 ^ 64 * o.mack.2.2.2)
/-- Status code, detail, and the token's cause and count. -/
def RidOp.outcome (o : RidOp) : Nat × Nat × Nat × Nat :=
  let low := foldL (fun (m : Option (Nat × Nat)) e => match m with
    | none => some e
    | some f => if e.1 < f.1 then some e else some f) none o.faults
  let fail := o.mack.2.1
  if o.kind = .mcst ∧ 0 < fail then (0x14, Nat.min 255 fail, 0, fail)
  else
    match low with
    | some e => (0x13, Nat.min 255 o.faults.length, e.2, o.faults.length)
    | none => if o.psn then (0x11, 0, 0, 0) else (0, 0, 0, 0)
/-- The completion write with a status (16 R352). -/
def State.ridReport (s : State) (o : RidOp) (x : Nat × Nat × Nat × Nat) : State :=
  let n := if o.kind = .mcst then 1 else o.count * o.esz
  let code := BitVec.ofNat 16 x.1
  match o.done with
  | .bar arv => s.engBar o.by_ o.id o.doneAddr n arv code
  | .cnt =>
    s.cntComplete o.by_.ctx (unitCode o.by_.unit) o.id o.doneAddr (BitVec.ofNat 64 n)
      (if code = 0 then 0 else statusWord code (BitVec.ofNat 8 x.2.1))
  | .tok k => s.modEver o.by_.gid fun g => g.kSet k { (g.kGet k) with
      pending := false, code := code, cause := BitVec.ofNat 8 x.2.2.1, count := BitVec.ofNat 32 x.2.2.2 }
/-- An operation leaves. -/
def State.ridLeave (s : State) (o : RidOp) : State :=
  ({ s with riddle := dropFirst (fun x => x.id == o.id) s.riddle }).opsDec o.by_.launch
/-- An operation whose completion write has been made leaves (16 R357). -/
def State.ridEnd (s : State) (o : RidOp) : State :=
  if s.reportOut o.id then s
  else
    let s := s.ridLeave o
    match o.clock with
    | some p => s.loopPoll o.by_.launch p
    | none => s
/-- Complete an operation whose writes have performed; a deterministic member at its turn (06 R136). -/
def State.ridFinish (s : State) (o : RidOp) : State :=
  if o.sent then s.ridEnd o
  else if !o.wrote || s.ridOut o.id none || !s.memberTurn o.by_.launch o.clock o.id then s
  else
    let bs := if o.kind = .mcst then o.ackRecord else o.bitmap
    let s := if o.nobm then s
      else s.engWrite o.by_ false
        ((span (keyCore o.core o.fbm) o.fbmBytes).zip (bs.map fun b => (b, false)))
    let o' := { o with sent := true }
    ((s.modRid o.id fun _ => o').ridReport o o.outcome).ridEnd o'

end Sys2Proof.Machine
end

