-- ==== Sys2Proof/Machine/Mcast.lean ====
section
/-!
DEFINITION. Multicast: trees, delivery, and the answers a device gathers (17 R389 to R391, R461, 23 R452).
The offset stands in PH.ADDR above the 12 bits of the group number (DESIGN CHOICE, log entry 11).
-/
namespace Sys2Proof.Machine

/-- A multicast group entry. -/
def State.mgroup (s : State) (n : Nat) : MGroup := tblGet {} s.fab.groups n
/-- The tree of a version: its ports and its local bit (17 R390). -/
def MGroup.tree (e : MGroup) (ver : W32) : Option (BitVec 12 × Bool) :=
  if !e.v then none
  else if ver = e.ver then some (e.ports, e.loc)
  else if e.ov && decide (ver = e.oldVer) then some (e.oports, e.oloc)
  else none
/-- The group that a multicast packet names. -/
def mcGroup (p : Packet) : Nat := field p.addr.toNat 0 12
/-- Its offset. -/
def mcOff (p : Packet) : W64 := p.addr >>> 12
/-- The address field of a multicast: an offset that it cannot hold lies beyond every DLEN, and so does the largest one. -/
def mcAddr (group : Nat) (off : W64) : W64 :=
  BitVec.ofNat 64 (group % 2 ^ 12 + 2 ^ 12 * Nat.min (2 ^ 52 - 1) off.toNat)
/-- Plain writes at their homes that no unit of a core makes (06 R120). -/
def State.homeWrite (s : State) (cells : List (Nat × Byte × Bool)) : State :=
  let s := s.widen none (cells.map (·.1))
  (foldL (fun s l => (s.publish ((cells.filter fun c => lineOf c.1 == l).map fun c =>
    (c.1, some (c.2.1, c.2.2))) 0).1) s (linesOf (cells.map (·.1)))).flushInvals
/-- A packet's payload with its poison marks. -/
def pktBytes (p : Packet) : List (Byte × Bool) := p.data.zipIdx.map fun e => (e.1, pktMarked p e.2)
/-- Payload marks of a packet whose first byte has a given address. -/
def pktBytesAt (p : Packet) (a : Nat) : List (Byte × Bool) :=
  p.data.zipIdx.map fun e => (e.1, p.psn.getLsbD ((a + e.2) / 8 - a / 8))
/-- A member's bytes: where its entry puts them, if it may write them (17 R391, 23 R452). -/
def State.mcKeys (s : State) (e : MGroup) (p : Packet) : Option (List Nat) :=
  let c := s.ctx e.ctx.toNat
  if !e.mapv || decide (e.dlen.toNat < (mcOff p).toNat + p.data.length) || !c.exists_ || c.dead then none
  else
    let w : Who := { sec := true, core := 0, clus := 0x7F, team := 0xFFF, ctx := e.ctx.toNat, W := 0, gid := 0 }
    match globKeys s w .store (e.dst + mcOff p) p.data.length with
    | .error _ => none
    | .ok ks => some ks
/-- What a local delivery waits for: its page migrates, updates stand before it, or a peer holds one of its lines (03
R58, 04 R84, 06 R126). -/
def State.mcWait (s : State) (p : Packet) : HomeWait :=
  match (s.mgroup (mcGroup p)).tree p.aux with
  | some (_, true) =>
    match s.mcKeys (s.mgroup (mcGroup p)) p with
    | none => .go
    | some ks =>
      if ks.any s.heldKey || s.unsettled ks then .stay
      else
        match s.unowned ks with
        | some l => .want l
        | none => .go
  | _ => .go
/-- A local delivery: all of it or nothing (17 R391). -/
def State.mcDeliver (s : State) (e : MGroup) (p : Packet) : State × Bool :=
  match s.mcKeys e p with
  | none => (s, false)
  | some ks =>
    (s.homeWrite ((ks.zip (pktBytesAt p (mcOff p).toNat)).map fun x => (x.1, x.2.1, x.2.2)), true)

/-- Change a multicast whose answers are gathered. -/
def State.modMc (s : State) (id : Nat) (f : Mcast → Mcast) : State :=
  { s with fab := { s.fab with mcasts := modFirst (fun m => m.id == id) f s.fab.mcasts } }
/-- Count an answer (17 R390): sums, and the lowest failing device. -/
def Mcast.count (m : Mcast) (ok fail first : Nat) : Mcast :=
  { m with
    ok := m.ok + ok, fail := m.fail + fail
    first := if fail = 0 then m.first else Nat.min m.first first }
/-- One failure of this device. -/
def State.mcFail (s : State) (m : Mcast) : Mcast := m.count 0 1 s.myId
/-- The MCST operation's answer is in: it completes (16 R365). -/
def State.mcIssuer (s : State) (op ok fail first ver : Nat) : State :=
  match s.rid op with
  | none => s
  | some _ =>
    let s := s.modRid op fun x => { x with wrote := true, mack := (ok, fail, first, ver) }
    match s.rid op with
    | none => s
    | some o => s.ridFinish o
/-- The device's answer for a multicast: a MACK to its parent, or to its own operation. -/
def State.mcAnswer (s : State) (m : Mcast) : State :=
  match m.parent with
  | some q =>
    let n := m.ok + 2 ^ 16 * m.fail + 2 ^ 32 * m.first + 2 ^ 64 * m.ver.toNat
    s.reply q { typ := 0x24, data := leBytes 16 n }
  | none => s.mcIssuer m.op m.ok m.fail m.first m.ver.toNat
/-- Answer once every child has. -/
def State.mcCheck (s : State) (id : Nat) : State :=
  match findFirst (fun m : Mcast => m.id == id) s.fab.mcasts with
  | none => s
  | some m =>
    if m.ports.isEmpty then
      ({ s with fab := { s.fab with
        mcasts := dropFirst (fun x : Mcast => x.id == id) s.fab.mcasts } }).mcAnswer m
    else s
/-- The port can carry a copy (17 R461). -/
def State.mcUsable (s : State) (n : Nat) : Bool := (s.flink n).up && (s.flink n).nbr.isSome
/-- A copy's or the root's answer is a failure of this device (17 R461). -/
def State.mcLost (s : State) (id n : Nat) : State :=
  (s.modMc id fun m => { (s.mcFail m) with ports := m.ports.filter fun x => x != n }).mcCheck id
/-- Send the copy of one port. It counts the links crossed since the issuing device; a copy that would cross an eighth is
lost (17 R377, R380, R461). -/
def State.mcCopy (s : State) (p : Packet) (id n : Nat) : State :=
  let d := match (s.flink n).nbr with
    | some e => e.1
    | none => 0
  let q : Packet := { p with
    dst := BitVec.ofNat 10 d, cls := 0, src := BitVec.ofNat 10 s.myId, seqn := s.fab.seqn }
  if 7 ≤ p.hop.toNat then
    (({ s with fab := { s.fab with seqn := s.fab.seqn + 1 } }).uncorrectable 5 (n / 3) n q.addr (tagOf q)).mcLost id n
  else
    let r : Req := { tag := tagOf q, pkt := q, use := .mcast id n }
    ({ s with fab := { s.fab with seqn := s.fab.seqn + 1, reqs := s.fab.reqs ++ [r] } }).linkSend n q
/-- A versioned multicast at this device (17 R390, R391, R461). (DEDUCED, log entry 57.) -/
def State.mcGo (s : State) (p : Packet) (parent : Option Packet) (op : Nat) : State :=
  let e := s.mgroup (mcGroup p)
  let m : Mcast := { id := s.nextId, group := mcGroup p, ver := p.aux, parent := parent, op := op, ports := []
                     ok := 0, fail := 0, first := 0xFFFF }
  match e.tree p.aux with
  | none => (s.notice 8 0 0 (tagOf p) 1).mcAnswer (s.mcFail m)
  | some (ports, loc) =>
    let want := (upTo 12).filter fun n => ports.getLsbD n
    let live := want.filter s.mcUsable
    let dead := want.filter fun n => !s.mcUsable n
    let m := foldL (fun m _ => s.mcFail m) m dead
    let s := foldL (fun s n => s.notice 8 n 0 0 1) s.fresh dead
    let r := if loc then s.mcDeliver e p else (s, false)
    let s := r.1
    let m := if loc then (if r.2 then m.count 1 0 0 else s.mcFail m)
      else if want.isEmpty then s.mcFail m else m
    let m : Mcast := { m with ports := live }
    let s := { s with fab := { s.fab with mcasts := s.fab.mcasts ++ [m] } }
    (foldL (fun s n => s.mcCopy p m.id n) s live).mcCheck m.id
/-- The root accepts a multicast and writes its version (17 R390). -/
def State.mcRoot (s : State) (p : Packet) (parent : Option Packet) (op : Nat) : State :=
  let e := s.mgroup (mcGroup p)
  s.mcGo { p with aux := if e.v then e.ver else 0 } parent op
/-- The issuing device sends an MCST, once (16 R365, 23 R452). -/
def State.mcIssue (s : State) (o : RidOp) : State :=
  let e := s.mgroup o.group
  if o.todo.isEmpty then s
  else if !e.v then (s.modRid o.id fun x => { x with todo := [] }).mcIssuer o.id 0 1 s.myId 0
  else
    let got := s.engRead o.by_ (o.locKeys s 0 o.esz)
    let p : Packet :=
      { typ := 9, unit := BitVec.ofNat 16 (unitCode o.by_.unit), addr := mcAddr o.group o.base
        dst := e.root, data := got.map (·.b)
        ndata := flitsOf o.esz, len := BitVec.ofNat 32 o.esz, src := BitVec.ofNat 10 s.myId
        psn := psnMarks o.base.toNat (got.map (·.psn)) }
    let sent (s : State) : State := (s.ridPsn o (gotPsn got)).modRid o.id fun x => { x with todo := [] }
    if e.root.toNat ≠ s.myId then (sent s).request p (.mroot o.id)
    else
      match s.mcWait { p with aux := e.ver } with
      | .stay => s
      | .want l => s.getLine (unitCode o.by_.unit) l true
      | .go => (sent s).mcRoot p none o.id

end Sys2Proof.Machine
end

