-- ==== Sys2Proof/Machine/Damp.lean ====
section
/-!
DEFINITION. Section requests on their way, in a Damper's queue, and as they end (16 R369 to R372, 08 R195,
04 R91, R92, 06 R124, R125).
-/
namespace Sys2Proof.Machine

/-- h of a lock address (16 R370). -/
def lockHash (a : W64) : Nat := (a >>> 6 * 0x9E3779B97F4A7C15#64).toNat / 2 ^ 40
/-- The home Damper of a lock on this device. -/
def State.homeDamper (s : State) (h : Nat) : Nat := h % s.sys.fuse.ndampers
/-- The lock lies in a page whose locks are closed (04 R91). -/
def Damper.isClosed (d : Damper) (lock : W64) : Bool :=
  d.closed.any fun p => onPage p lock
/-- Run something as the group of a name, and come back; a group that is not here runs nothing. -/
def State.asGroup (s : State) (gid : Nat) (f : State → State) : State :=
  if (s.findGid gid).isNone then s
  else
    let me := s.g.gid
    (f (s.swapTo gid)).swapTo me
/-- A release as a group of a name, as far as it goes, and whether it is done; a group that is not here has none to make. -/
def State.releaseAs (s : State) (gid : Nat) (sc : Scope) : State × Bool :=
  if (s.findGid gid).isNone then (s, true)
  else
    let me := s.g.gid
    let x := (s.swapTo gid).releaseStep sc
    (x.1.swapTo me, x.2.isNone)
/-- A request's sender performs its issue release again, as far as it goes, and whether it is done (06 R125). -/
def State.reissue (s : State) (r : SecReq) : State × Bool :=
  if r.far then (s, true) else s.releaseAs r.sender.gid r.scope
/-- A request reaches its home (08 R195, 04 R91): it is held at a closed lock, queued, recorded in the refusal
list, or its sender tries again. -/
def State.shipIn (s : State) (d : Nat) (r : SecReq) : State :=
  let x := s.damper d
  if x.isClosed r.lock then s.setDamper d { x with held := x.held ++ [r] }
  else if x.queue.length < 4096 ∧ x.refusal.isEmpty then s.setDamper d { x with queue := x.queue ++ [r] }
  else if x.refusal.length < 64 then s.setDamper d { x with refusal := x.refusal ++ [r] }
  else s.setDamper d { x with retry := x.retry ++ [r] }
/-- Requests refused while the list was full try again: they are recorded as it has room (08 R195). -/
def Damper.retryShips (x : Damper) : Damper :=
  let n := 64 - x.refusal.length
  { x with refusal := x.refusal ++ x.retry.take n, retry := x.retry.drop n }
/-- Admit a listed request where an entry is free, in refusal order, once its sender has performed its issue release again
(08 R195, 06 R125). The release of a request that came in a packet stands (DEDUCED, log entry 65). -/
def State.admitListed (s : State) (d : Nat) : State :=
  match (s.damper d).refusal with
  | [] => s
  | r :: l =>
    if 4096 ≤ (s.damper d).queue.length then s
    else
      let y := s.reissue r
      if !y.2 then y.1
      else
        let x := y.1.damper d
        y.1.setDamper d ({ x with refusal := l, queue := x.queue ++ [r] } : Damper).retryShips

/-- The payload of a SHIP request: entry, six arguments, then counts, thread, scope, group index, context and h; ADDR is
the lock (the model's layout, DESIGN CHOICE, log entry 11). -/
def shipData (r : SecReq) : List Byte :=
  leBytes 8 r.entry.toNat ++ ((upTo 6).flatMap fun n => leBytes 8 (r.args.getD n 0).toNat) ++
  [BitVec.ofNat 8 r.nres, BitVec.ofNat 8 r.args.length, BitVec.ofNat 8 r.sender.thread, if r.scope = .fab then 1 else 0] ++
  leBytes 4 r.sender.gidx.toNat ++ leBytes 4 r.sender.ctx ++ leBytes 4 (lockHash r.lock)
/-- h of the lock of a SHIP packet. -/
def shipHash (p : Packet) : Nat := leNat ((p.data.drop 68).take 4)
/-- The request that a SHIP packet carries. -/
def shipOf (p : Packet) : SecReq :=
  let n (off k : Nat) : Nat := leNat ((p.data.drop off).take k)
  { sender := { dev := p.src.toNat, gid := 0, launch := 0, gidx := BitVec.ofNat 32 (n 60 4), thread := n 58 1
                ctx := n 64 2 % 1024, k := 0, pend := 0, tag := tagOf p }
    entry := BitVec.ofNat 64 (n 0 8), lock := p.addr
    args := (upTo (n 57 1)).map fun j => BitVec.ofNat 64 (n (8 + 8 * j) 8), nres := n 56 1
    scope := if n 59 1 = 1 then .fab else .dev, far := true, relayed := p.relayed }
/-- The packet that a request came in, as far as an answer needs it. -/
def senderPacket (r : SecReq) : Packet :=
  { src := BitVec.ofNat 10 r.sender.dev, unit := r.sender.tag.setWidth 16
    seqn := (r.sender.tag >>> 16).setWidth 32, addr := r.lock, relayed := r.relayed }
/-- Send one request to its lock's home (16 R370). -/
def State.sendShip (s : State) (r : SecReq) (here : Bool) : State :=
  let h := lockHash r.lock
  if here then s.shipIn (s.homeDamper h) r
  else
    s.request { s.toOwner 8 r.sender.gidx.toNat r.lock with
      unit := BitVec.ofNat 16 r.sender.tag.toNat, data := shipData r } (.ship r)

/-- One section of a SHIP has ended: its results, if any register still awaits them, and its part of the token
(16 R372, 10 R225). (DEDUCED, log entry 39.) -/
def State.sectionDone (s : State) (x : Sender) (res : List W64) (aborted : Bool) : State :=
  let put (g : Group) : Group :=
    let g := match findFirst (fun p => p.id == x.pend) g.pend with
      | none => g
      | some p =>
        (foldL (fun g (e : (Dest × Option (W64 × Bool)) × Nat) =>
          g.fill x.pend e.1.1 (res.getD e.2 0) false 0) g p.writes.zipIdx)
    let t := g.kGet x.k
    if t.pending && decide (t.kind = .sect) then
      g.kSet x.k { t with
        left := t.left - 1, pending := decide (1 < t.left)
        code := if aborted then 0x15 else t.code
        count := if aborted then t.count + 1 else t.count }
    else g
  (s.modEver x.gid put).opsDec x.launch
/-- A section has ended: its results go to the sender, here or over the fabric. After the results of a packet stands one
byte that says whether it was aborted (the model's layout, DESIGN CHOICE, log entry 11). -/
def State.sectionResult (s : State) (r : SecReq) (res : List W64) (aborted : Bool) : State :=
  if !r.far then s.sectionDone r.sender res aborted
  else s.reply (senderPacket r)
    { typ := 0x25, redir := r.relayed
      data := (res.flatMap fun v => leBytes 8 v.toNat) ++ [if aborted then 1 else 0] }

end Sys2Proof.Machine
end

