-- ==== Sys2Proof/Machine/Packet.lean ====
section
/-!
DEFINITION. Launch packets: their fields, checks and placement, their rejection and their completion
(08 R173 to R180, R183; 09 R196 to R207).
-/
namespace Sys2Proof.Machine

/-! ## What the dispatcher reads. -/

/-- A read by the dispatcher. -/
inductive HwGot
  | bytes (l : List Byte)
  | bad
  /-- The bytes lie in a line that must be had first (03 R58). -/
  | want (line : Nat)
  deriving DecidableEq, Repr
/-- The locations of some global bytes that the hardware reads, or writes, for a context. -/
def hwKeys (s : State) (ctx : Nat) (k : Kind) (a : W64) (n : Nat) : Option (List Nat) :=
  if 2 ^ 63 ≤ a.toNat then none
  else
    match globKeys s (hwWho ctx) k a n with
    | .ok ks => some ks
    | .error _ => none
/-- Read n bytes at a global address of a context: translated, and not poisoned (09 R201 order 0). The dispatcher and the host
link stand on die 0 (01 R6): bytes behind a DOWN die link are poisoned (01 R16). -/
def hwRead (s : State) (ctx : Nat) (a : W64) (n : Nat) : HwGot :=
  match hwKeys s ctx .load a n with
  | none => .bad
  | some ks =>
    match s.wantLine Group.empty ks with
    | some l => .want l
    | none =>
      let r := s.readHome ks
      if r.2.any (·.psn) || ks.any (s.cutFrom 0) then .bad else .bytes (r.2.map (·.b))
/-- An 8-byte word of physical memory, as the dispatcher reads it. -/
def State.physWord (s : State) (a : Nat) : W64 :=
  BitVec.ofNat 64 (leNat ((s.readHome (span (keyPhys a) 8)).2.map (·.b)))
/-- The dispatcher writes an 8-byte word of physical memory. -/
def State.setPhysWord (s : State) (a : Nat) (v : W64) : State :=
  ((s.widen none (span (keyPhys a) 8)).writeHome false (cellsOf (span (keyPhys a) 8) (leBytes 8 v.toNat)) 0).1

/-! ## Packet fields (09 R199). -/

/-- Bytes [off, off + n) of a packet, a descriptor or a record, as a number. -/
def pk (b : List Byte) (off n : Nat) : Nat := leNat ((b.drop off).take n)
/-- All of those bytes are zero. -/
def pkZero (b : List Byte) (off n : Nat) : Bool := pk b off n == 0
/-- PKT.DONE. -/
def pkDone (b : List Byte) : W64 := BitVec.ofNat 64 (pk b 176 8)
/-- PKT.DONEN. -/
def pkDonen (b : List Byte) : W32 := BitVec.ofNat 32 (pk b 164 4)
/-- PKT.WAIT. -/
def pkWait (b : List Byte) : BitVec 256 := BitVec.ofNat 256 (pk b 24 32)
/-- PKT.SET. -/
def pkSet (b : List Byte) : BitVec 256 := BitVec.ofNat 256 (pk b 56 32)
/-- PKT.CLR. -/
def pkClr (b : List Byte) : BitVec 256 := BitVec.ofNat 256 (pk b 88 32)
/-- PKT.DET. -/
def pkDet (b : List Byte) : Bool := field (pk b 4 4) 0 1 == 1
/-- PKT.TASK. -/
def pkTask (b : List Byte) : Bool := field (pk b 4 4) 1 1 == 1
/-- PKT.REGS. -/
def pkNv (b : List Byte) : Nat := pk b 152 2
/-- PKT.PRIV. -/
def pkW (b : List Byte) : Nat := field (pk b 154 2) 0 10
/-- PKT.CSHARED. -/
def pkShared (b : List Byte) : Nat := field (pk b 156 4) 0 4
/-- PKT.PRODUCER. -/
def pkProducer (b : List Byte) : Nat := field (pk b 156 4) 4 5
/-- PKT.QUANT. -/
def pkQuant (b : List Byte) : Nat := field (pk b 160 4) 0 17

/-! ## The level table (08 R173 to R175). -/

/-- LVL.COUNT. -/
def lvCount (w : Nat) : Nat := field w 0 16
/-- LVL.DOMAIN. -/
def lvDom (w : Nat) : Nat := field w 16 3
/-- LVL.SCOPE. -/
def lvScope (w : Nat) : Nat := field w 20 3
/-- LVL.TOP. -/
def lvTop (w : Nat) : Bool := field w 23 1 == 1
/-- A reserved field is not zero. -/
def lvRsv (w : Nat) : Bool := field w 19 1 != 0 || field w 24 8 != 0
/-- The levels in use: LVL0 up to the first with TOP (08 R173). -/
def lvUpTo : List Nat → Option (List Nat)
  | [] => none
  | w :: r => if lvTop w then some [w] else (lvUpTo r).map fun l => w :: l
/-- The levels of a packet. -/
def pkLevels (b : List Byte) : Option (List Nat) := lvUpTo ((upTo 8).map fun j => pk b (120 + 4 * j) 4)
/-- Containing scope of a domain, as a scope code (08 R174). -/
def domScope : Nat → Nat
  | 0 | 1 => 0
  | 2 => 1
  | 3 | 4 => 2
  | 5 => 3
  | 6 => 4
  | _ => 5
/-- Smallest live count of a unit in its enclosing unit on a grade (08 R175 reason 8, 01 R21). -/
def leastLive (g : Grade) (dom outer : Nat) : Nat :=
  let l := g.perDie
  match dom, outer with
  | 2, 3 => 2
  | 2, 4 => 4
  | 2, 5 => l
  | 2, _ => 4 * l
  | 3, 4 => 2
  | 3, 5 => l / 2
  | 3, _ => 2 * l
  | 4, 5 => 20
  | 4, _ => 80
  | _, _ => 4
/-- The pairs of consecutive levels; the top level has no next one. -/
def lvPairs : List Nat → List (Nat × Option Nat)
  | [] => []
  | [w] => [(w, none)]
  | w :: x :: r => (w, some x) :: lvPairs (x :: r)
/-- Domain of a level's enclosing unit, for reason 8. -/
def lvOuter : Option Nat → Nat
  | none => 6
  | some x => lvDom x
/-- The narrowest scope that a level may have (reason 9). -/
def lvLeast (e : Nat × Option Nat) : Nat :=
  match e.2 with
  | some x => domScope (lvDom x)
  | none => if lvDom e.1 = 7 then 5 else 4
/-- The first failing reason of the level table; 0 when it passes (08 R175). -/
def lvReason (g : Grade) (det task : Bool) (t : Option (List Nat)) : Nat :=
  match t with
  | none => 1
  | some l =>
    let ps := lvPairs l
    let a := l.getD 0 0
    let topDom := lvDom (l.getLastD 0)
    if l.any lvRsv then 2
    else if lvDom a ≠ 0 ∨ lvCount a = 0 ∨ 32 < lvCount a then 3
    else if l.length < 2 ∨ lvDom (l.getD 1 0) ≠ 1 then 4
    else if ps.any fun e => match e.2 with
      | some x => decide (lvDom x ≤ lvDom e.1)
      | none => false then 5
    else if l.any fun w => (lvDom w == 1 && decide (32 < lvCount w)) ||
      (lvDom w == 7 && decide (1024 < lvCount w)) then 6
    else if l.any fun w => lvCount w == 0 && (lvDom w == 0 || lvDom w == 1 || lvDom w == 7) then 7
    else if ps.any fun e => decide (2 ≤ lvDom e.1) && decide (lvDom e.1 ≤ 5) &&
      decide (leastLive g (lvDom e.1) (lvOuter e.2) < lvCount e.1) then 8
    else if ps.any fun e => decide (lvScope e.1 < lvLeast e) then 9
    else if l.any fun w => decide (6 ≤ lvScope w) then 10
    else if det && (topDom == 7 || task) then 11
    else 0

/-! ## Placement (08 R176, R177). -/

/-- A placed group: its core, then (index, count) of levels 1, 2 and so on. -/
structure Spot where
  core : Nat
  idx : List (Nat × Nat)
  deriving DecidableEq, Repr
/-- The unit of a domain that a core lies in. -/
def unitOf (f : Fuse) (dom c : Nat) : Nat :=
  match dom with
  | 2 => c
  | 3 => c / 2
  | 4 => f.clusterOf c
  | _ => f.dieOf c
/-- The units of a domain among some cores, ascending. -/
def unitsOf (f : Fuse) (dom : Nat) (cores : List Nat) : List (List Nat) :=
  ((cores.map (unitOf f dom)).eraseDups).map fun u => cores.filter fun c => unitOf f dom c == u
/-- How many units a level takes of those that are live. -/
def takeOf (n live : Nat) : Nat := if n = 0 then live else Nat.min n live
/-- Place the levels from the top down on some cores, in ascending order of the level indices compared from
the top down (08 R176, R177). `share` is this device's rank among the launch's devices: with a device and a fabric level, the
index of the latter times the former's count, and the index of the former. -/
def placeLevels (f : Fuse) (share : Nat) : List Nat → List Nat → List (Nat × Nat) → List Spot
  | [], _, _ => []
  | [w], cores, up =>
    (upTo (lvCount w)).map fun k => ⟨cores.getD (k % cores.length) 0, (k, lvCount w) :: up⟩
  | w :: r, cores, up =>
    if 6 ≤ lvDom w then
      let inner := match r with
        | x :: _ => if lvDom x = 6 then Nat.max 1 (lvCount x) else 1
        | [] => 1
      placeLevels f share r cores ((share / inner % Nat.max 1 (lvCount w), Nat.max 1 (lvCount w)) :: up)
    else
      let us := unitsOf f (lvDom w) cores
      let n := takeOf (lvCount w) us.length
      ((us.take n).zipIdx).flatMap fun e => placeLevels f share r e.1 ((e.2, n) :: up)
/-- Devices that a launch counts. -/
def devicesOf (l : List Nat) : Nat :=
  foldL (fun n w => if 6 ≤ lvDom w then n * Nat.max 1 (lvCount w) else n) 1 l
/-- The placement on this device, in ascending launch group index; levels from 1 to the top. -/
def spotsOf (f : Fuse) (share : Nat) (l : List Nat) : List Spot :=
  placeLevels f share (l.drop 1).reverse (upTo f.ncores) []
/-- How many of some spots lie on a core. -/
def spotsOn (l : List Spot) (c : Nat) : Nat := (l.filter fun e => e.core == c).length
/-- The cores of some spots, ascending. -/
def coresOf (f : Fuse) (l : List Spot) : List Nat := (upTo f.ncores).filter fun c => l.any fun e => e.core == c
/-- The cores of a launch: whole pairs of those with its groups (08 R176). -/
def launchCores (f : Fuse) (l : List Spot) : List Nat :=
  (upTo f.ncores).filter fun c => l.any fun e => e.core / 2 == c / 2
/-- A placement that exceeds R45 or R171 on some core by itself (08 R171). -/
def tooMany (nv W : Nat) (l : List Spot) (cores : List Nat) : Bool :=
  cores.any fun c => decide (Nat.min (2048 / nv) (if W ≤ 256 then 32 else 16) < spotsOn l c)

/-! ## Checks (09 R201). -/

/-- A DONE that a packet's completion may use. -/
def doneFits (d : W64) : Bool := (cntWindow (window d)) && decide (d.toNat % 16 = 0)
/-- A reserved field of a packet is not zero, or a LAUNCH clears bits. -/
def pkRsv (b : List Byte) : Bool :=
  if pk b 0 1 = 2 then
    !(pkZero b 1 23 && pkZero b 120 44 && pkZero b 168 8 && pkZero b 184 72)
  else
    !(pkZero b 1 3 && field (pk b 4 4) 2 30 == 0 && field (pk b 152 4) 26 6 == 0 &&
      field (pk b 156 4) 9 23 == 0 && field (pk b 160 4) 17 15 == 0 && pkZero b 184 72 && pkZero b 88 32)
/-- A task queue descriptor that a launch may use (08 R183). -/
def tqFits (d : List Byte) : Bool :=
  let cap := pk d 8 8
  let head := pk d 16 8
  let tail := pk d 24 8
  decide (4 ≤ cap) && decide (cap ≤ 20) && decide (head ≤ pk d 32 8) && pk d 32 8 == tail &&
  decide (tail - head ≤ 2 ^ cap) && pkZero d 48 16
/-- The check that fails, as status code and detail; none when the packet passes. The descriptor of a task queue
is given: none when it cannot be read. -/
def pkCheck (f : Fuse) (dead : Bool) (tq : Option (List Byte)) (b : List Byte) : Option (Nat × Nat) :=
  let typ := pk b 0 1
  let done := pkDone b
  if typ ≠ 1 ∧ typ ≠ 2 then some (7, typ)
  else if done ≠ 0 && !doneFits done then some (8, 1)
  else if pkRsv b then some (8, 2)
  else if typ = 2 then if dead then some (9, 0) else none
  else
    let l := pkLevels b
    let reason := lvReason f.grade (pkDet b) (pkTask b) l
    let nv := pkNv b
    let spots := spotsOf f 0 (l.getD [])
    if reason ≠ 0 then some (1, reason)
    else if nv % 16 ≠ 0 ∨ nv < 16 ∨ 1024 < nv then some (2, 1)
    else if 512 < pkW b ∨ pkW b % 64 ≠ 0 then some (3, 1)
    else if 8 < pkShared b then some (4, 1)
    else if tooMany nv (pkW b) spots (coresOf f spots) then some (2, 2)
    else if pkDet b && (decide (pkQuant b < 1024) || decide (65536 < pkQuant b)) then some (6, 1)
    else if pkTask b && !(match tq with
      | some d => tqFits d
      | none => false) then some (5, 1)
    else if dead then some (9, 0)
    else none

/-! ## Status, completion, event vector (09 R200 to R204). -/

/-- A packet at the head of a queue or of a device-launch list. -/
structure Head where
  ctx : Nat
  queue : Nat
  index : W64
  devl : Bool
  /-- Its bytes; none when they cannot be read (order 0). -/
  b : Option (List Byte)
  deriving DecidableEq, Repr
/-- The event unit: clears, then sets (09 R200). -/
def State.evUnit (s : State) (c : Nat) (clr set : BitVec 256) : State :=
  s.setCtx c { s.ctx c with ev := ((s.ctx c).ev &&& ~~~clr) ||| set }
/-- A packet record (09 R203). -/
def State.packetRecord (s : State) (h : Head) (code detail : Nat) (done : W64) : State :=
  let w0 := detail % 256 + 256 * 6
  let w1 := h.ctx % 1024 + (if h.devl then 2 ^ 24 else 1024 * (h.queue % 16384))
  s.record { words := [BitVec.ofNat 64 (w0 + 2 ^ 32 * w1), h.index, BitVec.ofNat 64 code, done], log := none }
/-- Status and addition at a completion counter (09 R202, R204). -/
def State.countDone (s : State) (ctx : Nat) (done : W64) (n : W32) (status : W32) : State :=
  if done = 0 then s else s.cntComplete ctx hwUnit 0 done (n.setWidth 64) status
/-- Reject a packet (09 R201, R202). -/
def State.rejectPacket (s : State) (h : Head) (code detail : Nat) : State :=
  match h.b with
  | none => s.packetRecord h code detail 0
  | some b =>
    let s := if doneFits (pkDone b) then
        s.countDone h.ctx (pkDone b) (pkDonen b) (BitVec.ofNat 32 (code * 65536 + detail))
      else s
    s.packetRecord h code detail (pkDone b)
/-- A packet or launch completes: the addition, then SET (09 R204). -/
def State.packetDone (s : State) (ctx : Nat) (done : W64) (n : W32) (set : BitVec 256) : State :=
  (s.countDone ctx done n 0).evUnit ctx 0 set
/-- Every running launch and packet of a torn-down context completes with CONTEXT_DEAD (09 R211). -/
def State.launchDead (s : State) (l : Launch) : State :=
  let s := s.countDone l.ctx l.done l.donen 0x00090000
  s.packetRecord { ctx := l.ctx, queue := l.queue, index := l.index, devl := l.devl, b := none } 9 0 l.done

/-! ## Resources and the start of a launch (08 R176 to R180, 09 R206, R207). -/

/-- The carve-out of a group's launch. -/
def State.carveOfLaunch (s : State) (n : Nat) : Nat := ((s.launchOf n).map (·.carve)).getD 0
/-- Resident groups of a core. -/
def State.residents (s : State) (c : Nat) : List Group := s.groups.filter fun g => unitCore g.unit == some c
/-- The group has been signalled for pre-emption, and its handler has not saved it yet (10 R226). -/
def Group.unsaved (g : Group) : Bool :=
  g.preempting || (g.handler && !g.restored && field g.trapCause.toNat 0 8 == 0x20)
/-- A core holds a group of another context or of another carve-out, or one that is being saved. -/
def State.foreign (s : State) (c ctx carve : Nat) : Bool :=
  (s.residents c).any fun g => g.ctx != ctx || g.unsaved || s.carveOfLaunch g.launch != carve
/-- A cluster is reserved by another context or carve-out (09 R207). -/
def State.clusterTaken (s : State) (k ctx carve : Nat) : Bool :=
  (s.sys.fuse.clusterCores k).any fun c => (s.residents c).any fun g =>
    (decide (carve ≠ 0) || s.carveOfLaunch g.launch != 0) &&
      (g.ctx != ctx || s.carveOfLaunch g.launch != carve)
/-- The lowest free resident slots of a core (08 R176). -/
def State.freeSlots (s : State) (c : Nat) : List Nat :=
  (upTo 32).filter fun j => !(s.residents c).any fun g => unitSlot g.unit == j
/-- W summed over the groups that a lane holds. -/
def State.laneW (s : State) (c lane : Nat) : Nat :=
  foldL (fun n (g : Group) => if unitSlot g.unit % 16 = lane then n + g.W else n) 0 (s.residents c)
/-- A core has room for n more groups (08 R171, 03 R45). -/
def State.coreFits (s : State) (c n nv W : Nat) : Bool :=
  let slots := (s.freeSlots c).take n
  decide (slots.length = n) &&
  decide (foldL (fun k (g : Group) => k + g.nv) 0 (s.residents c) + n * nv ≤ 2048) &&
  (upTo 16).all fun lane => decide (s.laneW c lane + W * (slots.filter fun j => j % 16 == lane).length ≤ 512)
/-- The free resources hold a placement (09 R206, R207). -/
def State.fits (s : State) (ctx carve nv W : Nat) (spots : List Spot) : Bool :=
  let cs := launchCores s.sys.fuse spots
  cs.all (fun c => !s.foreign c ctx carve && s.coreFits c (spotsOn spots c) nv W) &&
  ((cs.map s.sys.fuse.clusterOf).eraseDups).all fun k => !s.clusterTaken k ctx carve
/-- The cores that pass to a launch's context: with a carve-out, every live core of its clusters (09 R207). -/
def takenCores (f : Fuse) (carve : Nat) (cores : List Nat) : List Nat :=
  if carve = 0 then cores else ((cores.map f.clusterOf).eraseDups).flatMap f.clusterCores
/-- A core passes to a context: its scratchpad and B-store are zeroed, its load map discarded (09 R207). -/
def State.clearCore (s : State) (c ctx : Nat) : State :=
  let mine (k : Nat) : Bool :=
    (decide (keyCore c 0 ≤ k) && decide (k < keyCore (c + 1) 0)) ||
    (decide (keyB c 0 0 ≤ k) && decide (k < keyB (c + 1) 0 0))
  let s := { s with
    mem := tblKeep (fun k => !mine k) s.mem
    poison := tblKeep (fun k => !mine (8 * k)) s.poison }
  s.modCore c fun x => { x with ctx := some ctx, bankQ := [], loadMap := [] }
/-- Clear every core of a list that last served another context. -/
def State.clearCores (s : State) (ctx : Nat) : List Nat → State
  | [] => s
  | c :: r => (if (s.core c).ctx = some ctx then s else s.clearCore c ctx).clearCores ctx r
/-- What a launch gives each of its groups. -/
structure Start where
  id : Nat
  ctx : Nat
  b : List Byte
  lv : List Nat
  spots : List Spot
  /-- The cores with groups, ascending: their places are their team indices (02 R34). -/
  cores : List Nat
  /-- This device's rank among the launch's devices. -/
  rank : Nat
  deriving DecidableEq, Repr
/-- The group of a spot: its rank among the spots, its core-local number and its slot (08 R170, R176 to R179). -/
def startGroup (s : State) (x : Start) (gid n : Nat) (e : Spot) (slot local_ : Nat) : Group :=
  let b := x.b
  let n0 := lvCount (x.lv.getD 0 0)
  let here := spotsOn x.spots e.core
  let p := Nat.min (pkProducer b) (here - 1)
  let gidx := x.rank * x.spots.length + n
  let g : Group :=
    { unit := .core e.core slot, gid := gid, live := true, ctx := x.ctx, launch := x.id
      team := BitVec.ofNat 12 (x.cores.idxOf e.core)
      n0 := n0, nv := pkNv b, W := pkW b
      pc := BitVec.ofNat 64 (pk b 8 8), hdr := BitVec.ofNat 64 (pk b 8 8), atEntry := true
      saveBase := (s.ctx x.ctx).saveBase, gts := s.pclk, rngKey := BitVec.ofNat 64 gidx
      gidx := BitVec.ofNat 32 gidx
      ngrp := BitVec.ofNat 32 (x.spots.length * devicesOf x.lv), localNum := local_
      onCore := here, lvlIdx := e.idx.map (·.1), lvlCnt := n0 :: e.idx.map (·.2), producer := some p
      det := if pkDet b then some { quant := pkQuant b, atEnd := false, turn := false, leaving := false } else none
      task := if pkTask b then .idle else .off }
  (g.mSet 0 g.present).sSet 1 (BitVec.ofNat 64 (pk b 16 8))
/-- Place the groups of a launch one by one: each takes the lowest free slot of its core (08 R176). -/
def State.placeGroups (s : State) (x : Start) : List (Spot × Nat) → State
  | [] => s
  | (e, n) :: r =>
    let slot := (s.freeSlots e.core).headD 0
    let local_ := spotsOn (x.spots.take n) e.core
    let g := startGroup s x s.nextId n e slot local_
    ({ s.fresh with parked := s.parked ++ [g] }).placeGroups x r
/-- The producer group of a launch on a core. -/
def State.producerOn (s : State) (launch c : Nat) : Option Group :=
  findFirst (fun g => g.launch == launch && decide (g.producer = some g.localNum)) (s.residents c)
/-- The matrix right of the pairs whose leaders a launch uses, where nobody holds it (08 R180, R182). -/
def State.giveRight (s : State) (launch : Nat) : List Nat → State
  | [] => s
  | c :: r =>
    (if c % 2 = 0 && (s.arr (c / 2)).holder.isNone then
      match s.producerOn launch c with
      | some g => s.setArr (c / 2) (Arr.emptied (some g.gid))
      | none => s
    else s).giveRight launch r
/-- Start a LAUNCH that has passed its checks and whose placement fits (08 R176, 09 R204, R207). -/
def State.startLaunch (s : State) (h : Head) (b : List Byte) (share : Nat) : State :=
  let lv := (pkLevels b).getD []
  let spots := spotsOf s.sys.fuse share lv
  let cores := coresOf s.sys.fuse spots
  let id := s.nextId
  let l : Launch :=
    { id := id, ctx := h.ctx, queue := h.queue, index := h.index, devl := h.devl, set := pkSet b
      carve := pkShared b, task := pkTask b, tq := BitVec.ofNat 64 (pk b 168 8), donen := pkDonen b
      done := pkDone b }
  let x : Start := { id := id, ctx := h.ctx, b := b, lv := lv, spots := spots, cores := cores, rank := share }
  let taken := takenCores s.sys.fuse (pkShared b) (launchCores s.sys.fuse spots)
  let s := s.fresh.clearCores h.ctx taken
  let s := foldL (fun s c => s.modCore c fun y => { y with carve := pkShared b }) s taken
  let ds := if pkDet b then s.disp.doms ++ [{ launch := id, quant := pkQuant b, snap := [] }] else s.disp.doms
  let s := { s with disp := { s.disp with launches := s.disp.launches ++ [l], doms := ds } }
  (s.placeGroups x spots.zipIdx).giveRight id cores

end Sys2Proof.Machine
end

