-- ==== Sys2Proof/Machine/Tasks.lean ====
section
/-!
DEFINITION. EXIT and the task and dispatch instructions (08 R183 to R191, 09 R210, 12 R262, R263, 14 R324 to
R328).
-/
namespace Sys2Proof.Machine

/-! ## The end of a group (12 R262). -/

/-- The lane-private bytes of a group that ends are gone. -/
def State.dropLane (s : State) (gid : Nat) : State :=
  let mine (k : Nat) : Bool := decide (keyLane gid 0 0 ≤ k) && decide (k < keyLane (gid + 1) 0 0)
  { s with
    mem := tblKeep (fun k => !mine k) s.mem
    poison := tblKeep (fun k => !mine (8 * k)) s.poison }
/-- The right passes to the producer group on the leader of the earliest-placed launch that has one there
(08 R180). -/
def State.nextHolder (s : State) (gid c : Nat) : Option Nat :=
  let rest := (s.residents c).filter fun g => g.gid != gid && decide (g.producer = some g.localNum)
  firstSome (s.disp.launches.map fun l => (findFirst (fun g : Group => g.launch == l.id) rest).map (·.gid))
/-- An array that a pre-emption signal froze goes on: EXIT waits for its MMA all the same (10 R226, 12 R262). -/
def State.thawForExit (s : State) (pair : Nat) : State :=
  let a := s.arr pair
  if a.frozen && !a.manual then s.setArr pair { a with frozen := false } else s
/-- The matrix part of a group's end: the array comes to rest, and the right passes on (12 R262, 08 R180). -/
def State.leaveMatrix (s : State) (g : Group) : State :=
  match unitCore g.unit with
  | none => s
  | some c =>
    if c % 2 = 0 && decide ((s.arr (c / 2)).holder = some g.gid) then
      let s := (s.thawForExit (c / 2)).runArray (c / 2)
      s.setArr (c / 2) ((s.arr (c / 2)).left (s.nextHolder g.gid c))
    else s
/-- The scratchpad bytes of a core, by physical address. -/
def State.scratchOf (s : State) (c : Nat) : List (Nat × Byte) :=
  (s.mem.filter fun e => decide (keyCore c 0 ≤ e.1) && decide (e.1 < keyCore (c + 1) 0)).map fun e =>
    (e.1 - keyCore c 0, e.2)
/-- Its poisoned words. -/
def State.scratchPsn (s : State) (c : Nat) : List Nat :=
  (s.poison.filter fun e => decide (keyCore c 0 ≤ 8 * e.1) && decide (8 * e.1 < keyCore (c + 1) 0)).map fun e =>
    8 * e.1 - keyCore c 0
/-- Save a core: its scratchpad, its load map, its parked LOOPs, and on a leader its pair's array. What its port has accepted,
and updates on their way to it, perform first (05 R103, 10 R230). -/
def State.saveCore (s : State) (ctx c : Nat) : State :=
  let s := (s.drainBanks c).drainHome fun h => h.keys.any fun k => decide (keyCore c 0 ≤ k) && decide (k < keyCore (c + 1) 0)
  let x := s.core c
  let e : SavedCore :=
    { core := c, carve := x.carve, scratch := s.scratchOf c, scratchPsn := s.scratchPsn c, loadMap := x.loadMap
      parked := x.engRun, arr := if c % 2 = 0 then some (s.arr (c / 2)) else none }
  let s := s.setCtx ctx { s.ctx ctx with savedCores := (s.ctx ctx).savedCores ++ [e] }
  let s := s.setCore c { x with loadMap := [], engRun := [] }
  if c % 2 = 0 then s.setArr (c / 2) {} else s
/-- The cores that are saved together with a core: its pair's, and with a carve-out its cluster's (09 R207, 10 R226). -/
def State.mates (s : State) (c : Nat) : List Nat :=
  let f := s.sys.fuse
  if (s.core c).carve = 0 then [c / 2 * 2, c / 2 * 2 + 1] else f.clusterCores (f.clusterOf c)
/-- The last group of a core has been saved, or has left while others were: the core is saved, and once the last group has left
its pair or cluster the cores there that held none (10 R230, R231). -/
def State.saveLast (s : State) (ctx c : Nat) : State :=
  if !(s.residents c).isEmpty || (s.ctx ctx).saved.isEmpty then s
  else
    let all := s.mates c
    let bare := if all.any fun x => !(s.residents x).isEmpty then [] else all.filter fun x =>
      decide ((s.core x).ctx = some ctx)
    let todo := (c :: bare).eraseDups.filter fun x => !(s.ctx ctx).savedCores.any fun e => e.core == x
    if all.any fun x => (s.ctx ctx).saved.any fun g => unitCoreN g.unit == x then
      foldL (fun s x => s.saveCore ctx x) s todo
    else s
/-- A group ends: everything it held is freed. -/
def State.freeGroup (s : State) (g : Group) : State :=
  let s := (s.leaveMatrix g).dropLane g.gid
  let s : State := if s.g.live && s.g.gid == g.gid then s.setG Group.empty
    else { s with parked := s.parked.filter fun x => x.gid != g.gid }
  match unitCore g.unit with
  | some c => if g.preempting then s.saveLast g.ctx c else s
  | none => s
/-- Register writes of the group's own instructions are made before it ends; poison is taken first
(12 R262, 10 R460). -/
def settledOwn (s : State) (k : State → Out) : Out :=
  let s := s.writeback
  match findFirst (fun p => p.ready && p.poisoned && !p.sect) s.g.pend with
  | some p => s.entering fun s => .next (s.poisonTrap p)
  | none => if s.g.pend.any (fun p => !p.sect) then s.blockOn .result else k s
/-- The end of a group outside task mode. In a deterministic domain it publishes, and leaves, at the next
quantum end (06 R133). -/
def exitOp (s : State) : Out :=
  settledOwn s fun s =>
    match s.g.det with
    | some d =>
      .next (s.setG { s.g.retire 1 with det := some { d with leaving := true }, block := some .quantum })
    | none => releasing s .dev fun s => .next (s.freeGroup s.g)

/-! ## Task queues (08 R183 to R188). -/

/-- Bytes that the hardware changes for a context. -/
inductive HwOwn
  | keys (ks : List Nat)
  | fail (e : Fail)
  /-- The line that must be had, exclusively, first (03 R58, 06 R126). -/
  | want (line : Nat)
  deriving DecidableEq, Repr
/-- Global bytes that the hardware reads and changes for a context: a task queue, its slots. (DEDUCED, log entry 36.) -/
def hwOwn (s : State) (ctx : Nat) (k : Kind) (a : W64) (n : Nat) : HwOwn :=
  if 2 ^ 63 ≤ a.toNat then .fail ⟨0x0C, a, 0x8000000000000000⟩
  else
    match globKeys s (hwWho ctx) k a n with
    | .error e => .fail e
    | .ok ks =>
      match s.unowned ks with
      | some l => .want l
      | none => if s.anyPsn ks || ks.any (s.cutFrom 0) then .fail ⟨0x30, a, 0⟩ else .keys ks
/-- Go on with those bytes; the group waits for the line, or traps. -/
def withOwn (s : State) (ctx : Nat) (k : Kind) (a : W64) (n : Nat) (f : List Nat → Out) : Out :=
  match hwOwn s ctx k a n with
  | .fail e => s.raise e.cause e.addr e.info
  | .want l => (s.getLine (unitCode s.g.unit) l true).blockOn (.peer l)
  | .keys ks => f ks
/-- A word of a task queue descriptor. -/
def State.tqWord (s : State) (ks : List Nat) (off : Nat) : W64 :=
  BitVec.ofNat 64 (leNat ((s.readHome ((ks.drop off).take 8)).2.map (·.b)))
/-- Write a word of a descriptor. -/
def State.setTq (s : State) (ks : List Nat) (off : Nat) (v : W64) : State :=
  s.homeWrite (((cellsOf ((ks.drop off).take 8) (leBytes 8 v.toNat))).map fun e => (e.1, e.2, false))
/-- TQ.LOGCAP. -/
def State.tqCap (s : State) (ks : List Nat) : Nat := 2 ^ ((s.tqWord ks 8).toNat % 32)
/-- Address of slot i. -/
def State.tqSlot (s : State) (ks : List Nat) (i : W64) : W64 :=
  s.tqWord ks 0 + BitVec.ofNat 64 (64 * (i.toNat % s.tqCap ks))
/-- n more records fit (08 R185). -/
def State.tqFits (s : State) (ks : List Nat) (n : Nat) : Bool :=
  decide ((s.tqWord ks 24 + BitVec.ofNat 64 n - s.tqWord ks 16).toNat ≤ s.tqCap ks)
/-- FULL is incremented. -/
def State.tqRefuse (s : State) (ks : List Nat) : State := s.setTq ks 40 (s.tqWord ks 40 + 1)
/-- Reserve slots for some records, and write them there. -/
def State.tqPut (s : State) (launch : Nat) (ks : List Nat) (slots : List (List Nat))
    (recs : List (List (Byte × Bool))) : State :=
  let t := s.tqWord ks 24
  let n := BitVec.ofNat 64 recs.length
  let s := s.setTq ks 24 (t + n)
  let s := foldL (fun s (e : List Nat × List (Byte × Bool)) =>
    s.homeWrite ((e.1.zip e.2).map fun c => (c.1, c.2.1, c.2.2))) s (slots.zip recs)
  s.modLaunch launch fun l => { l with commits := l.commits ++ [(t, n)] }
/-- The locations of the next n slots. -/
def tqSlots (s : State) (ctx : Nat) (ks : List Nat) : Nat → W64 → HwOwn × List (List Nat)
  | 0, _ => (.keys [], [])
  | n + 1, i =>
    match globKeys s (hwWho ctx) .store (s.tqSlot ks i) 64 with
    | .error e => (.fail e, [])
    | .ok l =>
      match s.unowned l with
      | some x => (.want x, [])
      | none =>
        match tqSlots s ctx ks n (i + 1) with
        | (.keys _, r) => (.keys [], l :: r)
        | e => e
/-- Spawn some records, or refuse them: the continuation gets the first index, or none (08 R185). A queue or
slot that cannot be used traps before anything is reserved. -/
def spawn (s : State) (ctx launch : Nat) (tq : W64) (recs : List (List (Byte × Bool)))
    (k : State → Option W64 → Out) : Out :=
  withOwn s ctx .rmw tq 64 fun ks =>
    if !s.tqFits ks recs.length then k (s.tqRefuse ks) none
    else
      let t := s.tqWord ks 24
      match tqSlots s ctx ks recs.length t with
      | (.fail e, _) => s.raise e.cause e.addr e.info
      | (.want l, _) => (s.getLine (unitCode s.g.unit) l true).blockOn (.peer l)
      | (.keys _, slots) => k (s.tqPut launch ks slots recs) (some t)
/-- The launch of the current group, if it is in task mode. -/
def State.taskLaunch (s : State) : Option Launch :=
  match s.launchOf s.g.launch with
  | some l => if l.task then some l else none
  | none => none

/-- TSPAWN (14 R325, 08 R185). -/
def execTspawn (f : Bool) (m : VForm) (a b : VReg) (s : State) : Out :=
  vector s [a, b] (some 0x17) [] (vMask m) (vWords m) fun s ts =>
    withFlag s f fun s flag =>
      releasing s .dev fun s =>
        let off (t : Nat) : W64 := s.g.vGet b t
        checkThreads s false ts (fun t => failOf (checkSpecific s s.who .core (off t) 64 64)) <|
          let give (s : State) (v : Nat → W64) : Out :=
            .next ((s.result flag 0 (ts.zipIdx.map fun e => (.v a.val e.1, v e.2, false))).retire (vWords m))
          match s.taskLaunch with
          | none => give s fun _ => 0xFFFFFFFFFFFFFFFF
          | some l =>
            let s := s.drainBefore (ts.flatMap fun t => span (keyCore (unitCoreN s.g.unit) (off t).toNat) 64)
            let recs := ts.map fun t =>
              (span (keyCore (unitCoreN s.g.unit) (off t).toNat) 64).map fun k => (s.byte k, s.psn k)
            spawn s s.g.ctx s.g.launch l.tq recs fun s i =>
              match i with
              | none => give s fun _ => 0xFFFFFFFFFFFFFFFF
              | some t => give s fun n => t + BitVec.ofNat 64 n

/-- The successor counter's part of TDONE, once nothing is awaited: the addition, the spawn at NEXTN, and a
refusal's status (08 R188). -/
def tdoneSucc (s : State) (l : Launch) (succ next nextn : W64) (k : State → Out) : Out :=
  match cntAcc s s.who .cntAdd succ with
  | .error _ => k (s.errorRecord 16 3 (unitDie s s.g.unit) 0 succ 0 1)
  | .ok acc =>
    match s.unowned acc.keys with
    | some x => (s.getLine (unitCode s.g.unit) x true).blockOn (.peer x)
    | none =>
      let s := s.settle acc.keys
      let ks := acc.keys.take 8
      let new := BitVec.ofNat 64 (leNat ((s.readHome ks).2.map (·.b))) + 1
      let add (s : State) (n : W64) (st : W32) : State := s.cntAddAt acc.keys acc.glob n st succ 0
      if s.anyPsn ks || new ≠ nextn || next = 0 then k (add s 1 0)
      else
        match windowAcc s s.who .load cntWindow next 64 64 with
        | .error e => s.raise e.cause e.addr e.info
        | .ok nacc =>
          let put (s : State) : Out :=
            let r := if nacc.glob then (s.readHome nacc.keys).2 else nacc.keys.map s.atHome
            let cut := s.cutBytes nacc
            spawn s s.g.ctx s.g.launch l.tq [(nacc.keys.zip r).map fun x => (x.2.b, x.2.psn || cut.contains x.1)]
              fun s i =>
                let s := add s 1 0
                k (if i.isSome then s else add s 0 0x000A0000)
          if nacc.glob then accWait s nacc.keys put else atObject s nacc.keys put
/-- The end of a task (08 R188). -/
def tdoneOp (s : State) (l : Launch) : Out :=
  settledOwn s.finishFences fun s =>
    if s.g.k.any (fun e => e.2.pending) then s.blockOn .drain
    else
      releasing s .dev fun s =>
        let done (s : State) : Out := .next (s.setG { s.g.retire 1 with task := .idle })
        match s.g.task with
        | .running _ succ next nextn =>
          if succ = 0 then done s else tdoneSucc s l succ next nextn fun s => done s.acquire
        | _ => done s
/-- EXIT (12 R262, R263): in task mode it acts as TDONE. -/
def execExit (s : State) : Out :=
  checked s [] (if s.g.handler then some 3 else none) (some 0x17)
    (match s.taskLaunch with
     | some l => tdoneOp s l
     | none => exitOp s)
/-- TDONE (14 R327): EXIT outside task mode. -/
def execTdone (_ext : Bool) (s : State) : Out :=
  checked s [] (if s.g.handler then some 3 else none) (some 0x17)
    (match s.taskLaunch with
     | some l => tdoneOp s l
     | none => exitOp s)

/-! ## Ticket claims (08 R190, R191, 14 R326). -/

/-- Every recipient has room for one more delivery, those on their way to it counted (08 R191). -/
def State.claimRoom (s : State) (launch clus : Nat) : Bool :=
  (s.recipients launch clus).all fun g =>
    decide (g.claims.length + (s.disp.deliveries.filter fun d => d.gids.contains g.gid).length < 8)
/-- Deliver the oldest claim of a cluster to its recipients, if it has its number. -/
def State.deliver (s : State) (d : Delivery) : State :=
  match d.val with
  | none => s
  | some v =>
    let s := { s with disp := { s.disp with deliveries := dropFirst (fun e => decide (e = d)) s.disp.deliveries } }
    foldL (fun s gid => s.modEver gid fun g => { g with claims := g.claims ++ [v] }) s d.gids
/-- The first delivery that no earlier one of its cluster precedes and whose number is known. -/
def nextDelivery : List (Nat × Nat) → List Delivery → Option Delivery
  | _, [] => none
  | seen, d :: r =>
    if d.val.isSome && !seen.contains (d.launch, d.clus) then some d
    else nextDelivery ((d.launch, d.clus) :: seen) r
/-- Deliver one claim. -/
def State.deliverOne (s : State) : State :=
  match nextDelivery [] s.disp.deliveries with
  | none => s
  | some d => s.deliver d
/-- Deliver every claim that can be. -/
def State.deliverAll (s : State) : Nat → State
  | 0 => s
  | n + 1 => s.deliverOne.deliverAll n
/-- A claim: its kind. -/
def claimKind (clu : Bool) (words : Nat) : AtomKind :=
  { op := .add, z := .d, ret := true, uni := true, ord := .rlx, scope := .dev, words := words, clu := clu }
/-- A claim of either form. -/
def claimOp (clu f : Bool) (a b : SReg) (d : DForm) (s : State) : Out :=
  uniform s none (if clu then some 0x17 else none) [useS a, useS b] fun s => inTurn s fun s =>
    let x := claimKind clu (dWords d)
    match s.syncPend with
    | some p => finishAtomic s x p
    | none =>
      let ea := s.g.sGet b + dDisp d
      match cntAcc s s.who .cntAdd ea with
      | .error e => s.raise e.cause e.addr e.info
      | .ok acc =>
        let clus := s.sys.fuse.clusterOf (unitCoreN s.g.unit)
        let s := if clu then s.deliverAll s.disp.deliveries.length else s
        if clu && !s.claimRoom s.g.launch clus then s.blockOn .room
        else
          runAtomic s x f fun _ => [{ t := 0, ea := ea, c := 1, d := 0, dest := .s a.val, acc := acc }]
/-- TCLAIM (14 R326). -/
def execTclaim (f : Bool) (a b : SReg) (d : DForm) (s : State) : Out := claimOp false f a b d s
/-- TCLAIM.clu (08 R191, 14 R326). -/
def execTclaimClu (f : Bool) (a b : SReg) (d : DForm) (s : State) : Out := claimOp true f a b d s
/-- TCLAIMW (14 R326): the oldest delivery; no ordering. -/
def execTclaimw (f : Bool) (a : SReg) (ext : Bool) (s : State) : Out :=
  uniform s none (some 0x17) [useS a] fun s =>
    withFlag s f fun s flag =>
      let s := s.deliverAll s.disp.deliveries.length
      match s.g.claims with
      | [] => s.blockOn .claim
      | v :: r =>
        let s := s.setG { s.g with claims := r }
        .next ((s.result flag 0 [(.s a.val, v, false)]).retire (extWords ext))

/-! ## LAUNCH and EVSET (14 R327, 09 R210). -/

/-- LAUNCH. (DEDUCED, log entry 35.) -/
def execLaunch (b : SReg) (d : DForm) (s : State) : Out :=
  uniform s none (some 0x17) [useS b] fun s =>
    releasing s .dev fun s =>
      let ea := s.g.sGet b + dDisp d
      match windowAcc s s.who .load bulkWindow ea 256 256 with
      | .error e => s.raise e.cause e.addr e.info
      | .ok acc =>
        let go (s : State) : Out :=
          let r := (s.fillTlbs [(ea, acc)]).load acc
          let s := r.1
          if gotPsn r.2 then s.raise 0x30 ea 0
          else
            let bs := r.2.map (·.b)
            let c := s.ctx s.g.ctx
            if c.dead then
              .next ((s.rejectPacket { ctx := s.g.ctx, queue := 0, index := ea, devl := true, b := some bs }
                9 0).retire (dWords d))
            else if 64 ≤ c.devList.length then s.blockOn .launchFull
            else .next ((s.setCtx s.g.ctx { c with devList := c.devList ++ [(bs, ea)] }).retire (dWords d))
        if acc.glob then accWait s acc.keys go else atObject s acc.keys go
/-- EVSET. -/
def execEvset (b c : SReg) (ext : Bool) (s : State) : Out :=
  uniform s none (some 0x17) [useS b, useS c] fun s =>
    releasing s .dev fun s =>
      let q := (s.g.sGet b).toNat % 4
      let bits := (s.g.sGet c).setWidth 256 <<< (64 * q)
      .next ((s.evUnit s.g.ctx 0 bits).retire (extWords ext))

end Sys2Proof.Machine
end

