-- ==== Sys2Proof/Machine/System.lean ====
section
/-!
DEFINITION. The system instructions (18 R412, R413).
-/
namespace Sys2Proof.Machine

/-- Two ranges of offsets share a 2 MiB page; a length of 0 is every offset. -/
def sharesPage (off lo len : Nat) : Bool :=
  len == 0 || (decide (off / 2 ^ 21 * 2 ^ 21 < lo + len) && decide (lo < off / 2 ^ 21 * 2 ^ 21 + 2 ^ 21))
/-- An access that used a translation of a range has not passed its home: a request to an owner, an update on its way, a
prefetch that has not been served, or a load that waits for its line (04 R75). (DEDUCED, log entry 37.) -/
def State.invalWaits (s : State) (ctx lo len : Nat) : Bool :=
  let hit (a : Nat) : Bool := sharesPage (a % 2 ^ 53) lo len
  (s.fab.reqs.any fun r => pageReq r.pkt && hit r.pkt.addr.toNat) ||
  (s.homeQ.any fun h => h.place.glob && h.ctx == ctx && hit h.addr.toNat) ||
  (s.cores.any fun e => e.2.missQ.any fun m => m.ctx == ctx && hit m.off) ||
  s.everyGroup.any fun g => g.ctx == ctx && g.loads.any fun x => hit x.addr.toNat
/-- An invalidation completes: updates on their way reach their homes, then the cached translations go
(04 R75). -/
def State.invalDone (s : State) (ctx lo len : Nat) : State :=
  (s.drainHome fun h => h.place.glob && h.ctx == ctx).invalidate ctx lo len

/-- TLBINV. -/
def execTlbinv (b : SReg) (c : TC) (s : State) : Out :=
  let uses := match c with
    | .reg r => [useS b, useS r]
    | .imm _ => [useS b]
  uniform s none (some 0x17) uses fun s =>
    let lo := (s.g.sGet b).toNat % 2 ^ 53
    let len := match c with
      | .reg r => (s.g.sGet r).toNat
      | .imm v => v.toNat
    let words := match c with
      | .reg _ => 1
      | .imm _ => 3
    let s := (s.settleOwn).drainHome fun h => h.place.glob && h.ctx == s.g.ctx
    if s.invalWaits s.g.ctx lo len then s.blockOn .tlb else .next ((s.invalDone s.g.ctx lo len).retire words)
/-- L1WB (10 R230 step 2): narrow-published lines of the core are published; private bytes stay private. -/
def execL1wb (s : State) : Out :=
  uniform s none (some 0x17) [] fun s => .next ((s.forcePublish (unitCoreN s.g.unit)).flushInvals.retire 1)
/-- A line holds a narrow-published byte of a core, or a private byte of one of its groups. -/
def State.lineKept (s : State) (c l : Nat) : Bool :=
  (s.core c).narrow.any (fun e => lineOf e.1 == l) ||
    (s.residents c).any fun g => g.allPriv.any fun e => lineOf e.1 == l
/-- L1INV. -/
def execL1inv (s : State) : Out :=
  uniform s none (some 0x17) [] fun s =>
    let c := unitCoreN s.g.unit
    .next ((s.modCore c fun x => { x with l1 := x.l1.filter fun e => s.lineKept c e.line }).retire 1)
/-- PMARK: the core's last mark, or the Damper's own. -/
def execPmark (tag : BitVec 12) (s : State) : Out :=
  let cyc := s.sys.cycle
  match s.g.unit with
  | .core c _ => .next ((s.modCore c fun x => { x with mark := tag, markCycle := cyc }).retire 1)
  | .damper d _ => .next ((s.setDamper d { s.damper d with mark := tag, markCycle := cyc }).retire 1)
/-- SNAPTRIG. -/
def execSnaptrig (tag : BitVec 8) (s : State) : Out :=
  .next ((if s.sys.snapCtl.getLsbD 1 then s.fireSnap 1 (some (tag.setWidth 12)) else s).retire 1)

end Sys2Proof.Machine
end

