-- ==== Sys2Proof/Machine/EvCore.lean ====
section
/-!
DEFINITION. Events of groups and sections: write-backs, deferred traps, waits that end, fences (05 R99, R107,
08 R191 to R193, 10 R460, 11 R244). An event whose condition does not hold changes nothing (DESIGN CHOICE, log entry 17).
-/
namespace Sys2Proof.Machine

/-- Run something as the group of a unit, and come back. -/
def asUnit (u : UnitId) (f : State → Out) (s : State) : Out :=
  match s.findUnit u with
  | none => .next s
  | some g =>
    let me := s.g.gid
    match f (s.swapTo g.gid) with
    | .next t => .next (t.swapTo me)
    | r => r
/-- Change the group of a unit. -/
def State.onUnit (s : State) (u : UnitId) (f : State → State) : Out := asUnit u (fun s => .next (f s)) s

/-- RESULT_WRITEBACK (11 R244): a result that has arrived is written, and its flag released; loads whose lines have come are
served first. -/
def execResultWriteback (u : UnitId) (i : Nat) (s : State) : Out :=
  s.onUnit u fun s =>
    match s.g.pend[i]? with
    | none => s
    | some _ =>
    let s := s.settleOwn
    match s.g.pend[i]? with
    | none => s
    | some p => if p.ready && !p.poisoned && !p.sync then s.setG (s.g.retirePend p) else s
/-- DEFERRED_POISON_TRAP (10 R460). -/
def execDeferredPoisonTrap (u : UnitId) (s : State) : Out :=
  asUnit u (fun s =>
    match findFirst (fun p => p.ready && p.poisoned && !p.sync) s.g.pend with
    | none => .next s
    | some p =>
      if s.syncPend.isSome || s.g.suspended.isSome then .next s
      else s.entering fun s => .next (s.poisonTrap p)) s

/-- The condition that a blocked group waits for holds (08 R192). -/
def State.waitOver (s : State) (b : Block) : Bool :=
  let g := s.g.writebackAll
  let own := g.pend.any fun p => !p.ready && !p.sect
  match b with
  | .flags m => !g.flagsBusy m
  | .result => !own
  | .token k => !(g.kGet k).pending
  | .fullFlag f => decide (g.fGet f < 15)
  | .barrier p par =>
    let x := barOf (s.barNum p.key)
    x.round != par || x.overrun || s.barPsn p.key
  | .counter p t => decide (t.toNat ≤ s.num (span p.key 8)) || s.anyPsn (span p.key 8)
  | .claim => !g.claims.isEmpty
  | .quiesce => s.engQuiet (unitCoreN g.unit) && !g.fences.any fun f => decide (f.k < 16)
  | .drain => !g.k.any fun e => e.2.pending
  | .peer l =>
    if l = waitPage then true
    else if l < localLine then (tblGet {} s.own.peers l).held && !(tblGet {} s.own.peers l).wb
    else if l < shareLine then !s.own.excl.any fun e => e.1 == l - localLine
    else !s.shared (l - shareLine)
  | .tlb => true
  | .engineFull | .launchFull | .array | .room | .replay | .turn | .quantum => false
/-- The group resumes issue. -/
def Group.unblock (g : Group) : Group := { g with block := none }
/-- BLOCKED_WAIT_WAKE (08 R192). -/
def execBlockedWaitWake (u : UnitId) (s : State) : Out :=
  s.onUnit u fun s =>
    let s := s.settleOwn.finishFences
    match s.g.block with
    | none => s
    | some b => if s.waitOver b then s.setG s.g.unblock else s
/-- The hardware retries requests of this kind (08 R192). -/
def retries : Block → Bool
  | .engineFull | .launchFull | .array | .room | .replay => true
  | _ => false
/-- REFUSED_REQUEST_RETRY (08 R192): the refused instruction makes its request again. -/
def execRefusedRequestRetry (u : UnitId) (s : State) : Out :=
  s.onUnit u fun s =>
    match s.g.block with
    | none => s
    | some b => if retries b then s.setG s.g.unblock else s
/-- GTS_PERIODIC_RAISE (08 R193); a deterministic group's clock does not move (06 R133). -/
def execGtsPeriodicRaise (u : UnitId) (s : State) : Out := s.onUnit u State.acquire
/-- TCLAIM_DELIVERY (08 R191). -/
def execTclaimDelivery (s : State) : Out := .next s.deliverOne
/-- PUBLICATION (05 R99, R107): what a fence covers is published. -/
def execPublication (u : UnitId) (k : KReg) (s : State) : Out :=
  s.onUnit u fun s =>
    match s.g.fenceOf k.val with
    | none => s
    | some f =>
      let s := s.settleOwn
      if s.fenceEarly f || f.published then s else s.runFence f
/-- FENCE_TOKEN_COMPLETE (05 R107). -/
def execFenceTokenComplete (u : UnitId) (k : KReg) (s : State) : Out :=
  s.onUnit u fun s => s.finishFence k.val

end Sys2Proof.Machine
end

