-- ==== Sys2Proof/Machine/EvMem.lean ====
section
/-!
DEFINITION. Events of memory: misses, publications, updates at their homes, walks, invalidations, combining
(03 R54, R59, R67, 04 R74, R75, 05 R103, R116, 06 R129, 14 R319).
-/
namespace Sys2Proof.Machine

/-- The line is a peer's that the local slice does not hold. -/
def State.lineAbsent (s : State) (l : Nat) : Bool :=
  !s.here (64 * l)
/-- A miss waits while the page of its line migrates (04 R84). -/
def State.missHeld (s : State) (m : Miss) : Bool := s.heldKey (64 * m.line)
/-- L1_MISS (03 R54): the oldest miss of a core that need not wait is served; a prefetch of a line that is no longer here,
that a peer holds exclusively, or that stands behind a DOWN die link, is dropped (14 R310). -/
def execL1Miss (core : Nat) (s : State) : Out :=
  match findFirst (fun m => !s.missHeld m) (s.core core).missQ with
  | none => .next s
  | some m =>
    let s := s.modCore core fun x => { x with missQ := dropFirst (fun y => decide (y = m)) x.missQ }
    .next (if s.lineAbsent m.line || s.own.heldByPeer m.line || s.cutFrom (s.sys.fuse.dieOf core) (64 * m.line) then s
      else (s.serveMiss core m.line m.gts).flushInvals)
/-- FORCED_PUBLISH (03 R59). -/
def execForcedPublish (core : Nat) (s : State) : Out := .next (s.forcePublish core).flushInvals
/-- BANK_ACCESS_PERFORMED (05 R103): an accepted store of a core's port performs, no earlier one of the port having
its bank; the free-value counter says which. -/
def execBankAccessPerformed (core : Nat) (s : State) : Out :=
  match pick s.draws (s.bankHeads [] (s.core core).bankQ) with
  | none => .next s
  | some (a, r) => .next ((s.modCore core fun x => { x with bankQ := r }).performBank a)

/-- Perform an update of a kind, and with it the earlier ones that touch its bytes, in order, as far as they may; the
free-value counter says which. -/
def State.performOne (s : State) (p : HomeOp → Bool) : State :=
  match pick s.draws (s.homeQ.filter p) with
  | none => s
  | some h => s.drainHome fun x => decide (x = h)
/-- ATOMIC_AT_HOME (05 R116). -/
def execAtomicAtHome (s : State) : Out :=
  .next (s.performOne fun h => match h.act with
    | .rmw _ _ _ _ => true
    | _ => false)
/-- BARRIER_UPDATE (03 R65, 14 R319). -/
def execBarrierUpdate (s : State) : Out :=
  .next (s.performOne fun h => match h.act with
    | .arrive _ | .expect _ | .bytes _ _ _ => true
    | _ => false)
/-- A section's store to an unmanaged space performs. -/
def execStoreAtHome (s : State) : Out :=
  .next (s.performOne fun h => match h.act with
    | .store _ _ => true
    | _ => false)
/-- COUNTER_ADDITION (03 R67). -/
def execCounterAddition (s : State) : Out :=
  .next (s.performOne fun h => match h.act with
    | .count _ _ => true
    | _ => false)

/-- TLB_WALK (04 R74): the oldest walk of a memory die ends; a 2 MiB leaf answers every pending miss of its
context within it. -/
def execTlbWalk (die : Nat) (s : State) : Out :=
  match findFirst (fun w : Walk => decide (4 + w.off / 2 ^ 21 % 8 = die)) s.walks with
  | none => .next s
  | some w =>
    let s := { s with walks := dropFirst (fun x => decide (x = w)) s.walks }
    let big := match walk s w.ctx w.off with
      | .ok l => l.big
      | .error _ => false
    let mates := s.walks.filter fun x => big && x.ctx == w.ctx && x.off / 2 ^ 21 == w.off / 2 ^ 21
    let s := { s with walks := s.walks.filter fun x => !mates.contains x }
    .next (foldL (fun s (x : Walk) => s.fillTlb x.tlbs x.ctx x.off) s (w :: mates))
/-- A mailbox command has ended: BUSY clears, its status stands, vector 0 is raised (17 R396). -/
def State.mboxDone (s : State) (status : Nat) : State :=
  { s with hif := { s.hif with
    busy := false, status := BitVec.ofNat 16 status, count := s.hif.count + 1
    msix := tblSet 0 s.hif.msix 0 (tblGet 0 s.hif.msix 0 + 1) } }
/-- TLB_INVALIDATION_DONE (04 R75). -/
def execTlbInvalidationDone (s : State) : Out :=
  match s.invals with
  | [] => .next s
  | i :: r =>
    if s.invalWaits i.ctx i.lo i.len then .next (s.drainHome fun h => h.place.glob && h.ctx == i.ctx)
    else
      let s := ({ s with invals := r }).invalDone i.ctx i.lo i.len
      .next (if i.mbox then s.mboxDone 0 else s)

/-- The request that a window's constituents make together: the sum, under a tag of this device (17 R388). -/
def State.sumPacket (s : State) (p : Packet) (parts : List Packet) : Packet :=
  let sum : W64 := foldL (fun n (q : Packet) => n + q.opnd.setWidth 64) 0 parts
  let red := parts.all fun q => q.data.getD 3 0 == 1
  { p with
    src := BitVec.ofNat 10 s.myId, unit := 0xFFFF, seqn := s.fab.seqn, hop := 0
    opnd := (0#64) ++ sum, data := p.data.take 3 ++ [if red then 1 else 0] ++ p.data.drop 4 }
/-- COMBINE_WINDOW (06 R129, 17 R388): the oldest open window ends, with what it holds. A window that has been answered only
keeps the answers. -/
def execCombineWindow (s : State) : Out :=
  match findFirst (fun w : Window => w.sent.isNone && w.answers.isEmpty) s.fab.combine with
  | none => .next s
  | some w =>
    match w.parts with
    | [] => .next { s with fab := { s.fab with combine := dropFirst (fun x => decide (x = w)) s.fab.combine } }
    | [p] =>
      let s : State := { s with fab := { s.fab with
        combine := dropFirst (fun x => decide (x = w)) s.fab.combine } }
      .next (s.route p).retryTx
    | p :: r =>
      let q := s.sumPacket p (p :: r)
      let t := tagOf q
      let s : State := { s with fab := { s.fab with
        seqn := s.fab.seqn + 1
        reqs := s.fab.reqs ++ [{ tag := t, pkt := q, use := .none }]
        combine := modFirst (fun x => decide (x = w)) (fun x => { x with sent := some t }) s.fab.combine } }
      .next (s.route q)

end Sys2Proof.Machine
end

