-- ==== Sys2Proof/WellFormed.lean ====
section
/-!
DEFINITION. Which terms of `Instr` an encoding stands for: the register ranges of each form (11 R236,
R238), reserved values, and the combinations that check 4 of 11 R245 refuses. What depends on the
group (a v register at or above nv, 08 R172) is checked when the instruction runs. An event has no
encoding; it is well formed when its data fit the records the spec lays out.
-/
namespace Sys2Proof

/-- A v register that a 6-bit field can name (11 R236). -/
def VReg.low (r : VReg) : Bool := decide (r.val < 64)

/-- Transfers and LOOP: LIT[1:0] is zero (11 R237). -/
def wfOff (v : W32) : Bool := v.extractLsb' 0 2 == 0#2

/-- Element widths in bits (13 R278). -/
def Size.bits : Size → Nat
  | .b => 8
  | .h => 16
  | .w => 32
  | .d => 64

/-- One word only reaches v0 to v63; an immediate has only the extended form (11 R236, R238). -/
def wfV2 (f : VForm) (a b : VReg) : Bool :=
  match f with
  | .one => a.low && b.low
  | .ext _ => true
/-- With a third operand. -/
def wfV3 (f : VForm) (a b : VReg) (c : VC) : Bool :=
  match f, c with
  | .one, .reg c => a.low && b.low && c.low
  | .one, .imm _ => false
  | .ext _, _ => true
/-- With a fourth register, which is A in one word (11 R238). -/
def wfV4 (f : VForm) (a b : VReg) (c : VC) (d : VReg) : Bool :=
  match f with
  | .one => wfV3 .one a b c && decide (d = a)
  | .ext _ => true
/-- A mask destination. -/
def wfVM (f : VForm) (b : VReg) (c : VC) : Bool :=
  match f, c with
  | .one, .reg c => b.low && c.low
  | .one, .imm _ => false
  | .ext _, _ => true
/-- A float immediate of .h4 and .b4 has IMM[31:16] zero (13 R279). -/
def wfFImm (t : FType) (c : VC) : Bool :=
  match t, c with
  | .s2, _ => true
  | _, .reg _ => true
  | _, .imm v => v.extractLsb' 16 16 == 0#16
/-- XSHF and XROT: C is an s register or IMM (13 R279). -/
def wfX (f : VForm) (a b : VReg) (c : XC) : Bool :=
  match f, c with
  | .one, .reg _ => a.low && b.low
  | .one, .imm _ => false
  | .ext _, _ => true
/-- A bit field given by a literal (12 R269). -/
def wfBit (f : BitForm) (ins : Bool) : Bool :=
  let ok (pos : Fin 64) (len : Fin 128) (x : Bool) :=
    decide (1 ≤ len.val) && decide (pos.val + len.val ≤ 64) && !(ins && x)
  match f with
  | .lit2 p l x => ok p l x
  | .lit3 p l x => ok p l x
  | .reg _ => true

/-- Registers and mask of a memory access (11 R238, R241). -/
def wfMem (o : MOpnd) (d : Disp) : Bool :=
  match o, d with
  | .u _ _, .ext _ m => decide (m = 0)
  | .u _ _, _ => true
  | .v _ _, .ext _ _ => true
  | .v a b, _ => a.low && b.low
/-- PFG. -/
def wfPfg (o : POpnd) (f : DForm) : Bool :=
  match o, f with
  | .u _, .ext _ m => decide (m = 0)
  | .u _, .one => true
  | .v _, .ext _ _ => true
  | .v b, .one => b.low
/-- SPTEST and SPCAST. -/
def wfSp (o : MOpnd) (f : VForm) : Bool :=
  match o, f with
  | .u _ _, .ext m => decide (m = 0)
  | .u _ _, .one => true
  | .v _ _, .ext _ => true
  | .v a b, .one => a.low && b.low
/-- A uniform instruction's extended form runs under m0 (11 R238). -/
def wfD (f : DForm) : Bool :=
  match f with
  | .one => true
  | .ext _ m => decide (m = 0)

/-- An atomic in the uniform form names no mask (11 R238). -/
def wfAtom (o : AOpnd) (t : AtomAttr) : Bool :=
  match o with
  | .u .. => decide (t.mask = 0)
  | .v .. => true
/-- ACAS. -/
def wfCas (o : CasOpnd) (t : AtomAttr) : Bool :=
  match o with
  | .u .. => decide (t.mask = 0)
  | .v .. => true
/-- RED: no acquire, no mask in the uniform form (11 R248). -/
def wfRed (o : ROpnd) (t : AtomAttr) : Bool :=
  (decide (t.ord = .rlx) || decide (t.ord = .rel)) &&
  match o with
  | .u .. => decide (t.mask = 0)
  | .v .. => true

/-- Bits [lo + n - 1 : lo] of a literal parameter word are zero; a marker passes (11 R240). -/
def PWord.zero (p : PWord) (lo n : Nat) : Bool :=
  match p with
  | .lit v => decide (v.toNat / 2 ^ lo % 2 ^ n = 0)
  | .sub _ => true
/-- A field of a literal parameter word does not hold x; a marker passes. -/
def PWord.avoid (p : PWord) (lo n x : Nat) : Bool :=
  match p with
  | .lit v => decide (v.toNat / 2 ^ lo % 2 ^ n ≠ x)
  | .sub _ => true

/-- MMA's payloads (15 R332). -/
def wfMma (p : PBlock) : Bool :=
  p.p2.avoid 23 2 3 && p.p2.zero 26 4 && p.p3.zero 16 11 && p.p4.avoid 20 2 3 && p.p4.zero 22 8

/-- Payloads of GATHER, SCATTER and SCATADD (16 R358). -/
def wfRid (co : Compl) (add : Bool) (p : PBlock) : Bool :=
  (match co with
   | .bar _ => true
   | _ => p.p2.zero 18 1) &&
  (if add then p.p2.avoid 16 2 3 else p.p2.zero 16 2) && p.p2.zero 19 11 &&
  (match add, p.p1, p.p2 with
   | true, .lit v1, .lit v2 =>
     !(decide (v2.toNat / 65536 % 4 = 1) && decide ((v1.toNat / 2 ^ 20 + 1) % 2 = 1))
   | _, _, _ => true) &&
  p.p3.avoid 25 2 0 && p.p3.zero 27 3 && p.p4.zero 21 9
/-- MCST's payloads (16 R358). -/
def wfMcst (co : Compl) (p : PBlock) : Bool :=
  (match co with
   | .bar _ => false
   | _ => true) &&
  p.p1.zero 6 24 && p.p2.zero 12 18 && p.p3.avoid 25 2 0 && p.p3.zero 27 3 && p.p4.zero 21 9

/-- Fields of SHIP beyond NARG and NRES are reserved (16 R368). -/
def wfShip (narg nres : Nat) (p : PBlock) : Bool :=
  (decide (1 ≤ nres) || p.p1.zero 10 10) && (decide (2 ≤ nres) || p.p1.zero 20 10) &&
  (decide (1 ≤ narg) || p.p2.zero 0 10) && (decide (2 ≤ narg) || p.p2.zero 10 10) &&
  (decide (3 ≤ narg) || p.p2.zero 20 10) && (decide (4 ≤ narg) || p.p3.zero 0 10) &&
  (decide (5 ≤ narg) || p.p3.zero 10 10) && (decide (6 ≤ narg) || p.p3.zero 20 10) &&
  (decide (3 ≤ nres) || p.p4.zero 0 10) && (decide (4 ≤ nres) || p.p4.zero 10 10) &&
  p.p4.zero 20 10

/-- System register numbers that CSRRD names (12 R274). -/
def csrReadable (n : Nat) : Bool :=
  (decide (0x100 ≤ n) && decide (n ≤ 0x102)) || (decide (0x109 ≤ n) && decide (n ≤ 0x11A)) ||
  (decide (0x200 ≤ n) && decide (n ≤ 0x20B)) || decide (n = 0x210) || decide (n = 0x300) ||
  decide (n = 0x400) || decide (n = 0x401) || (decide (0x1000 ≤ n) && decide (n ≤ 0x10FF))
/-- System register numbers that CSRWR names (12 R274). -/
def csrWritable (n : Nat) : Bool :=
  (decide (0x200 ≤ n) && decide (n ≤ 0x207)) || decide (n = 0x209) || decide (n = 0x300)

/-- Elements of a group's register at a size, as a power of two (13 R296). -/
def Size.logN : Size → Nat
  | .b => 8
  | .h => 7
  | .w => 6
  | .d => 5
/-- XRED and XSCAN: the float operations are of size .w (13 R298). -/
def wfRedOp (op : RedOp) (z : Size) : Bool :=
  match op with
  | .fadd | .fmin | .fmax => decide (z = .w)
  | _ => true
/-- Source and destination of VFCVT, its half and its mode (13 R291). -/
def wfCvt (d s : CType) (h : Bool) (mode : RMode) : Bool :=
  decide (d ≠ s) && (decide (d = .w) || decide (mode = .near)) &&
  match d, s with
  | .s2, .w | .w, .s2 | .h4, .b4 | .b4, .h4 => !h
  | _, _ => true

/-- Fields of a packet that its payload fixes (17 R382). -/
def wfPacket (p : Packet) : Bool :=
  decide (p.data.length ≤ 256) && decide (p.cls ≠ 3) && decide (p.len.toNat = p.data.length)

/-- The term is one that an encoding, or a step of the part, stands for. -/
def wellFormed : Instr → Bool
  | .br o | .brc _ _ _ o | .brm _ _ o | .call _ o | .loop _ o => wfOff o
  | .mulh .. | .div .. | .rem .. | .min .. | .max .. => true
  | .bext _ _ f => wfBit f false
  | .bins _ _ f => wfBit f true
  | .csrrd _ n => csrReadable n.toNat
  | .csrwr _ n => csrWritable n.toNat
  | .vadd _ f a b c | .vsub _ f a b c | .vadds _ f a b c | .vsubs _ f a b c | .vmul _ f a b c
  | .vmulh _ f a b c | .vand _ f a b c | .vor _ f a b c | .vxor _ f a b c | .vshl _ f a b c
  | .vshr _ f a b c | .vshra _ f a b c | .vmin _ f a b c | .vmax _ f a b c | .vminU _ f a b c
  | .vmaxU _ f a b c | .xsel _ f a b c => wfV3 f a b c
  | .vmad _ f a b c d | .vsel _ f a b c d => wfV4 f a b c d
  | .vneg _ f a b | .vnot _ f a b | .vclz _ f a b | .vabs _ f a b | .vabss _ f a b
  | .vpopc _ f a b | .vmov _ f a b => wfV2 f a b
  | .vcmp _ _ f _ b c => wfVM f b c
  | .vmovImm .. => true
  | .vmovi z a v =>
    a.low && decide (z.bits < 32 → v.toNat < 2 ^ z.bits)
  | .vmoviQ a _ => a.low
  | .vbcast _ f a _ => wfV2 f a a
  | .vexts z f a b n => wfV2 f a b && decide (n.val < z.bits)
  | .vpack z f a b c => wfV3 f a b c && decide (z ≠ .d)
  | .vunpk z f a b _ => wfV2 f a b && decide (z ≠ .d)
  | .vfadd t f a b c | .vfsub t f a b c | .vfmul t f a b c | .vfmin t f a b c | .vfmax t f a b c
  | .vfdiv t f a b c | .vqnt t f a b c | .vdqnt t f a b c => wfV3 f a b c && wfFImm t c
  | .vfma t f a b c d => wfV4 f a b c d && wfFImm t c
  | .vfabs _ f a b | .vfneg _ f a b | .vfrcp _ f a b | .vfrsq _ f a b | .vfsqrt _ f a b
  | .vfexp2 _ f a b | .vflog2 _ f a b | .vfrnd _ f a b _ | .vfclass _ f a b => wfV2 f a b
  | .vfcmp _ t f _ b c => wfVM f b c && wfFImm t c
  | .vfcvt d s f a b h m => wfV2 f a b && wfCvt d s h m
  | .vdith _ f a b _ | .vscale _ f a b _ => wfV2 f a b
  | .vrand _ f a _ => wfV2 f a a
  | .xshf _ f a b c | .xrot _ f a b c => wfX f a b c
  | .xbfly z f a b p => wfV2 f a b && decide (p.val < z.logN)
  | .xred op z f a b => wfV2 f a b && wfRedOp op z
  | .xscan op _ z f a b => wfV2 f a b && wfRedOp op z
  | .xbal _ f _ b => wfV2 f b b
  | .ld _ o d _ | .ldg _ o d _ | .lds _ o d _ | .ldc _ o d _ | .ldl _ o d _ | .ldx _ o d _
  | .st _ o d | .stg _ o d | .sts _ o d | .stc _ o d | .stl _ o d | .stx _ o d => wfMem o d
  | .stq a b _ => a.low && b.low
  | .pfg o f | .pfgLlc o f => wfPfg o f
  | .sptest o f | .spcastG o f _ | .spcastS o f _ => wfSp o f
  | .atomAdd o t _ | .atomAnd o t _ | .atomOr o t _ | .atomXor o t _ | .atomMin o t _
  | .atomMax o t _ | .atomXchg o t _ | .atomIncwrap o t _ => wfAtom o t
  | .atomFadd o t _ => wfAtom o t && decide (t.size = .w)
  | .acas o t _ => wfCas o t
  | .redAdd o t | .redMin o t | .redMax o t => wfRed o t
  | .redFadd o t => wfRed o t && decide (t.size = .w)
  | .bararv _ _ _ f | .bararvDrop _ _ _ f | .bararvJoin _ _ _ f | .bararvFz _ _ _ f
  | .barexp _ _ f | .barwait _ _ _ _ f | .bartest _ _ _ f | .cntwait _ _ _ f | .cnttest _ _ _ f
  | .tclaim _ _ _ f | .tclaimClu _ _ _ f | .launch _ f | .mdrain _ _ _ _ f | .mloadc _ _ f => wfD f
  | .tspawn _ m a b => wfV2 m a b
  | .mma p => wfMma p
  | .gather _ co _ p | .scatter _ co _ p => wfRid co false p
  | .scatadd _ co _ p => wfRid co true p
  | .mcst _ co p => wfMcst co p
  | .ship _ _ na nr p => wfShip na.val nr.val p
  | .read p | .readx p | .write p | .writeback p | .atomicRequest p | .inval p | .ownerq p
  | .shipRequest p | .mcast p | .remoteWrite p | .data p | .ack p | .migrationChain p
  | .notOwner p | .retry p | .unreachable p | .held p | .mack p | .sectionResult p
  | .stokerMessage p | .routeMarker p | .routeMarkerReturn p | .packetForward p => wfPacket p
  | .flitReceive port bs => decide (port < 12) && decide (bs.length = 72)
  | _ => true

end Sys2Proof
end

