-- ==== Sys2Proof/Machine/Section.lean ====
section
/-!
DEFINITION. SHIP, SRET, WAITTOK and TOKTEST (16 R366 to R373, 06 R124).
-/
namespace Sys2Proof.Machine

/-! ## SHIP (16 R368, R369). -/

/-- The v register in a field of a parameter word. -/
def shipReg (p : PWord) (g : Group) (lo : Nat) : VReg := Fin.ofNat 1024 (field (pwVal g p) lo 10)
/-- Fields of SHIP: lock, results, arguments. -/
structure ShipRegs where
  lock : VReg
  res : List VReg
  args : List VReg
  deriving DecidableEq, Repr
/-- Read them from a parameter block. -/
def shipRegs (g : Group) (narg nres : Nat) (p : PBlock) : ShipRegs :=
  { lock := shipReg p.p1 g 0
    res := [shipReg p.p1 g 10, shipReg p.p1 g 20, shipReg p.p4 g 0, shipReg p.p4 g 10].take nres
    args := [shipReg p.p2 g 0, shipReg p.p2 g 10, shipReg p.p2 g 20, shipReg p.p3 g 0, shipReg p.p3 g 10,
             shipReg p.p3 g 20].take narg }
/-- Every register. -/
def ShipRegs.all (r : ShipRegs) : List VReg := r.lock :: r.res ++ r.args
/-- The registers that literal words name; a marker's are known after substitution (11 R240). -/
def shipLits (g : Group) (narg nres : Nat) (p : PBlock) : List VReg :=
  let lit (w : PWord) (lo : Nat) : List VReg := match w with
    | .lit _ => [shipReg w g lo]
    | .sub _ => []
  lit p.p1 0 ++ ([lit p.p1 10, lit p.p1 20, lit p.p4 0, lit p.p4 10].take nres).flatten ++
  ([lit p.p2 0, lit p.p2 10, lit p.p2 20, lit p.p3 0, lit p.p3 10, lit p.p3 20].take narg).flatten
/-- A lock address fails (16 R369). -/
def lockFail (s : State) (a : W64) : Option Fail :=
  let n := window a
  if n = 0xC then none
  else if 8 ≤ n then some ⟨0x0C, a, 0⟩
  else failOf (xlate s s.who .load a)
/-- A lock's home lies on this device (16 R370). -/
def lockHere (s : State) (a : W64) : Bool :=
  window a == 0xC ||
  (match xlate s s.who .load a with
   | .ok l => l.isLocal
   | .error _ => true)
/-- Send a thread's request: its results become pending (16 R369). -/
def shipThread (s : State) (ent : W64) (k : Nat) (r : ShipRegs) (t : Nat) : State :=
  let g := s.g
  let lock := g.vGet r.lock t
  let id := s.nextId
  let p : Pend := { id := id, flag := none, addr := lock, ipc := g.pc, sect := true
                    writes := r.res.map fun v => (.v v.val t, none) }
  let req : SecReq :=
    { sender := { dev := s.myId, gid := g.gid, launch := g.launch, gidx := g.gidx, thread := t, ctx := g.ctx
                  k := k, pend := id, tag := BitVec.ofNat 64 (unitCode g.unit) }
      entry := ent, lock := lock, args := r.args.map fun v => g.vGet v t, nres := r.res.length
      scope := if lockHere s lock then .dev else .fab }
  let here := lockHere s lock
  let s := s.fresh.opsInc g.launch 1
  let s := if r.res.isEmpty then s else s.setG { s.g with pend := s.g.pend ++ [p] }
  s.sendShip req here
/-- SHIP (16 R369). -/
def execShip (ent : SReg) (kt : KReg) (narg : Fin 7) (nres : Fin 5) (p : PBlock) (s : State) : Out :=
  vector s (shipLits s.g narg nres p) (some 0x16) (useS ent :: pbUses p) 0 5 fun s ts =>
    inTurn s fun s =>
      let r := shipRegs s.g narg nres p
      if !(pbFits s.g p && wfShip narg nres (pbLit s.g p)) then s.illegal 0
      else
        match badReg s.g r.all with
        | some v => s.illegal (BitVec.ofNat 64 (2 ^ 63 + v.val))
        | none =>
          let e := s.g.sGet ent
          if e.toNat % 4 ≠ 0 ∨ 2 ^ 63 ≤ e.toNat then
            s.raiseAt 0x04 e 0 (ts.headD 0) (threadMask ts)
          else
            checkThreads s false ts (fun t => lockFail s (s.g.vGet r.lock t)) <|
              stalled s (usesV r.all) fun s =>
                let s := s.finishFence kt.val
                if (s.g.kGet kt.val).pending then s.blockOn (.token kt.val)
                else
                  let here := ts.all fun t => lockHere s (s.g.vGet r.lock t)
                  forking s (if here then .dev else .fab) fun s =>
                    let s := s.setG (s.g.kSet kt.val { kind := .sect, pending := true, left := ts.length })
                    .next ((foldL (fun s t => shipThread s e kt.val r t) s ts).retire 5)

/-! ## SRET (16 R372). -/

/-- SRET (16 R372). -/
def execSret (s : State) : Out :=
  match s.g.sec with
  | none => s.raise 0x17 0 1
  | some r =>
    let s := s.finishFences.writeback
    match findFirst (fun p => p.ready && p.poisoned) s.g.pend with
    | some p => s.entering fun s => .next (s.poisonTrap p)
    | none =>
      if !s.g.pend.isEmpty || s.g.k.any (fun e => e.2.pending) then s.blockOn .drain
      else
        releasing s r.scope fun s =>
          let res := (upTo r.nres).map fun j => s.g.vGet (Fin.ofNat 1024 (j + 1)) 0
          .next ((s.setG Group.empty).sectionResult r res false)

/-! ## Tokens (16 R366, R367). -/

/-- TSTAT (16 R366). -/
def Tok.status (t : Tok) : W64 :=
  if t.pending then 0
  else
    let kind := match t.kind with
      | .none => 0
      | .fence => 1
      | .engine => 2
      | .sect => 3
      | .mcast => 4
    BitVec.ofNat 64 (1 + 2 * kind + 2 ^ 8 * t.cause.toNat + 2 ^ 16 * t.code.toNat + 2 ^ 32 * t.count.toNat)
/-- WAITTOK (16 R367). -/
def execWaittok (k : KReg) (s : State) : Out :=
  inTurn s fun s =>
    let s := s.finishFence k.val
    if (s.g.kGet k.val).pending then waitFalse s (.token k.val)
    else acquiring s fun s => .next (s.retire 1)
/-- TOKTEST (16 R367). -/
def execToktest (a : SReg) (k : KReg) (s : State) : Out :=
  uniform s none none [useS a] fun s => inTurn s fun s =>
    let s := s.finishFence k.val
    let put (s : State) : Out := .next ((s.setG (s.g.sSet a (s.g.kGet k.val).status)).retire 1)
    if (s.g.kGet k.val).pending then put s else acquiring s put

end Sys2Proof.Machine
end

