-- ==== Sys2Proof/Machine/EvEngine.lean ====
section
/-!
DEFINITION. Events of the engines, the Riddle units, the Dampers and the arrays (08 R195, 10 R227, 15 R330, 16
R346, R351, R352, R361, R371, 06 R120).
-/
namespace Sys2Proof.Machine

/-- ENGINE_RECORD_START (16 R346). -/
def execEngineRecordStart (core : Nat) (s : State) : Out := .next (s.engStart core)
/-- The running operation of a name, and its core. -/
def State.runOf (s : State) (op : Nat) : Option (Nat × EngOp) :=
  firstSome (s.cores.map fun e => (findFirst (fun o : EngOp => o.id == op) e.2.engRun).map fun o => (e.1, o))
/-- ENGINE_WRITE_PERFORMED (06 R120): the writes of an operation, or the next step of a Riddle operation, perform. -/
def execEngineWritePerformed (op : Nat) (s : State) : Out :=
  match s.runOf op with
  | some (c, o) => .next (s.engPerform c o)
  | none =>
    match s.rid op with
    | none => .next s
    | some o => .next (if o.kind = .mcst then s.mcIssue o else s.ridPerform o)
/-- ENGINE_OP_COMPLETE (16 R352). -/
def execEngineOpComplete (core op : Nat) (s : State) : Out :=
  match findFirst (fun o : EngOp => o.id == op) (s.core core).engRun with
  | none => .next s
  | some o => .next (s.engFinish core o)
/-- LOOP_REFILL (16 R351). -/
def execLoopRefill (core op : Nat) (s : State) : Out :=
  match findFirst (fun o : EngOp => o.id == op) (s.core core).engRun with
  | none => .next s
  | some o => .next (s.loopRefill core o)
/-- RIDDLE_OP_COMPLETE (16 R361). -/
def execRiddleOpComplete (op : Nat) (s : State) : Out :=
  match s.rid op with
  | none => .next s
  | some o => .next (s.ridFinish o)

/-- A lock is held on a Damper: by a running or suspended section. -/
def State.lockHeld (s : State) (d : Nat) (lock : W64) : Bool :=
  s.groups.any fun g => match g.unit, g.sec with
    | .damper x _, some r => x == d && decide (r.lock = lock)
    | _, _ => false
/-- The lowest free context of a Damper. -/
def State.freeContext (s : State) (d : Nat) : Option Nat :=
  findFirst (fun x => (s.findUnit (.damper d x)).isNone) (upTo 4)
/-- A section at its start (16 R371). -/
def sectionGroup (s : State) (d x : Nat) (r : SecReq) : Group :=
  let g : Group :=
    { unit := .damper d x, gid := s.nextId, live := true, ctx := r.sender.ctx, n0 := 1, nv := 64
      m := [(0, 1)], pc := r.entry, hdr := r.entry, atEntry := true, gts := s.pclk, sec := some r }
  let vs := (0, r.lock) :: r.args.zipIdx.map fun e => (e.2 + 1, e.1)
  let g := foldL (fun (g : Group) e => g.vSet (Fin.ofNat 1024 e.1) 0 e.2) g vs
  ((g.sSet 1 (r.sender.gidx.setWidth 64)).sSet 2 (BitVec.ofNat 64 r.sender.thread)).sSet 3
    (BitVec.ofNat 64 r.sender.dev)
/-- SECTION_START (16 R371, 08 R195): a free context takes the oldest request whose lock is free; the queue entry
it frees admits a listed request. A section whose context this device does not have is aborted: its results are zero, and its
lock passes on (02 R37). -/
def execSectionStart (damper : Nat) (s : State) : Out :=
  let x := s.damper damper
  match s.freeContext damper, findFirst (fun r : SecReq => !s.lockHeld damper r.lock) x.queue with
  | some c, some r =>
    let g := sectionGroup s damper c r
    let s := s.setDamper damper { x with queue := dropFirst (fun q => decide (q.lock = r.lock)) x.queue }
    let s : State :=
      if (s.ctx r.sender.ctx).exists_ then { s.fresh with parked := s.parked ++ [g] }
      else s.sectionResult r (List.replicate r.nres 0) true
    .next (s.admitListed damper)
  | _, _ => .next (s.admitListed damper)

/-- MMA_STREAM_END (15 R330). -/
def execMmaStreamEnd (pair : Nat) (s : State) : Out := .next (s.streamEnd pair)
/-- MMA_CONVERSION_END (15 R330). -/
def execMmaConversionEnd (pair : Nat) (s : State) : Out := .next (s.convEnd pair)
/-- A group of the context that holds a pair's matrix right is being pre-empted on the pair's cores. -/
def State.pairSignalled (s : State) (pair : Nat) : Bool :=
  s.groups.any fun g => (unitCore g.unit).map (· / 2) == some pair && g.unsaved
/-- ARRAY_FREEZE (10 R227), or the step boundary of an accepted MFREEZE (15 R344). -/
def execArrayFreeze (pair : Nat) (s : State) : Out :=
  .next (if (s.arr pair).freezing then s.boundary pair
    else if s.pairSignalled pair then s.freezeArray pair false else s)

end Sys2Proof.Machine
end

