-- ==== Sys2Proof/Machine/EvDispatch.lean ====
section
/-!
DEFINITION. Events of the dispatcher: decisions, launches, tasks, deterministic domains, and the Stoker's queue
slots (06 R133, R135, 08 R185 to R189, 09 R196 to R211).
-/
namespace Sys2Proof.Machine

/-! ## Dispatch decisions (09 R198, R206, R207, R210). -/

/-- RQ.WPTR. -/
def State.rqWptr (s : State) (d : W64) : W64 := s.physWord (d.toNat + 16)
/-- RQ.RPTR. -/
def State.rqRptr (s : State) (d : W64) : W64 := s.physWord (d.toNat + 24)
/-- Address of packet i of a queue. -/
def State.rqSlot (s : State) (d : W64) (i : W64) : W64 :=
  s.physWord d.toNat + BitVec.ofNat 64 (256 * (i.toNat % 2 ^ ((s.physWord (d.toNat + 8)).toNat % 32)))
/-- What stands at the head of a slot. -/
inductive HeadGot
  | none
  | want (line : Nat)
  | head (h : Head)
  deriving DecidableEq, Repr
/-- A packet waits for no event bit that is clear (09 R200); one that cannot be read waits for none. -/
def State.dispatchable (s : State) (c : Nat) (b : Option (List Byte)) : Bool :=
  match b with
  | none => true
  | some b => decide ((s.ctx c).ev &&& pkWait b = pkWait b)
/-- The valid slot of highest priority of a context; of equal ones the lowest (09 R210). (DEDUCED, log entry 28.) -/
def State.bestSlot (s : State) (c : Nat) : Option Nat :=
  firstSome ([3, 2, 1, 0].map fun p =>
    findFirst (fun j => (s.slot j).valid && (s.slot j).ctx.toNat == c && (s.slot j).prio.toNat == p) (upTo 64))
/-- A packet that heads a queue, or its context's device-launch list, by that number. -/
def Head.name (h : Head) : Bool × Nat := (h.devl, if h.devl then h.ctx else h.queue)
/-- A packet that waits for no clear bit, or was once judged so (09 R200). -/
def State.mayDispatch (s : State) (n : Bool × Nat) (c : Nat) (b : List Byte) : Bool :=
  s.dispatchable c (some b) || s.disp.judged.contains n
/-- The head of a queue (09 R198). -/
def State.queueHead (s : State) (x : Slot) : HeadGot :=
  let i := s.rqRptr x.qdesc
  if i = s.rqWptr x.qdesc then .none
  else
    let h : Head := { ctx := x.ctx.toNat, queue := x.queue.toNat, index := i, devl := false, b := none }
    match hwRead s x.ctx.toNat (s.rqSlot x.qdesc i) 256 with
    | .want l => .want l
    | .bad => .head h
    | .bytes b => if s.mayDispatch h.name x.ctx.toNat b then .head { h with b := some b } else .none
/-- The slot from which a packet starts. -/
def State.nameSlot (s : State) (n : Bool × Nat) : Option Nat :=
  if n.1 then s.bestSlot n.2 else findFirst (fun j => (s.slot j).valid && (s.slot j).queue.toNat == n.2) (upTo 64)
/-- The reservation keeps a packet of a slot from starting: it is of equal or lower priority (09 R206). -/
def State.heldBack (s : State) (j : Nat) (n : Bool × Nat) : Bool :=
  match s.disp.marks with
  | [] => false
  | m :: _ => m != n && (match s.nameSlot m with
    | none => false
    | some r => decide ((s.slot j).prio.toNat ≤ (s.slot r).prio.toNat))
/-- The head that a decision examines at a slot, beyond those it has passed: of the context's device-launch list first, where
the slot is the context's best (09 R206, R210). -/
def State.slotHead (s : State) (passed : List (Bool × Nat)) (j : Nat) : HeadGot :=
  let x := s.slot j
  let c := x.ctx.toNat
  let may (n : Bool × Nat) : Bool := !passed.contains n && !s.heldBack j n
  let queued := if may (false, x.queue.toNat) then s.queueHead x else .none
  match (s.ctx c).devList with
  | (b, a) :: _ =>
    if may (true, c) && s.bestSlot c = some j && s.mayDispatch (true, c) c b then
      .head { ctx := c, queue := 0, index := a, devl := true, b := some b }
    else queued
  | [] => queued
/-- The valid slots in the order in which a decision takes them (09 R206). -/
def State.slotOrder (s : State) : List Nat :=
  let ring := (upTo 64).map fun n => (s.disp.slotPtr + n) % 64
  [3, 2, 1, 0].flatMap fun p => ring.filter fun j => (s.slot j).valid && (s.slot j).prio.toNat == p
/-- The task queue descriptor of a packet. -/
def State.tqOf (s : State) (h : Head) (b : List Byte) : HwGot :=
  if pk b 0 1 = 1 && pkTask b then hwRead s h.ctx (BitVec.ofNat 64 (pk b 168 8)) 64 else .bad
/-- The check that a packet fails, if any (09 R201). -/
def State.headCheck (s : State) (h : Head) : Option (Nat × Nat) :=
  match h.b with
  | none => some (0xB, 0)
  | some b =>
    pkCheck s.sys.fuse (s.ctx h.ctx).dead (match s.tqOf h b with
      | .bytes d => some d
      | _ => none) b
/-- A line that a packet's checks must have first. -/
def State.headWants (s : State) (h : Head) : Option Nat :=
  match h.b with
  | none => none
  | some b => match s.tqOf h b with
    | .want l => some l
    | _ => none
/-- This device's index among a launch's devices; the spec does not say which it is (DESIGN CHOICE, log entry 18). -/
def State.shareOf (s : State) (b : List Byte) : Nat :=
  let n := devicesOf ((pkLevels b).getD [])
  if n ≤ 1 then 0 else (Config.freeWord s.draws).toNat % n
/-- A LAUNCH that has passed its checks fits now. -/
def State.headFits (s : State) (h : Head) (b : List Byte) : Bool :=
  s.fits h.ctx (pkShared b) (pkNv b) (pkW b) (spotsOf s.sys.fuse (s.shareOf b) ((pkLevels b).getD []))
/-- Packets of a context that its event vector lets go now are judged dispatchable, before bits are cleared (09 R200). -/
def State.judge (s : State) (c : Nat) : State :=
  let listed := match (s.ctx c).devList with
    | (b, _) :: _ => if s.mayDispatch (true, c) c b then [(true, c)] else []
    | [] => []
  let queued := s.disp.slots.filterMap fun e =>
    if e.2.valid && e.2.ctx.toNat == c then
      match s.queueHead e.2 with
      | .head h => some h.name
      | _ => none
    else none
  { s with disp := { s.disp with judged := (listed ++ queued ++ s.disp.judged).eraseDups } }
/-- A packet is no longer a head: nothing more is noted of it. -/
def Disp.forget (d : Disp) (n : Bool × Nat) : Disp :=
  let drop (l : List (Bool × Nat)) : List (Bool × Nat) := l.filter fun m => m != n
  { d with judged := drop d.judged, skips := drop d.skips, marks := drop d.marks }
/-- A slot's packet has been dispatched or rejected: RPTR or the list moves on (09 R198, R206). -/
def State.advance (s : State) (j : Nat) (h : Head) : State :=
  let s := if h.devl then s.setCtx h.ctx { s.ctx h.ctx with devList := (s.ctx h.ctx).devList.drop 1 }
    else s.setPhysWord ((s.slot j).qdesc.toNat + 24) (h.index + 1)
  { s with disp := { s.disp.forget h.name with slotPtr := (j + 1) % 64 } }
/-- A packet is skipped, and the pointer is past its slot (09 R206). -/
def State.skip (s : State) (j : Nat) (h : Head) : State :=
  let add (l : List (Bool × Nat)) : List (Bool × Nat) := if l.contains h.name then l else l ++ [h.name]
  { s with disp := { s.disp with
    judged := add s.disp.judged, skips := add s.disp.skips, slotPtr := (j + 1) % 64 } }
/-- Dispatch or reject a head (09 R200 to R204); none when the resources cannot hold it. -/
def State.takeHead (s : State) (h : Head) : Option State :=
  match s.headCheck h, h.b with
  | some (code, detail), _ => some (s.rejectPacket h code detail)
  | none, none => none
  | none, some b =>
    if pk b 0 1 = 2 then
      some (((s.judge h.ctx).evUnit h.ctx (pkClr b) 0).packetDone h.ctx (pkDone b) (pkDonen b) (pkSet b))
    else if s.headFits h b then some ((s.startLaunch h b (s.shareOf b)).draw)
    else none
/-- One decision: a packet that does not fit is skipped, and the dispatcher decides again (09 R206). Packets that have been
skipped and slots with nothing more to examine are left out; fuel bounds the number of both. -/
def State.decideOver (s : State) (passed : List (Bool × Nat)) (done : List Nat) : Nat → State
  | 0 => s
  | n + 1 =>
    match findFirst (fun j => !done.contains j) s.slotOrder with
    | none => s
    | some j =>
      match s.slotHead passed j with
      | .none => s.decideOver passed (j :: done) n
      | .want l => (s.getLine 0 l false).decideOver passed (j :: done) n
      | .head h =>
        match s.headWants h with
        | some l => (s.getLine 0 l false).decideOver passed (j :: done) n
        | none =>
          match s.takeHead h with
          | some s => s.advance j h
          | none => (s.skip j h).decideOver (h.name :: passed) done n
/-- DISPATCH_DECISION (09 R206). -/
def execDispatchDecision (s : State) : Out := .next (s.decideOver [] [] 192)
/-- PACKET_RESERVATION (09 R206): the packet of a slot that was skipped first has been so for 100 microseconds. It holds the
reservation once those that reached that mark before have been placed. -/
def execPacketReservation (slot : Nat) (s : State) : Out :=
  match findFirst (fun n => !s.disp.marks.contains n && decide (s.nameSlot n = some slot)) s.disp.skips with
  | some n => .next { s with disp := { s.disp with marks := s.disp.marks ++ [n] } }
  | none => .next s
/-- The LAUNCH that the next decision would place. -/
def State.nextLaunch (s : State) : List Nat → Option (Head × List Byte)
  | [] => none
  | j :: r =>
    match s.slotHead [] j with
    | .head h =>
      match s.headCheck h, h.b with
      | none, some b => if pk b 0 1 = 1 && s.headFits h b then some (h, b) else s.nextLaunch r
      | _, _ => s.nextLaunch r
    | _ => s.nextLaunch r
/-- CONTEXT_SWITCH_CLEAR (09 R207): a core that the next placement takes, and that last served another context, is
cleared. -/
def execContextSwitchClear (core : Nat) (s : State) : Out :=
  match s.nextLaunch s.slotOrder with
  | none => .next s
  | some (h, b) =>
    let f := s.sys.fuse
    let spots := spotsOf f (s.shareOf b) ((pkLevels b).getD [])
    if (takenCores f (pkShared b) (launchCores f spots)).contains core && (s.residents core).isEmpty then
      .next (s.clearCores h.ctx [core])
    else .next s

/-! ## The end of a launch, tasks (08 R185 to R189, 09 R204). -/

/-- The launch is over: its groups, engine operations and sections have ended, and were not stopped with its context (09 R204,
R211). -/
def State.launchOver (s : State) (l : Launch) : Bool :=
  !l.killed && l.ops == 0 && !(s.everyGroup.any fun g => g.launch == l.id) && (!l.task || l.ended)
/-- Forget a launch. -/
def State.dropLaunch (s : State) (id : Nat) : State :=
  { s with disp := { s.disp with
    launches := dropFirst (fun l => l.id == id) s.disp.launches
    doms := dropFirst (fun d => d.launch == id) s.disp.doms
    deliveries := s.disp.deliveries.filter fun d => d.launch != id } }
/-- LAUNCH_COMPLETE (09 R204). -/
def execLaunchComplete (launch : Nat) (s : State) : Out :=
  match s.launchOf launch with
  | none => .next s
  | some l =>
    if !s.launchOver l then .next s
    else
      let s := s.drainHome fun h => match h.act with
        | .count _ _ => true
        | _ => false
      .next ((s.packetDone l.ctx l.done l.donen l.set).dropLaunch launch)

/-- The descriptor of a task-mode launch, as the hardware finds it. -/
def State.launchTq (s : State) (l : Launch) : HwOwn := hwOwn s l.ctx .rmw l.tq 64
/-- The idle groups that may take the next task: in each cluster the one of lowest index (08 R186). -/
def State.idlers (s : State) (launch : Nat) : List Group :=
  let idle := s.groups.filter fun g => g.launch == launch && decide (g.task = .idle) && !g.handler
  let clus (g : Group) : Nat := s.sys.fuse.clusterOf (unitCoreN g.unit)
  idle.filter fun g => idle.all fun x => clus x != clus g || decide (g.gidx ≤ x.gidx)
/-- The reason and offset of a task record that traps at its start (08 R187, 16 R355). -/
def taskFail (r : List Byte) : Option Nat :=
  let rsv (n : Nat) : Bool :=
    let b := (r.getD n 0).toNat
    if n = 48 then decide (2 ≤ b) else decide (b ≠ 0)
  let bad := findFirst rsv ([22, 23] ++ from_ 48 16)
  let fits (off : Nat) : Bool := cntWindow (window (BitVec.ofNat 64 (pk r off 8)))
  match bad with
  | some n => some (0x20 + 256 * n)
  | none =>
    if !fits 24 then some (0x21 + 256 * 24)
    else if !fits 32 then some (0x22 + 256 * 32)
    else none
/-- A task starts in the current group (08 R186, R187). -/
def State.startTask (s : State) (slot : W64) (r : List Byte) (psn : Bool) : State :=
  let w (off : Nat) : W64 := BitVec.ofNat 64 (pk r off 8)
  let g := s.g
  let coord := BitVec.ofNat 64 (pk r 16 2 + 2 ^ 16 * pk r 18 2 + 2 ^ 32 * pk r 20 2)
  let g : Group := { g with
    task := .running slot (w 24) (w 32) (w 40), pc := w 0, hdr := w 0, atEntry := true, block := none
    k := [], f := [], pend := [], loads := [], v := if field (pk r 48 1) 0 1 = 1 then [] else g.v
    gts := Nat.max g.gts s.pclk }
  let g := (((g.mSet 0 g.present).sSet 1 (w 8)).sSet 2 coord).sSet 3 slot
  let s := s.setG g
  if psn then s.trap { cause := 0x30, addr := slot, pc := w 0 }
  else
    match taskFail r with
    | some i => s.trap { cause := 0x1C, addr := slot, info := BitVec.ofNat 64 i, pc := w 0 }
    | none => s
/-- TASK_DISPATCH (08 R186): the task at HEAD goes to an idle group. Where its slot does not translate nothing happens, and the
group waits on (DESIGN CHOICE, log entry 68). -/
def execTaskDispatch (launch : Nat) (s : State) : Out :=
  match s.launchOf launch with
  | none => .next s
  | some l =>
    let idle := s.idlers launch
    if !l.task || idle.isEmpty then .next s
    else
      match s.launchTq l with
      | .fail _ => .next s
      | .want x => .next (s.getLine 0 x true)
      | .keys ks =>
        let head := s.tqWord ks 16
        if (s.tqWord ks 32).toNat ≤ head.toNat then .next s
        else
          let slot := s.tqSlot ks head
          match hwKeys s l.ctx .load slot 64 with
          | none => .next s
          | some rk =>
            match s.wantLine Group.empty rk with
            | some x => .next (s.getLine 0 x false)
            | none =>
              let r := (s.readHome rk).2
              let s := (s.widen none rk).setTq ks 16 (head + 1)
              let n := if idle.length ≤ 1 then 0 else (Config.freeWord s.draws).toNat % idle.length
              let gid := ((idle.map (·.gid)).getD n 0)
              .next (s.draw.asGroup gid fun s => s.startTask slot (r.map (·.b)) (r.any (·.psn) || rk.any (s.cutFrom 0)))
/-- TASK_COMMIT (08 R185): COMMIT moves over the spawn that begins at it. -/
def execTaskCommit (launch : Nat) (s : State) : Out :=
  match s.launchOf launch with
  | none => .next s
  | some l =>
    match s.launchTq l with
    | .fail _ => .next s
    | .want x => .next (s.getLine 0 x true)
    | .keys ks =>
      let c := s.tqWord ks 32
      match findFirst (fun e : W64 × W64 => decide (e.1 = c)) l.commits with
      | none => .next s
      | some e =>
        .next ((s.setTq ks 32 (c + e.2)).modLaunch launch fun l =>
          { l with commits := dropFirst (fun x => decide (x = e)) l.commits })
/-- TASK_LAUNCH_END (08 R189): the queue is empty and no group runs a task; every group ends. -/
def execTaskLaunchEnd (launch : Nat) (s : State) : Out :=
  match s.launchOf launch with
  | none => .next s
  | some l =>
    let mine := s.everyGroup.filter fun g => g.launch == launch
    if !l.task || l.ended || mine.any (fun g => decide (g.task ≠ .idle)) || !l.commits.isEmpty then .next s
    else
      match s.launchTq l with
      | .fail _ => .next s
      | .want x => .next (s.getLine 0 x true)
      | .keys ks =>
        let c := s.tqWord ks 32
        if s.tqWord ks 16 ≠ c ∨ s.tqWord ks 24 ≠ c then .next s
        else
          let s := s.modLaunch launch fun l => { l with ended := true }
          let s := foldL (fun s g => s.freeGroup g) s (s.groups.filter fun g => g.launch == launch)
          .next { s with ctxs := s.ctxs.map fun e =>
            (e.1, { e.2 with saved := e.2.saved.filter fun g => g.launch != launch }) }

/-! ## Deterministic domains (06 R133, R135). -/

/-- The groups of a domain, by launch group index. -/
def State.domGroups (s : State) (launch : Nat) : List Group :=
  sortBy (fun g => g.gidx.toNat) (s.everyGroup.filter fun g => g.launch == launch && g.det.isSome)
/-- The group has reached the quantum end, or leaves there. -/
def Group.atQuantumEnd (g : Group) : Bool :=
  match g.det with
  | some d => d.atEnd || d.leaving
  | none => true
/-- Publish one group's lines, under a stamp above the one before it (06 R133). -/
def State.quantumPublish (s : State) (g : Group) : State :=
  let s := s.widen none (g.allPriv.map (·.1))
  let r := match unitCore g.unit with
    | some c => s.overCut (s.sys.fuse.dieOf c) g.allPriv
    | none => (s, g.allPriv)
  (r.1.publish r.2 (Nat.max g.gts s.pclk)).1.modEver g.gid (Group.allPublished .dev)
/-- The group goes on in the next quantum. -/
def Group.nextQuantum (g : Group) (p : Nat) : Group :=
  { g with
    gts := p, block := if g.block = some .quantum then none else g.block
    det := g.det.map fun d => { d with atEnd := false } }
/-- QUANTUM_END (06 R133). -/
def execQuantumEnd (launch : Nat) (s : State) : Out :=
  let gs := s.domGroups launch
  let ks := gs.flatMap fun g => g.allPriv.map (·.1)
  if gs.isEmpty || !gs.all Group.atQuantumEnd || ks.any s.heldKey then .next s
  else
    match s.exclLine ks with
    | some l => .next (s.getLine 0 l true)
    | none =>
      let s := (foldL (fun s g => s.quantumPublish g) s gs).flushInvals
      let s := foldL (fun s g => s.freeGroup g) s (gs.filter fun g => match g.det with
        | some d => d.leaving
        | none => false)
      let s := foldL (fun s (g : Group) => s.modEver g.gid fun x => x.nextQuantum s.pclk) s gs
      .next { s with disp := { s.disp with
        doms := modFirst (fun d => d.launch == launch) (fun d => { d with snap := [], late := [] }) s.disp.doms } }
/-- DET_TURN_GRANT (06 R135): the group of the smallest pair, if it waits for its turn. -/
def execDetTurnGrant (launch : Nat) (s : State) : Out :=
  if s.turnHeld launch || s.shipsOut launch then .next s
  else
    match findFirst (fun g : Group => g.launch == launch && decide (g.block = some .turn) &&
        s.smallest launch (g.retired.toNat, g.gidx.toNat)) s.groups with
    | none => .next s
    | some g => .next (s.modGid g.gid fun g =>
        { g with block := none, det := g.det.map fun d => { d with turn := true } })

/-! ## Queue slots (09 R197, R205, R208, R209). -/

/-- The descriptor of a queue, if it is registered. -/
def State.queueDesc (s : State) (q : Nat) : Option W64 := tblGet none s.disp.queues q
/-- The queue holds packets. -/
def State.queueBusy (s : State) (q : Nat) : Bool :=
  match s.queueDesc q with
  | none => false
  | some d => decide (s.rqWptr d ≠ s.rqRptr d)
/-- STOKER_READY_CLEAR (09 R197): the bit is cleared, and set again when WPTR ≠ RPTR. -/
def execStokerReadyClear (queue : Nat) (s : State) : Out :=
  .next { s with disp := { s.disp with ready := tblSet false s.disp.ready queue (s.queueBusy queue) } }
/-- The context of a queue (09 R196). -/
def State.queueCtx (s : State) (q : Nat) : Nat :=
  match s.queueDesc q with
  | none => 0
  | some d => field (s.physWord (d.toNat + 8)).toNat 8 10
/-- Its priority. -/
def State.queuePrio (s : State) (q : Nat) : Nat :=
  match s.queueDesc q with
  | none => 0
  | some d => field (s.physWord (d.toNat + 8)).toNat 18 2
/-- A queue holds a slot. -/
def State.queueBound (s : State) (q : Nat) : Bool :=
  s.disp.slots.any fun e => e.2.valid && e.2.queue.toNat == q
/-- The ready unbound queues of live contexts (09 R209). -/
def State.readyQueues (s : State) : List Nat :=
  (s.disp.ready.map (·.1)).filter fun q =>
    s.queueBusy q && !s.queueBound q && (s.ctx (s.queueCtx q)).exists_ &&
      !(s.ctx (s.queueCtx q)).dead && !(s.ctx (s.queueCtx q)).busy
/-- The queue to bind: of highest priority; of equal ones the first at or after the pointer (09 R209). -/
def State.nextQueue (s : State) : Option Nat :=
  let l := s.readyQueues
  firstSome ([3, 2, 1, 0].map fun p =>
    let m := l.filter fun q => s.queuePrio q == p
    match findFirst (fun q => decide (s.disp.queuePtr ≤ q)) m with
    | some q => some q
    | none => m.head?)
/-- SLOT_BIND (09 R209). -/
def execSlotBind (slot : Nat) (s : State) : Out :=
  match s.nextQueue with
  | none => .next s
  | some q =>
    if 64 ≤ slot ∨ (s.slot slot).valid ∨ (s.slot slot).unacked then .next s
    else
      let c := s.queueCtx q
      let x := s.ctx c
      let rec_ : Slot :=
        { queue := BitVec.ofNat 14 q, ctx := BitVec.ofNat 10 c, prio := BitVec.ofNat 2 (s.queuePrio q)
          valid := true, slice := 2000, xbase := BitVec.ofNat 10 x.gbase, xsize := BitVec.ofNat 10 x.gsize
          qdesc := (s.queueDesc q).getD 0, ptroot := x.ptroot }
      let s := (s.setSlot slot rec_).setCtx c { x with saveBase := Config.saveBaseOf s.draws }
      .next { s.draw with disp := { s.disp with queuePtr := (q + 1) % 16384 } }
/-- VALID = 0 (09 R208). What was skipped at the slot reserves nothing any more. -/
def State.unbind (s : State) (j : Nat) : State :=
  if (s.slot j).valid then
    let x := s.slot j
    let s := s.setSlot j { x with valid := false, unacked := true }
    let gone (n : Bool × Nat) : Bool := n == (false, x.queue.toNat) || (n == (true, x.ctx.toNat) && (s.bestSlot n.2).isNone)
    let drop (l : List (Bool × Nat)) : List (Bool × Nat) := l.filter fun n => !gone n
    { s with disp := { s.disp with skips := drop s.disp.skips, marks := drop s.disp.marks } }
  else s
/-- The slot that gives way: none is free, and a ready queue outranks a bound one. It is the slot of lowest priority; of equal
ones the lowest (09 R209). -/
def State.outranked (s : State) : Option Nat :=
  match firstSome ([0, 1, 2, 3].map fun p => findFirst (fun j => (s.slot j).prio.toNat == p) (upTo 64)) with
  | none => none
  | some j =>
    if (upTo 64).all (fun j => (s.slot j).valid) && s.readyQueues.any (fun q => decide ((s.slot j).prio.toNat < s.queuePrio q))
    then some j else none
/-- The context that a head's name belongs to. -/
def State.nameCtx (s : State) (n : Bool × Nat) : Nat := if n.1 then n.2 else s.queueCtx n.2
/-- The pairs on which a context has groups that no pre-emption has been signalled to. -/
def State.livePairs (s : State) (ctx : Nat) : List Nat :=
  (s.groups.filterMap fun g => if g.ctx == ctx && !g.preempting then (unitCore g.unit).map (· / 2) else none).eraseDups
/-- Contexts with resident groups and no slot, while a packet of another one that has been skipped lacks cores (09 R209). -/
def State.stranded (s : State) : List Nat :=
  ((s.groups.map (·.ctx)).eraseDups).filter fun c =>
    !(s.livePairs c).isEmpty && (s.bestSlot c).isNone && s.disp.skips.any fun n => s.nameCtx n != c
/-- SLOT_UNBIND (09 R208). -/
def execSlotUnbind (slot : Nat) (s : State) : Out := .next (s.unbind slot)
/-- UNBIND_ACK (09 R208): no placement from the slot is in progress. -/
def execUnbindAck (slot : Nat) (s : State) : Out :=
  .next (s.setSlot slot { s.slot slot with unacked := false })
/-- SLICE_EXPIRY (09 R209): the slot is unbound when a ready unbound queue of equal or higher priority waits. -/
def execSliceExpiry (slot : Nat) (s : State) : Out :=
  let x := s.slot slot
  if x.valid && x.slice != 0 && s.readyQueues.any fun q => decide (x.prio.toNat ≤ s.queuePrio q) then
    .next (s.unbind slot)
  else .next s
/-- QUEUE_IDLE_TIMEOUT (09 R209). -/
def execQueueIdleTimeout (slot : Nat) (s : State) : Out :=
  let x := s.slot slot
  if x.valid && !s.queueBusy x.queue.toNat then .next (s.unbind slot) else .next s

end Sys2Proof.Machine
end

