-- ==== Sys2Proof/Machine/EvPower.lean ====
section
/-!
DEFINITION. Power gating of compute cores (09 R214, R215).
-/
namespace Sys2Proof.Machine

/-- What R214 asks of a core that enters gating. -/
def State.mayGate (s : State) (c : Nat) : Bool :=
  let x := s.core c
  let a := s.arr (c / 2)
  decide (x.power = .active) && (s.residents c).isEmpty && x.engQ.isEmpty && x.engRun.isEmpty &&
  !(s.riddle.any fun r => r.core == c) && a.stream.isNone && a.conv.isNone && x.narrow.isEmpty
/-- Set a core's power state. -/
def State.setPower (s : State) (c : Nat) (p : Power) : State := s.modCore c fun x => { x with power := p }
/-- POWER_GATE_ENTRY (09 R214). -/
def execPowerGateEntry (core : Nat) (s : State) : Out :=
  .next (if s.mayGate core then s.setPower core .entering else s)
/-- The array of a gated core has lost its contents: on a leader columns 0 to 127 of both accumulators, on a follower 128 to
255 (08 R182, 09 R214). What they hold is free, and unmarked (DESIGN CHOICE, log entry 19). -/
def Arr.gated (a : Arr) (side d : Nat) : Arr :=
  let lost (k : Nat) : Bool := k % 256 / 128 == side
  { a with
    acc := tabulate 0 65536 fun k => if lost k then Config.freeAcc d k else tblGet 0 a.acc k
    accPsn := a.accPsn.filter fun e => !lost e.1 }
/-- POWER_GATE_OFF (09 R214, R215): scratchpad, B-store and load map keep their contents; the L1 is left empty, and the
core's array loses what it held. -/
def execPowerGateOff (core : Nat) (s : State) : Out :=
  if (s.core core).power ≠ .entering then .next s
  else
    let s := s.modCore core fun x => { x with power := .gated, l1 := [], missQ := [] }
    .next (s.draw.setArr (core / 2) ((s.arr (core / 2)).gated (core % 2) s.draws))
/-- CORE_WAKE (09 R215): a wake message aborts an entry, or starts the exit. -/
def execCoreWake (core : Nat) (s : State) : Out :=
  match (s.core core).power with
  | .entering => .next (s.setPower core .active)
  | .gated => .next (s.setPower core .waking)
  | _ => .next s
/-- WAKE_EXIT_DONE (09 R215). -/
def execWakeExitDone (core : Nat) (s : State) : Out :=
  .next (if (s.core core).power = .waking then s.setPower core .active else s)

end Sys2Proof.Machine
end

