-- ==== Sys2Proof/Decode.lean ====
section
/-!
DEFINITION. The decoder and the encoder (11 R233 to R250). `candidate` reads the fields of the words as
the opcode map lays them out; `encode` writes an instruction's words, every reserved bit zero. `decode`
accepts words when the candidate is well formed and the words are exactly its encoding, so a nonzero
reserved field, an unassigned minor and a length that a minor does not list are all refused (11 R250).
A word is a Nat below 2^32.
-/
namespace Sys2Proof

/-- Why an encoding is refused (11 R245). -/
inductive DecodeErr
  /-- The bytes end before the instruction does. -/
  | truncated
  /-- Check 2: the major is reserved. -/
  | major
  /-- Check 2: the major does not have this length. -/
  | length
  /-- Check 2: the U bit is not allowed. -/
  | uniform
  /-- Check 4: an unassigned minor, an illegal code or register, or a nonzero reserved bit. -/
  | field
  deriving DecidableEq, Repr

/-- The fields of a base word in format R; the other formats regroup them (11 R233, R235). -/
structure Raw where
  len : Nat
  u : Nat
  maj : Nat
  a : Nat
  b : Nat
  c : Nat
  mn : Nat
  deriving DecidableEq, Repr

/-- The fields of a base word. -/
def rawOf (w : Nat) : Raw :=
  { len := w % 4, u := w / 4 % 2, maj := w / 8 % 64, a := w / 512 % 64, b := w / 32768 % 64,
    c := w / 2097152 % 64, mn := w / 134217728 % 32 }
/-- The base word of some fields. -/
def rawWord (len u maj a b c mn : Nat) : Nat :=
  len + 4 * u + 8 * maj + 512 * a + 32768 * b + 2097152 * c + 134217728 * mn

/-- The fields of extension word 1 (11 R238). -/
structure ExtW where
  ah : Nat
  bh : Nat
  ch : Nat
  d : Nat
  msel : Nat
  i : Nat
  minx : Nat
  deriving DecidableEq, Repr

/-- The fields of word 1. -/
def extOf (w : Nat) : ExtW :=
  { ah := w % 16, bh := w / 16 % 16, ch := w / 256 % 16, d := w / 4096 % 1024,
    msel := w / 4194304 % 8, i := w / 33554432 % 2, minx := w / 67108864 % 64 }
/-- Word 1 of some fields. -/
def extWord (ah bh ch d msel i minx : Nat) : Nat :=
  ah + 16 * bh + 256 * ch + 4096 * d + 4194304 * msel + 33554432 * i + 67108864 * minx

/-- How a major uses BASE.U (11 R234). -/
inductive USet | one | zero | both | any
  deriving DecidableEq, Repr

/-- Lengths (as LEN codes) and U setting of each assigned major, and of the minors of 0x27 and 0x2C
(11 R246). -/
def majorInfo (maj mn : Nat) : Option (List Nat × USet) :=
  match maj with
  | 0x01 => some ([0], .one)
  | 0x02 => some ([0, 1], .one)
  | 0x03 => some ([0, 1, 2], .one)
  | 0x04 => some ([0], .one)
  | 0x08 | 0x09 | 0x0B => some ([0, 2], .one)
  | 0x0A => some ([0, 1, 2], .one)
  | 0x10 | 0x11 | 0x12 | 0x13 | 0x18 | 0x19 | 0x1A | 0x1B | 0x1C | 0x1D | 0x20 =>
    some ([0, 2], .zero)
  | 0x14 => some ([0, 1, 2], .zero)
  | 0x23 => some ([0], .one)
  | 0x24 | 0x25 | 0x26 => some ([0, 1, 2], .both)
  | 0x27 => some ([0, 2], if mn = 0 then .zero else .both)
  | 0x28 => some ([2], .both)
  | 0x29 => some ([0], .any)
  | 0x2A | 0x2B => some ([0, 2], .one)
  | 0x2C => some ([0, 2], if mn % 16 = 0 then .zero else .one)
  | 0x30 => some ([3], .one)
  | 0x31 => some ([0, 2], .one)
  | 0x38 => some ([0], .one)
  | 0x39 => some ([3], .one)
  | 0x3A => some ([3], .zero)
  | 0x3B | 0x3C => some ([0], .one)
  | 0x3D => some ([0, 2], .one)
  | _ => none

/-- Words of an instruction by BASE.LEN (11 R233). -/
def lenWords (len : Nat) : Nat :=
  match len with
  | 0 => 1
  | 1 => 2
  | 2 => 3
  | _ => 5

/-- Check 2 of 11 R245: how many words the base word asks for, or why it is refused. -/
def baseLen (w : Nat) : Except DecodeErr Nat :=
  let r := rawOf w
  match majorInfo r.maj r.mn with
  | none => .error .major
  | some (ls, us) =>
    if ls.contains r.len then
      match us with
      | .one => if r.u = 1 then .ok (lenWords r.len) else .error .uniform
      | .zero => if r.u = 0 then .ok (lenWords r.len) else .error .uniform
      | .both => .ok (lenWords r.len)
      | .any => .ok (lenWords r.len)
    else .error .length

/-- The register that a field names. -/
def sReg (n : Nat) : SReg := Fin.ofNat 64 n
/-- The v register that a 10-bit field names. -/
def vReg (n : Nat) : VReg := Fin.ofNat 1024 n
/-- The mask register that a field names. -/
def mReg (n : Nat) : MReg := Fin.ofNat 8 n
/-- The k register that a field names. -/
def kReg (n : Nat) : KReg := Fin.ofNat 16 n
/-- A word as a literal. -/
def w32 (n : Nat) : W32 := BitVec.ofNat 32 n

/-- Size codes (11 R247). -/
def sizeOf (n : Nat) : Size :=
  match n with
  | 0 => .b
  | 1 => .h
  | 2 => .w
  | _ => .d
/-- Size codes (11 R247). -/
def sizeCode : Size → Nat
  | .b => 0
  | .h => 1
  | .w => 2
  | .d => 3
/-- Float type codes (11 R247). -/
def ftypeOf (n : Nat) : FType :=
  match n with
  | 0 => .s2
  | 1 => .h4
  | _ => .b4
/-- Float type codes (11 R247). -/
def ftypeCode : FType → Nat
  | .s2 => 0
  | .h4 => 1
  | .b4 => 2
/-- VFCVT type codes (11 R247). -/
def ctypeOf (n : Nat) : CType :=
  match n with
  | 0 => .s2
  | 1 => .h4
  | 2 => .b4
  | _ => .w
/-- VFCVT type codes (11 R247). -/
def ctypeCode : CType → Nat
  | .s2 => 0
  | .h4 => 1
  | .b4 => 2
  | .w => 3
/-- Scope codes (05 R93). -/
def scopeOf (n : Nat) : Scope :=
  match n with
  | 0 => .grp
  | 1 => .core
  | 2 => .clu
  | 3 => .die
  | 4 => .dev
  | _ => .fab
/-- Scope codes (05 R93). -/
def scopeCode : Scope → Nat
  | .grp => 0
  | .core => 1
  | .clu => 2
  | .die => 3
  | .dev => 4
  | .fab => 5
/-- Ordering codes (05 R105). -/
def ordOf (n : Nat) : Ord :=
  match n with
  | 0 => .rlx
  | 1 => .acq
  | 2 => .rel
  | _ => .ar
/-- Ordering codes (05 R105). -/
def ordCode : Ord → Nat
  | .rlx => 0
  | .acq => 1
  | .rel => 2
  | .ar => 3
/-- Condition codes (11 R249). -/
def condOf (n : Nat) : Cond :=
  match n with
  | 0 => .eq
  | 1 => .ne
  | 2 => .lt
  | 3 => .le
  | 4 => .gt
  | 5 => .ge
  | 6 => .ltu
  | _ => .leu
/-- Condition codes (11 R249). -/
def condCode : Cond → Nat
  | .eq => 0
  | .ne => 1
  | .lt => 2
  | .le => 3
  | .gt => 4
  | .ge => 5
  | .ltu => 6
  | .leu => 7
/-- Float condition codes (11 R249). -/
def fcondOf (n : Nat) : FCond :=
  match n with
  | 0 => .eq
  | 1 => .ne
  | 2 => .lt
  | 3 => .le
  | 4 => .gt
  | 5 => .ge
  | 6 => .ord
  | _ => .unord
/-- Float condition codes (11 R249). -/
def fcondCode : FCond → Nat
  | .eq => 0
  | .ne => 1
  | .lt => 2
  | .le => 3
  | .gt => 4
  | .ge => 5
  | .ord => 6
  | .unord => 7
/-- Mask condition codes (11 R249). -/
def mcondOf (n : Nat) : MCond :=
  match n with
  | 0 => .any
  | 1 => .all
  | 2 => .none
  | _ => .nall
/-- Mask condition codes (11 R249). -/
def mcondCode : MCond → Nat
  | .any => 0
  | .all => 1
  | .none => 2
  | .nall => 3
/-- Rounding mode codes (13 R289). -/
def rmodeOf (n : Nat) : RMode :=
  match n with
  | 0 => .near
  | 1 => .zero
  | 2 => .down
  | _ => .up
/-- Rounding mode codes (13 R289). -/
def rmodeCode : RMode → Nat
  | .near => 0
  | .zero => 1
  | .down => 2
  | .up => 3
/-- Combining operation codes (13 R298). -/
def redopOf (n : Nat) : RedOp :=
  match n with
  | 0 => .add
  | 1 => .adds
  | 2 => .min
  | 3 => .max
  | 4 => .minu
  | 5 => .maxu
  | 6 => .and
  | 7 => .or
  | 8 => .xor
  | 9 => .fadd
  | 10 => .fmin
  | _ => .fmax
/-- Combining operation codes (13 R298). -/
def redopCode : RedOp → Nat
  | .add => 0
  | .adds => 1
  | .min => 2
  | .max => 3
  | .minu => 4
  | .maxu => 5
  | .and => 6
  | .or => 7
  | .xor => 8
  | .fadd => 9
  | .fmin => 10
  | .fmax => 11
/-- Space codes (02 R31). -/
def spaceOf (n : Nat) : Space :=
  match n with
  | 0 => .global
  | 1 => .chip
  | 2 => .cluster
  | 3 => .core
  | _ => .lane
/-- Space codes (02 R31). -/
def spaceCode : Space → Nat
  | .global => 0
  | .chip => 1
  | .cluster => 2
  | .core => 3
  | .lane => 4
/-- Atomic size codes (11 R248). -/
def asizeOf (n : Nat) : ASize :=
  match n with
  | 0 => .w
  | _ => .d
/-- Atomic size codes (11 R248). -/
def asizeCode : ASize → Nat
  | .w => 0
  | .d => 1
/-- A bit as a Bool. -/
def bit (n : Nat) : Bool := n % 2 == 1
/-- A Bool as a bit. -/
def bitN (b : Bool) : Nat := if b then 1 else 0
/-- A clause's flag: 0 to 11, or 15 for none; 12 to 14 come back as other codes (11 R242). -/
def flagOf (n : Nat) : FlagSel := if h : n < 12 then some ⟨n, h⟩ else none
/-- The code of a clause's flag. -/
def flagCode : FlagSel → Nat
  | some f => f.val
  | none => 15

/-- A parameter word (11 R240): a marker, or a literal whose [31:30] the encoder writes 0. -/
def pwordOf (w : Nat) : PWord :=
  if w / 2 ^ 30 = 3 then .sub (sReg w) else .lit (BitVec.ofNat 30 w)
/-- The word of a parameter. -/
def pwordCode : PWord → Nat
  | .lit v => v.toNat
  | .sub n => 3 * 2 ^ 30 + n.val
/-- The parameter block of the words after the base word. -/
def pblockOf (ws : List Nat) : PBlock :=
  { p1 := pwordOf (ws.getD 0 0), p2 := pwordOf (ws.getD 1 0), p3 := pwordOf (ws.getD 2 0),
    p4 := pwordOf (ws.getD 3 0) }
/-- The words of a parameter block. -/
def pblockWords (p : PBlock) : List Nat :=
  [pwordCode p.p1, pwordCode p.p2, pwordCode p.p3, pwordCode p.p4]

/-- The fields of an instruction's words, each form's fields read leniently. -/
structure Flds where
  r : Raw
  e : ExtW
  ext : Bool
  /-- LIT of the two-word form, and IMM of the extended form. -/
  lit : Nat
  imm : Nat
  ws : List Nat
  deriving DecidableEq, Repr

/-- Word 1 is an extension word only in the three-word form. -/
def fldsOf (w : Nat) (ws : List Nat) : Flds :=
  let r := rawOf w
  { r := r, e := if r.len = 2 then extOf (ws.getD 0 0) else extOf 0, ext := r.len == 2,
    lit := ws.getD 0 0, imm := if r.len = 2 then ws.getD 1 0 else 0, ws := ws }

/-- v register of field A. -/
def Flds.va (x : Flds) : VReg := vReg (x.r.a + 64 * x.e.ah)
/-- v register of field B. -/
def Flds.vb (x : Flds) : VReg := vReg (x.r.b + 64 * x.e.bh)
/-- v register of field C. -/
def Flds.vc (x : Flds) : VReg := vReg (x.r.c + 64 * x.e.ch)
/-- Fourth v register: D, or A in one word (11 R238). -/
def Flds.vd (x : Flds) : VReg := if x.ext then vReg x.e.d else x.va
/-- s register of field A. -/
def Flds.sa (x : Flds) : SReg := sReg x.r.a
/-- s register of field B. -/
def Flds.sb (x : Flds) : SReg := sReg x.r.b
/-- s register of field C. -/
def Flds.sc (x : Flds) : SReg := sReg x.r.c
/-- The vector form. -/
def Flds.vf (x : Flds) : VForm := if x.ext then .ext (mReg x.e.msel) else .one
/-- Operand C of a vector instruction. -/
def Flds.cv (x : Flds) : VC := if x.ext && bit x.e.i then .imm (w32 x.imm) else .reg x.vc
/-- Operand C of XSHF and XROT. -/
def Flds.cx (x : Flds) : XC := if x.ext && bit x.e.i then .imm (w32 x.imm) else .reg x.sc
/-- Operand C of uniform arithmetic. -/
def Flds.cu (x : Flds) : UC :=
  if x.ext then if bit x.e.i then .imm (w32 x.imm) else .r3 x.sc else .r1 x.sc
/-- Operands of a memory access. -/
def Flds.mo (x : Flds) : MOpnd := if bit x.r.u then .u x.sa x.sb else .v x.va x.vb
/-- Displacement of format M. -/
def Flds.md (x : Flds) : Disp :=
  match x.r.len with
  | 0 => .d6 (Fin.ofNat 64 x.r.c)
  | 1 => .lit (w32 x.lit)
  | _ => .ext (w32 x.imm) (mReg x.e.msel)
/-- Displacement and mask of the other forms. -/
def Flds.df (x : Flds) : DForm := if x.ext then .ext (w32 x.imm) (mReg x.e.msel) else .one
/-- Address operand of PFG. -/
def Flds.po (x : Flds) : POpnd := if bit x.r.u then .u x.sb else .v x.vb
/-- Registers of ATOM. -/
def Flds.ao (x : Flds) : AOpnd :=
  if bit x.r.u then .u x.sa x.sb x.sc else .v x.va x.vb x.vc
/-- Registers of ACAS. -/
def Flds.co (x : Flds) : CasOpnd :=
  if bit x.r.u then .u x.sa x.sb x.sc (sReg x.e.d) else .v x.va x.vb x.vc (vReg x.e.d)
/-- Registers of RED. -/
def Flds.ro (x : Flds) : ROpnd := if bit x.r.u then .u x.sb x.sc else .v x.vb x.vc
/-- Small fields of an atomic (11 R248): MINX is ORD, SCOPE, SIZE. -/
def Flds.at (x : Flds) : AtomAttr :=
  { size := asizeOf (x.e.minx / 32), ord := ordOf (x.e.minx % 4),
    scope := scopeOf (x.e.minx / 4 % 8), imm := w32 x.imm, mask := mReg x.e.msel }
/-- The F bit of formats M and RF. -/
def Flds.f (x : Flds) : Bool := bit (x.r.mn / 16)
/-- SIZE or type: [28:27]. -/
def Flds.z (x : Flds) : Size := sizeOf (x.r.mn % 4)
/-- Float type: [28:27]. -/
def Flds.t (x : Flds) : FType := ftypeOf (x.r.mn % 4)
/-- The top three bits [31:29]. -/
def Flds.op (x : Flds) : Nat := x.r.mn / 4
/-- Position, length and X of a literal bit field (12 R269). -/
def Flds.bitf (x : Flds) : BitForm :=
  let l (n : Nat) (k : Fin 64 → Fin 128 → Bool → BitForm) :=
    k (Fin.ofNat 64 n) (Fin.ofNat 128 (n / 64)) (bit (n / 8192))
  if x.ext then if bit x.e.i then l x.imm .lit3 else .reg x.sc else l x.lit .lit2
/-- LEA's form (12 R268). -/
def Flds.leaf (x : Flds) : LeaForm :=
  if x.ext then .three (Fin.ofNat 64 x.imm) (BitVec.ofNat 24 (x.imm / 256)) (sReg x.e.d)
  else .two (Fin.ofNat 64 x.lit) (BitVec.ofNat 24 (x.lit / 256))
/-- SEL's form (12 R267). -/
def Flds.self (x : Flds) : SelForm :=
  if x.ext then
    if bit x.e.i then .extImm (w32 x.imm) (sReg x.e.d) else .ext x.sc (sReg x.e.d)
  else .one x.sc
/-- A Riddle instruction's completion object (16 R358). -/
def Flds.compl (x : Flds) : Compl :=
  match x.r.c % 4 with
  | 0 => .tok (kReg x.r.b)
  | 1 => .bar x.sb
  | _ => .cnt x.sb

/-- A list's element at an index, if there. -/
def nth {α : Type} (l : List α) (n : Nat) : Option α := l[n]?

/-- Majors 0x01 to 0x04: control flow. -/
def candControl (x : Flds) : Option Instr :=
  match x.r.maj, x.r.mn with
  | 0x01, _ =>
    some (.clause (BitVec.ofNat 12 (x.r.a + 64 * x.r.b)) (flagOf (x.r.c % 16))
      (flagOf (x.r.c / 16 + 4 * (x.r.mn % 4))) (bit (x.r.mn / 4)) (bit (x.r.mn / 8))
      (bit (x.r.mn / 16)))
  | 0x02, 0 => some (.br (w32 x.lit))
  | 0x02, 1 => some (.brc (condOf x.r.c) x.sa x.sb (w32 x.lit))
  | 0x02, 2 => some (.brm (mcondOf x.r.c) (mReg x.r.a) (w32 x.lit))
  | 0x02, 3 => some (.jmp x.sa)
  | 0x02, 4 => some (.call x.sa (w32 x.lit))
  | 0x02, 5 => some (.ret x.sa)
  | 0x03, 0 => some (.loop x.sa (w32 x.lit))
  | 0x03, 1 => some .exit
  | 0x03, 2 => some .yield
  | 0x03, 3 => some (.waitf (BitVec.ofNat 12 (x.r.a + 64 * x.r.b)))
  | 0x03, 4 =>
    match x.r.len with
    | 0 => some .nop
    | 1 => some (.nopTag (.lit (w32 x.lit)))
    | _ => some (.nopTag .three)
  | 0x04, 0 => some (.trap (BitVec.ofNat 12 (x.r.a + 64 * x.r.b)))
  | 0x04, 1 => some .tret
  | 0x04, 2 => some .bkpt
  | _, _ => none
/-- Majors 0x08 to 0x0B, 0x23 and 0x3C: uniform arithmetic, masks, system registers. -/
def candUniform (x : Flds) : Option Instr :=
  match x.r.maj, x.r.mn with
  | 0x08, 0 => some (.add x.sa x.sb x.cu)
  | 0x08, 1 => some (.sub x.sa x.sb x.cu)
  | 0x08, 2 => some (.mull x.sa x.sb x.cu)
  | 0x08, 3 => some (.mulh false x.sa x.sb x.cu)
  | 0x08, 4 => some (.div false x.sa x.sb x.cu)
  | 0x08, 5 => some (.rem false x.sa x.sb x.cu)
  | 0x08, 6 => some (.min false x.sa x.sb x.cu)
  | 0x08, 7 => some (.max false x.sa x.sb x.cu)
  | 0x08, 19 => some (.mulh true x.sa x.sb x.cu)
  | 0x08, 20 => some (.div true x.sa x.sb x.cu)
  | 0x08, 21 => some (.rem true x.sa x.sb x.cu)
  | 0x08, 22 => some (.min true x.sa x.sb x.cu)
  | 0x08, 23 => some (.max true x.sa x.sb x.cu)
  | 0x09, 0 => some (.and x.sa x.sb x.cu)
  | 0x09, 1 => some (.or x.sa x.sb x.cu)
  | 0x09, 2 => some (.xor x.sa x.sb x.cu)
  | 0x09, 3 => some (.shl x.sa x.sb x.cu)
  | 0x09, 4 => some (.shr x.sa x.sb x.cu)
  | 0x09, 5 => some (.shra x.sa x.sb x.cu)
  | 0x09, 6 => some (.rot x.sa x.sb x.cu)
  | 0x09, 7 => some (.clz x.ext x.sa x.sb)
  | 0x09, 8 => some (.popc x.ext x.sa x.sb)
  | 0x0A, 0 =>
    some (if x.ext && bit x.e.i then .movImm x.sa (w32 x.imm) else .mov x.ext x.sa x.sb)
  | 0x0A, 1 =>
    some (if x.ext then .moviQ x.sa (BitVec.ofNat 64 (x.lit + 2 ^ 32 * x.imm))
      else .movi x.sa (w32 x.lit))
  | 0x0A, 2 => some (.addi x.sa x.sb (w32 x.lit))
  | 0x0A, 3 => some (.sel x.sa x.sb x.self)
  | 0x0A, 4 => some (.lea x.sa x.sb x.sc x.leaf)
  | 0x0A, 5 => some (.bext x.sa x.sb x.bitf)
  | 0x0A, 6 => some (.bins x.sa x.sb x.bitf)
  | 0x0B, mn => some (.setc (condOf (mn / 4)) x.sa x.sb x.cu)
  | 0x23, 0 => some (.mset (mReg x.r.a) x.sb)
  | 0x23, 1 => some (.mand (mReg x.r.a) (mReg x.r.b) (mReg x.r.c))
  | 0x23, 2 => some (.mor (mReg x.r.a) (mReg x.r.b) (mReg x.r.c))
  | 0x23, 3 => some (.mxor (mReg x.r.a) (mReg x.r.b) (mReg x.r.c))
  | 0x23, 4 => some (.mnot (mReg x.r.a) (mReg x.r.b))
  | 0x23, 5 => some (.mpop x.sa (mReg x.r.b))
  | 0x23, 6 => some (.mfirst x.sa (mReg x.r.b))
  | 0x23, 7 => some (.mmov x.sa (mReg x.r.b))
  | 0x3C, mn =>
    let n := BitVec.ofNat 15 (x.r.b + 64 * x.r.c + 4096 * (mn % 8))
    match mn / 8 with
    | 0 => some (.csrrd x.sa n)
    | 1 => some (.csrwr x.sa n)
    | _ => none
  | _, _ => none

/-- Majors 0x10 to 0x14: vector integer arithmetic and moves. -/
def candVec (x : Flds) : Option Instr :=
  match x.r.maj, x.op with
  | 0x10, 0 => some (.vadd x.z x.vf x.va x.vb x.cv)
  | 0x10, 1 => some (.vsub x.z x.vf x.va x.vb x.cv)
  | 0x10, 2 => some (.vadds x.z x.vf x.va x.vb x.cv)
  | 0x10, 3 => some (.vsubs x.z x.vf x.va x.vb x.cv)
  | 0x10, 4 => some (.vmul x.z x.vf x.va x.vb x.cv)
  | 0x10, 5 => some (.vmulh x.z x.vf x.va x.vb x.cv)
  | 0x10, 6 => some (.vmad x.z x.vf x.va x.vb x.cv x.vd)
  | 0x10, _ => some (.vneg x.z x.vf x.va x.vb)
  | 0x11, 0 => some (.vand x.z x.vf x.va x.vb x.cv)
  | 0x11, 1 => some (.vor x.z x.vf x.va x.vb x.cv)
  | 0x11, 2 => some (.vxor x.z x.vf x.va x.vb x.cv)
  | 0x11, 3 => some (.vnot x.z x.vf x.va x.vb)
  | 0x11, 4 => some (.vshl x.z x.vf x.va x.vb x.cv)
  | 0x11, 5 => some (.vshr x.z x.vf x.va x.vb x.cv)
  | 0x11, 6 => some (.vshra x.z x.vf x.va x.vb x.cv)
  | 0x11, _ => some (.vclz x.z x.vf x.va x.vb)
  | 0x12, 0 => some (.vmin x.z x.vf x.va x.vb x.cv)
  | 0x12, 1 => some (.vmax x.z x.vf x.va x.vb x.cv)
  | 0x12, 2 => some (.vminU x.z x.vf x.va x.vb x.cv)
  | 0x12, 3 => some (.vmaxU x.z x.vf x.va x.vb x.cv)
  | 0x12, 4 => some (.vabs x.z x.vf x.va x.vb)
  | 0x12, 5 => some (.vabss x.z x.vf x.va x.vb)
  | 0x12, 6 => some (.vpopc x.z x.vf x.va x.vb)
  | 0x13, o => some (.vcmp (condOf o) x.z x.vf (mReg x.r.a) x.vb x.cv)
  | 0x14, 0 =>
    some (if x.ext && bit x.e.i then .vmovImm x.z (mReg x.e.msel) x.va (w32 x.imm)
      else .vmov x.z x.vf x.va x.vb)
  | 0x14, 1 =>
    some (if x.ext then .vmoviQ (vReg x.r.a) (BitVec.ofNat 64 (x.lit + 2 ^ 32 * x.imm))
      else .vmovi x.z (vReg x.r.a) (w32 x.lit))
  | 0x14, 2 => some (.vbcast x.z x.vf x.va x.sb)
  | 0x14, 3 => some (.vexts x.z x.vf x.va x.vb (Fin.ofNat 64 x.r.c))
  | 0x14, 4 => some (.vpack x.z x.vf x.va x.vb x.cv)
  | 0x14, 5 => some (.vunpk x.z x.vf x.va x.vb (bit x.r.c))
  | 0x14, 6 => some (.vsel x.z x.vf x.va x.vb x.cv x.vd)
  | _, _ => none
/-- Majors 0x18 to 0x20: float, quantise, random and cross-thread instructions. -/
def candFloat (x : Flds) : Option Instr :=
  match x.r.maj, x.op with
  | 0x18, 0 => some (.vfadd x.t x.vf x.va x.vb x.cv)
  | 0x18, 1 => some (.vfsub x.t x.vf x.va x.vb x.cv)
  | 0x18, 2 => some (.vfmul x.t x.vf x.va x.vb x.cv)
  | 0x18, 3 => some (.vfma x.t x.vf x.va x.vb x.cv x.vd)
  | 0x18, 4 => some (.vfmin x.t x.vf x.va x.vb x.cv)
  | 0x18, 5 => some (.vfmax x.t x.vf x.va x.vb x.cv)
  | 0x18, 6 => some (.vfabs x.t x.vf x.va x.vb)
  | 0x18, _ => some (.vfneg x.t x.vf x.va x.vb)
  | 0x19, 0 => some (.vfrcp x.t x.vf x.va x.vb)
  | 0x19, 1 => some (.vfrsq x.t x.vf x.va x.vb)
  | 0x19, 2 => some (.vfsqrt x.t x.vf x.va x.vb)
  | 0x19, 3 => some (.vfdiv x.t x.vf x.va x.vb x.cv)
  | 0x19, 4 => some (.vfexp2 x.t x.vf x.va x.vb)
  | 0x19, 5 => some (.vflog2 x.t x.vf x.va x.vb)
  | 0x19, 6 => some (.vfrnd x.t x.vf x.va x.vb (rmodeOf x.r.c))
  | 0x19, _ => some (.vfclass x.t x.vf x.va x.vb)
  | 0x1A, o => some (.vfcmp (fcondOf o) x.t x.vf (mReg x.r.a) x.vb x.cv)
  | 0x1B, o =>
    some (.vfcvt (ctypeOf o) (ctypeOf (x.r.mn % 4)) x.vf x.va x.vb (bit x.r.c)
      (rmodeOf (x.r.c / 2)))
  | 0x1C, 0 => some (.vqnt x.t x.vf x.va x.vb x.cv)
  | 0x1C, 1 => some (.vdqnt x.t x.vf x.va x.vb x.cv)
  | 0x1C, 2 => some (.vdith x.t x.vf x.va x.vb x.sc)
  | 0x1C, 3 => some (.vscale x.t x.vf x.va x.vb x.sc)
  | 0x1D, 0 => some (.vrand x.z x.vf x.va x.sb)
  | 0x20, 0 => some (.xsel x.z x.vf x.va x.vb x.cv)
  | 0x20, 1 => some (.xshf x.z x.vf x.va x.vb x.cx)
  | 0x20, 2 => some (.xrot x.z x.vf x.va x.vb x.cx)
  | 0x20, 3 => some (.xbfly x.z x.vf x.va x.vb (Fin.ofNat 8 x.r.c))
  | 0x20, 4 => some (.xred (redopOf x.r.c) x.z x.vf x.va x.vb)
  | 0x20, 5 => some (.xscan (redopOf (x.r.c % 16)) (bit (x.r.c / 16)) x.z x.vf x.va x.vb)
  | 0x20, 6 => some (.xbal x.z x.vf (mReg x.r.a) x.vb)
  | _, _ => none
/-- Majors 0x24 to 0x27: loads, stores, STQ, PFG, SPTEST and SPCAST. -/
def candMem (x : Flds) : Option Instr :=
  match x.r.maj, x.r.mn / 4 % 4 with
  | 0x24, 0 => some (.ld x.z x.mo x.md x.f)
  | 0x24, 1 => some (.st x.z x.mo x.md)
  | 0x24, 2 => some (.ldg x.z x.mo x.md x.f)
  | 0x24, _ => some (.stg x.z x.mo x.md)
  | 0x25, 0 => some (.lds x.z x.mo x.md x.f)
  | 0x25, 1 => some (.sts x.z x.mo x.md)
  | 0x25, 2 => some (.ldc x.z x.mo x.md x.f)
  | 0x25, _ => some (.stc x.z x.mo x.md)
  | 0x26, 0 => some (.ldl x.z x.mo x.md x.f)
  | 0x26, 1 => some (.stl x.z x.mo x.md)
  | 0x26, 2 => some (.ldx x.z x.mo x.md x.f)
  | 0x26, _ => some (.stx x.z x.mo x.md)
  | 0x27, _ =>
    match x.r.mn with
    | 0 => some (if x.ext then .stqCoord (mReg x.e.msel) x.va x.vb x.sc (vReg x.e.d) (w32 x.imm)
        else .stq x.va x.vb x.sc)
    | 1 => some (if x.r.a % 4 = 0 then .pfg x.po x.df else .pfgLlc x.po x.df)
    | 2 => some (.sptest x.mo x.vf)
    | 3 => some (.spcastG x.mo x.vf (spaceOf x.r.c))
    | 4 => some (.spcastS x.mo x.vf (spaceOf x.r.c))
    | _ => none
  | _, _ => none
/-- Majors 0x28 to 0x2C: atomics, fences, barriers, counters and tasks. -/
def candSync (x : Flds) : Option Instr :=
  match x.r.maj, x.r.mn % 16 with
  | 0x28, 0 => some (.atomAdd x.ao x.at x.f)
  | 0x28, 1 => some (.atomAnd x.ao x.at x.f)
  | 0x28, 2 => some (.atomOr x.ao x.at x.f)
  | 0x28, 3 => some (.atomXor x.ao x.at x.f)
  | 0x28, 4 => some (.atomMin x.ao x.at x.f)
  | 0x28, 5 => some (.atomMax x.ao x.at x.f)
  | 0x28, 6 => some (.atomXchg x.ao x.at x.f)
  | 0x28, 7 => some (.atomIncwrap x.ao x.at x.f)
  | 0x28, 8 => some (.atomFadd x.ao x.at x.f)
  | 0x28, 9 => some (.acas x.co x.at x.f)
  | 0x28, 10 => some (.redAdd x.ro x.at)
  | 0x28, 11 => some (.redFadd x.ro x.at)
  | 0x28, 12 => some (.redMin x.ro x.at)
  | 0x28, 13 => some (.redMax x.ro x.at)
  | 0x29, 0 => some (.fence (scopeOf x.r.c) (kReg x.r.a))
  | 0x29, 1 => some (.fwait (kReg x.r.a))
  | 0x29, 2 => some (.phase (scopeOf x.r.c))
  | 0x29, 3 => some (.acq (scopeOf x.r.c))
  | 0x29, 4 => some (.rel (scopeOf x.r.c))
  | 0x2A, 0 => some (.bararv (scopeOf x.r.c) x.sa x.sb x.df)
  | 0x2A, 1 => some (.bararvDrop (scopeOf x.r.c) x.sa x.sb x.df)
  | 0x2A, 2 => some (.bararvJoin (scopeOf x.r.c) x.sa x.sb x.df)
  | 0x2A, 3 => some (.bararvFz (scopeOf x.r.c) x.sa x.sb x.df)
  | 0x2A, 4 => some (.barexp x.sb x.sc x.df)
  | 0x2A, 5 => some (.barwait (bit (x.r.c / 8)) (scopeOf (x.r.c % 8)) x.sa x.sb x.df)
  | 0x2A, 6 => some (.bartest (scopeOf x.r.c) x.sa x.sb x.df)
  | 0x2B, 0 => some (.cntwait x.sa x.sb x.sc x.df)
  | 0x2B, 1 => some (.cnttest x.sa x.sb x.sc x.df)
  | 0x2C, 0 => some (.tspawn x.f x.vf x.va x.vb)
  | 0x2C, 1 => some (.tclaim x.f x.sa x.sb x.df)
  | 0x2C, 2 => some (.tclaimClu x.f x.sa x.sb x.df)
  | 0x2C, 3 => some (.tclaimw x.f x.sa x.ext)
  | 0x2C, 4 => some (.tdone x.ext)
  | 0x2C, 5 => some (.launch x.sb x.df)
  | 0x2C, 6 => some (.evset x.sb x.sc x.ext)
  | _, _ => none
/-- Majors 0x30 to 0x3B and 0x3D: matrix, engines, sections and system. -/
def candUnits (x : Flds) : Option Instr :=
  match x.r.maj, x.r.mn with
  | 0x30, _ => some (.mma (pblockOf x.ws))
  | 0x31, 0 => some (.mzero (Fin.ofNat 2 x.r.a) x.ext)
  | 0x31, 1 => some (.mdrain false x.sa x.sb x.sc x.df)
  | 0x31, 17 => some (.mdrain true x.sa x.sb x.sc x.df)
  | 0x31, 2 => some (.mloadc x.sb x.sc x.df)
  | 0x31, 3 => some (if bit x.r.c then .mstatIdle false x.sa x.ext else .mstat false x.sa x.ext)
  | 0x31, 19 => some (if bit x.r.c then .mstatIdle true x.sa x.ext else .mstat true x.sa x.ext)
  | 0x31, 4 => some (.mfreeze x.ext)
  | 0x31, 5 => some (.mthaw x.ext)
  | 0x38, 0 => some (.kick x.sb)
  | 0x38, 1 => some .equiesce
  | 0x39, 0 => some (.gather x.sa x.compl (bit (x.r.c / 4)) (pblockOf x.ws))
  | 0x39, 1 => some (.scatter x.sa x.compl (bit (x.r.c / 4)) (pblockOf x.ws))
  | 0x39, 2 => some (.scatadd x.sa x.compl (bit (x.r.c / 4)) (pblockOf x.ws))
  | 0x39, 3 => some (.mcst x.sa x.compl (pblockOf x.ws))
  | 0x3A, 0 =>
    some (.ship x.sa (kReg (x.r.b % 16)) (Fin.ofNat 7 (x.r.b / 16 + 4 * (x.r.c % 2)))
      (Fin.ofNat 5 (x.r.c / 2 % 8)) (pblockOf x.ws))
  | 0x3B, 0 => some .sret
  | 0x3B, 1 => some (.waittok (kReg x.r.a))
  | 0x3B, 2 => some (.toktest x.sa (kReg x.r.b))
  | 0x3D, 0 =>
    some (.tlbinv x.sb (if x.ext then .imm (w32 x.imm) else .reg x.sc))
  | 0x3D, 1 => some .l1wb
  | 0x3D, 2 => some .l1inv
  | 0x3D, 3 => some (.pmark (BitVec.ofNat 12 (x.r.a + 64 * x.r.b)))
  | 0x3D, 4 => some (.snaptrig (BitVec.ofNat 8 (x.r.a + 64 * x.r.b)))
  | _, _ => none

/-- The instruction whose fields the words hold, by major. -/
def candidate (w : Nat) (ws : List Nat) : Option Instr :=
  let x := fldsOf w ws
  let m := x.r.maj
  if m < 0x08 then candControl x
  else if m < 0x10 ∨ m = 0x23 ∨ m = 0x3C then candUniform x
  else if m < 0x18 then candVec x
  else if m < 0x24 then candFloat x
  else if m < 0x28 then candMem x
  else if m < 0x30 then candSync x
  else candUnits x

/-- A one-word instruction of format R. -/
def e1 (u maj a b c mn : Nat) : List Nat := [rawWord 0 u maj a b c mn]
/-- A two-word instruction. -/
def e2 (u maj a b c mn lit : Nat) : List Nat := [rawWord 1 u maj a b c mn, lit]
/-- An extended instruction; the register fields are 10 bits wide (11 R238). -/
def e3 (u maj a b c mn d msel i minx imm : Nat) : List Nat :=
  [rawWord 2 u maj (a % 64) (b % 64) (c % 64) mn, extWord (a / 64) (b / 64) (c / 64) d msel i minx,
   imm]
/-- Uniform arithmetic with second operand c (12 R265). -/
def eU (maj mn : Nat) (a b : SReg) (c : UC) : List Nat :=
  match c with
  | .r1 c => e1 1 maj a.val b.val c.val mn
  | .r3 c => e3 1 maj a.val b.val c.val mn 0 0 0 0 0
  | .imm v => e3 1 maj a.val b.val 0 mn 0 0 1 0 v.toNat
/-- A uniform instruction whose extended form holds nothing more. -/
def eUX (maj a b c mn : Nat) (ext : Bool) : List Nat :=
  if ext then e3 1 maj a b c mn 0 0 0 0 0 else e1 1 maj a b c mn
/-- A uniform instruction with an address and a displacement. -/
def eUD (maj a b c mn : Nat) (f : DForm) : List Nat :=
  match f with
  | .one => e1 1 maj a b c mn
  | .ext v m => e3 1 maj a b c mn 0 m.val 0 0 v.toNat
/-- A vector instruction with a C field that is no v register. -/
def eVX (maj mn : Nat) (f : VForm) (a b c : Nat) : List Nat :=
  match f with
  | .one => e1 0 maj a b c mn
  | .ext m => e3 0 maj a b c mn 0 m.val 0 0 0
/-- A vector instruction with a v register or an immediate in C, and a fourth register d. -/
def eV (maj mn : Nat) (f : VForm) (a b : Nat) (c : VC) (d : Nat) : List Nat :=
  match f, c with
  | .one, .reg c => e1 0 maj a b c.val mn
  | .one, .imm _ => e1 0 maj a b 0 mn
  | .ext m, .reg c => e3 0 maj a b c.val mn d m.val 0 0 0
  | .ext m, .imm v => e3 0 maj a b 0 mn d m.val 1 0 v.toNat
/-- XSHF and XROT. -/
def eXC (maj mn : Nat) (f : VForm) (a b : Nat) (c : XC) : List Nat :=
  match f, c with
  | .one, .reg c => e1 0 maj a b c.val mn
  | .one, .imm _ => e1 0 maj a b 0 mn
  | .ext m, .reg c => e3 0 maj a b c.val mn 0 m.val 0 0 0
  | .ext m, .imm v => e3 0 maj a b 0 mn 0 m.val 1 0 v.toNat
/-- Format M (11 R235, R241). -/
def eM (maj op : Nat) (z : Size) (o : MOpnd) (d : Disp) (f : Bool) : List Nat :=
  let mn := sizeCode z + 4 * op + 16 * bitN f
  let go (u a b : Nat) :=
    match d with
    | .d6 n => e1 u maj a b n.val mn
    | .lit v => e2 u maj a b 0 mn v.toNat
    | .ext v m => e3 u maj a b 0 mn 0 m.val 0 0 v.toNat
  match o with
  | .u a b => go 1 a.val b.val
  | .v a b => go 0 a.val b.val
/-- SPTEST and SPCAST. -/
def eSp (mn : Nat) (o : MOpnd) (f : VForm) (c : Nat) : List Nat :=
  let go (u a b : Nat) :=
    match f with
    | .one => e1 u 0x27 a b c mn
    | .ext m => e3 u 0x27 a b c mn 0 m.val 0 0 0
  match o with
  | .u a b => go 1 a.val b.val
  | .v a b => go 0 a.val b.val
/-- PFG. -/
def ePfg (a : Nat) (o : POpnd) (f : DForm) : List Nat :=
  let go (u b : Nat) :=
    match f with
    | .one => e1 u 0x27 a b 0 1
    | .ext v m => e3 u 0x27 a b 0 1 0 m.val 0 0 v.toNat
  match o with
  | .u b => go 1 b.val
  | .v b => go 0 b.val
/-- MINX of an atomic (11 R248). -/
def atomMinx (t : AtomAttr) : Nat := ordCode t.ord + 4 * scopeCode t.scope + 32 * asizeCode t.size
/-- An atomic (11 R248). -/
def eAt (op u a b c d : Nat) (t : AtomAttr) (f : Bool) : List Nat :=
  e3 u 0x28 a b c (op + 16 * bitN f) d t.mask.val 0 (atomMinx t) t.imm.toNat
/-- ATOM. -/
def eAtom (op : Nat) (o : AOpnd) (t : AtomAttr) (f : Bool) : List Nat :=
  match o with
  | .u a b c => eAt op 1 a.val b.val c.val 0 t f
  | .v a b c => eAt op 0 a.val b.val c.val 0 t f
/-- RED. -/
def eRed (op : Nat) (o : ROpnd) (t : AtomAttr) : List Nat :=
  match o with
  | .u b c => eAt op 1 0 b.val c.val 0 t false
  | .v b c => eAt op 0 0 b.val c.val 0 t false
/-- A bit field (12 R269). -/
def eBit (mn : Nat) (a b : SReg) (f : BitForm) : List Nat :=
  let l (p : Fin 64) (n : Fin 128) (x : Bool) := p.val + 64 * n.val + 8192 * bitN x
  match f with
  | .lit2 p n x => e2 1 0x0A a.val b.val 0 mn (l p n x)
  | .lit3 p n x => e3 1 0x0A a.val b.val 0 mn 0 0 1 0 (l p n x)
  | .reg c => e3 1 0x0A a.val b.val c.val mn 0 0 0 0 0
/-- A Riddle instruction (16 R358). -/
def eRid (mn : Nat) (a : SReg) (co : Compl) (tr : Bool) (p : PBlock) : List Nat :=
  let w (b ck : Nat) := rawWord 3 1 0x39 a.val b (ck + 4 * bitN tr) mn :: pblockWords p
  match co with
  | .tok k => w k.val 0
  | .bar s => w s.val 1
  | .cnt s => w s.val 2

/-- The words of an instruction, from the encoding tables (11 R233 to R249 and the instruction's own
chapter). An event has none. -/
def encode : Instr → List Nat
  | .clause w fa fb h l s =>
    e1 1 0x01 (w.toNat % 64) (w.toNat / 64) (flagCode fa + 16 * (flagCode fb % 4))
      (flagCode fb / 4 + 4 * bitN h + 8 * bitN l + 16 * bitN s)
  | .br o => e2 1 0x02 0 0 0 0 o.toNat
  | .brc q a b o => e2 1 0x02 a.val b.val (condCode q) 1 o.toNat
  | .brm q a o => e2 1 0x02 a.val 0 (mcondCode q) 2 o.toNat
  | .jmp a => e1 1 0x02 a.val 0 0 3
  | .call a o => e2 1 0x02 a.val 0 0 4 o.toNat
  | .ret a => e1 1 0x02 a.val 0 0 5
  | .loop a o => e2 1 0x03 a.val 0 0 0 o.toNat
  | .exit => e1 1 0x03 0 0 0 1
  | .yield => e1 1 0x03 0 0 0 2
  | .waitf m => e1 1 0x03 (m.toNat % 64) (m.toNat / 64) 0 3
  | .nop => e1 1 0x03 0 0 0 4
  | .nopTag (.lit v) => e2 1 0x03 0 0 0 4 v.toNat
  | .nopTag .three => e3 1 0x03 0 0 0 4 0 0 0 0 0
  | .trap c => e1 1 0x04 (c.toNat % 64) (c.toNat / 64) 0 0
  | .tret => e1 1 0x04 0 0 0 1
  | .bkpt => e1 1 0x04 0 0 0 2
  | .add a b c => eU 0x08 0 a b c
  | .sub a b c => eU 0x08 1 a b c
  | .mull a b c => eU 0x08 2 a b c
  | .mulh u a b c => eU 0x08 (3 + 16 * bitN u) a b c
  | .div u a b c => eU 0x08 (4 + 16 * bitN u) a b c
  | .rem u a b c => eU 0x08 (5 + 16 * bitN u) a b c
  | .min u a b c => eU 0x08 (6 + 16 * bitN u) a b c
  | .max u a b c => eU 0x08 (7 + 16 * bitN u) a b c
  | .and a b c => eU 0x09 0 a b c
  | .or a b c => eU 0x09 1 a b c
  | .xor a b c => eU 0x09 2 a b c
  | .shl a b c => eU 0x09 3 a b c
  | .shr a b c => eU 0x09 4 a b c
  | .shra a b c => eU 0x09 5 a b c
  | .rot a b c => eU 0x09 6 a b c
  | .clz x a b => eUX 0x09 a.val b.val 0 7 x
  | .popc x a b => eUX 0x09 a.val b.val 0 8 x
  | .mov x a b => eUX 0x0A a.val b.val 0 0 x
  | .movImm a v => e3 1 0x0A a.val 0 0 0 0 0 1 0 v.toNat
  | .movi a v => e2 1 0x0A a.val 0 0 1 v.toNat
  | .moviQ a v => [rawWord 2 1 0x0A a.val 0 0 1, v.toNat % 2 ^ 32, v.toNat / 2 ^ 32]
  | .addi a b v => e2 1 0x0A a.val b.val 0 2 v.toNat
  | .sel a b (.one c) => e1 1 0x0A a.val b.val c.val 3
  | .sel a b (.ext c d) => e3 1 0x0A a.val b.val c.val 3 d.val 0 0 0 0
  | .sel a b (.extImm v d) => e3 1 0x0A a.val b.val 0 3 d.val 0 1 0 v.toNat
  | .lea a b c (.two s p) => e2 1 0x0A a.val b.val c.val 4 (s.val + 256 * p.toNat)
  | .lea a b c (.three s p d) =>
    e3 1 0x0A a.val b.val c.val 4 d.val 0 0 0 (s.val + 256 * p.toNat)
  | .bext a b f => eBit 5 a b f
  | .bins a b f => eBit 6 a b f
  | .setc q a b c => eU 0x0B (4 * condCode q) a b c
  | .mset a b => e1 1 0x23 a.val b.val 0 0
  | .mand a b c => e1 1 0x23 a.val b.val c.val 1
  | .mor a b c => e1 1 0x23 a.val b.val c.val 2
  | .mxor a b c => e1 1 0x23 a.val b.val c.val 3
  | .mnot a b => e1 1 0x23 a.val b.val 0 4
  | .mpop a b => e1 1 0x23 a.val b.val 0 5
  | .mfirst a b => e1 1 0x23 a.val b.val 0 6
  | .mmov a b => e1 1 0x23 a.val b.val 0 7
  | .csrrd a n => e1 1 0x3C a.val (n.toNat % 64) (n.toNat / 64 % 64) (n.toNat / 4096)
  | .csrwr a n => e1 1 0x3C a.val (n.toNat % 64) (n.toNat / 64 % 64) (n.toNat / 4096 + 8)
  | .vadd z f a b c => eV 0x10 (sizeCode z) f a.val b.val c 0
  | .vsub z f a b c => eV 0x10 (4 + sizeCode z) f a.val b.val c 0
  | .vadds z f a b c => eV 0x10 (8 + sizeCode z) f a.val b.val c 0
  | .vsubs z f a b c => eV 0x10 (12 + sizeCode z) f a.val b.val c 0
  | .vmul z f a b c => eV 0x10 (16 + sizeCode z) f a.val b.val c 0
  | .vmulh z f a b c => eV 0x10 (20 + sizeCode z) f a.val b.val c 0
  | .vmad z f a b c d => eV 0x10 (24 + sizeCode z) f a.val b.val c d.val
  | .vneg z f a b => eVX 0x10 (28 + sizeCode z) f a.val b.val 0
  | .vand z f a b c => eV 0x11 (sizeCode z) f a.val b.val c 0
  | .vor z f a b c => eV 0x11 (4 + sizeCode z) f a.val b.val c 0
  | .vxor z f a b c => eV 0x11 (8 + sizeCode z) f a.val b.val c 0
  | .vnot z f a b => eVX 0x11 (12 + sizeCode z) f a.val b.val 0
  | .vshl z f a b c => eV 0x11 (16 + sizeCode z) f a.val b.val c 0
  | .vshr z f a b c => eV 0x11 (20 + sizeCode z) f a.val b.val c 0
  | .vshra z f a b c => eV 0x11 (24 + sizeCode z) f a.val b.val c 0
  | .vclz z f a b => eVX 0x11 (28 + sizeCode z) f a.val b.val 0
  | .vmin z f a b c => eV 0x12 (sizeCode z) f a.val b.val c 0
  | .vmax z f a b c => eV 0x12 (4 + sizeCode z) f a.val b.val c 0
  | .vminU z f a b c => eV 0x12 (8 + sizeCode z) f a.val b.val c 0
  | .vmaxU z f a b c => eV 0x12 (12 + sizeCode z) f a.val b.val c 0
  | .vabs z f a b => eVX 0x12 (16 + sizeCode z) f a.val b.val 0
  | .vabss z f a b => eVX 0x12 (20 + sizeCode z) f a.val b.val 0
  | .vpopc z f a b => eVX 0x12 (24 + sizeCode z) f a.val b.val 0
  | .vcmp q z f a b c => eV 0x13 (4 * condCode q + sizeCode z) f a.val b.val c 0
  | .vmov z f a b => eVX 0x14 (sizeCode z) f a.val b.val 0
  | .vmovImm z m a v => e3 0 0x14 a.val 0 0 (sizeCode z) 0 m.val 1 0 v.toNat
  | .vmovi z a v => e2 0 0x14 a.val 0 0 (4 + sizeCode z) v.toNat
  | .vmoviQ a v => [rawWord 2 0 0x14 a.val 0 0 7, v.toNat % 2 ^ 32, v.toNat / 2 ^ 32]
  | .vbcast z f a b => eVX 0x14 (8 + sizeCode z) f a.val b.val 0
  | .vexts z f a b n => eVX 0x14 (12 + sizeCode z) f a.val b.val n.val
  | .vpack z f a b c => eV 0x14 (16 + sizeCode z) f a.val b.val c 0
  | .vunpk z f a b h => eVX 0x14 (20 + sizeCode z) f a.val b.val (bitN h)
  | .vsel z f a b c d => eV 0x14 (24 + sizeCode z) f a.val b.val c d.val
  | .vfadd t f a b c => eV 0x18 (ftypeCode t) f a.val b.val c 0
  | .vfsub t f a b c => eV 0x18 (4 + ftypeCode t) f a.val b.val c 0
  | .vfmul t f a b c => eV 0x18 (8 + ftypeCode t) f a.val b.val c 0
  | .vfma t f a b c d => eV 0x18 (12 + ftypeCode t) f a.val b.val c d.val
  | .vfmin t f a b c => eV 0x18 (16 + ftypeCode t) f a.val b.val c 0
  | .vfmax t f a b c => eV 0x18 (20 + ftypeCode t) f a.val b.val c 0
  | .vfabs t f a b => eVX 0x18 (24 + ftypeCode t) f a.val b.val 0
  | .vfneg t f a b => eVX 0x18 (28 + ftypeCode t) f a.val b.val 0
  | .vfrcp t f a b => eVX 0x19 (ftypeCode t) f a.val b.val 0
  | .vfrsq t f a b => eVX 0x19 (4 + ftypeCode t) f a.val b.val 0
  | .vfsqrt t f a b => eVX 0x19 (8 + ftypeCode t) f a.val b.val 0
  | .vfdiv t f a b c => eV 0x19 (12 + ftypeCode t) f a.val b.val c 0
  | .vfexp2 t f a b => eVX 0x19 (16 + ftypeCode t) f a.val b.val 0
  | .vflog2 t f a b => eVX 0x19 (20 + ftypeCode t) f a.val b.val 0
  | .vfrnd t f a b m => eVX 0x19 (24 + ftypeCode t) f a.val b.val (rmodeCode m)
  | .vfclass t f a b => eVX 0x19 (28 + ftypeCode t) f a.val b.val 0
  | .vfcmp q t f a b c => eV 0x1A (4 * fcondCode q + ftypeCode t) f a.val b.val c 0
  | .vfcvt d s f a b h m =>
    eVX 0x1B (4 * ctypeCode d + ctypeCode s) f a.val b.val (bitN h + 2 * rmodeCode m)
  | .vqnt t f a b c => eV 0x1C (ftypeCode t) f a.val b.val c 0
  | .vdqnt t f a b c => eV 0x1C (4 + ftypeCode t) f a.val b.val c 0
  | .vdith t f a b c => eVX 0x1C (8 + ftypeCode t) f a.val b.val c.val
  | .vscale t f a b c => eVX 0x1C (12 + ftypeCode t) f a.val b.val c.val
  | .vrand z f a b => eVX 0x1D (sizeCode z) f a.val b.val 0
  | .xsel z f a b c => eV 0x20 (sizeCode z) f a.val b.val c 0
  | .xshf z f a b c => eXC 0x20 (4 + sizeCode z) f a.val b.val c
  | .xrot z f a b c => eXC 0x20 (8 + sizeCode z) f a.val b.val c
  | .xbfly z f a b p => eVX 0x20 (12 + sizeCode z) f a.val b.val p.val
  | .xred o z f a b => eVX 0x20 (16 + sizeCode z) f a.val b.val (redopCode o)
  | .xscan o x z f a b => eVX 0x20 (20 + sizeCode z) f a.val b.val (redopCode o + 16 * bitN x)
  | .xbal z f a b => eVX 0x20 (24 + sizeCode z) f a.val b.val 0
  | .ld z o d f => eM 0x24 0 z o d f
  | .st z o d => eM 0x24 1 z o d false
  | .ldg z o d f => eM 0x24 2 z o d f
  | .stg z o d => eM 0x24 3 z o d false
  | .lds z o d f => eM 0x25 0 z o d f
  | .sts z o d => eM 0x25 1 z o d false
  | .ldc z o d f => eM 0x25 2 z o d f
  | .stc z o d => eM 0x25 3 z o d false
  | .ldl z o d f => eM 0x26 0 z o d f
  | .stl z o d => eM 0x26 1 z o d false
  | .ldx z o d f => eM 0x26 2 z o d f
  | .stx z o d => eM 0x26 3 z o d false
  | .stq a b c => e1 0 0x27 a.val b.val c.val 0
  | .stqCoord m a b c d v => e3 0 0x27 a.val b.val c.val 0 d.val m.val 0 0 v.toNat
  | .pfg o f => ePfg 0 o f
  | .pfgLlc o f => ePfg 1 o f
  | .sptest o f => eSp 2 o f 0
  | .spcastG o f c => eSp 3 o f (spaceCode c)
  | .spcastS o f c => eSp 4 o f (spaceCode c)
  | .atomAdd o t f => eAtom 0 o t f
  | .atomAnd o t f => eAtom 1 o t f
  | .atomOr o t f => eAtom 2 o t f
  | .atomXor o t f => eAtom 3 o t f
  | .atomMin o t f => eAtom 4 o t f
  | .atomMax o t f => eAtom 5 o t f
  | .atomXchg o t f => eAtom 6 o t f
  | .atomIncwrap o t f => eAtom 7 o t f
  | .atomFadd o t f => eAtom 8 o t f
  | .acas (.u a b c d) t f => eAt 9 1 a.val b.val c.val d.val t f
  | .acas (.v a b c d) t f => eAt 9 0 a.val b.val c.val d.val t f
  | .redAdd o t => eRed 10 o t
  | .redFadd o t => eRed 11 o t
  | .redMin o t => eRed 12 o t
  | .redMax o t => eRed 13 o t
  | .fence s k => e1 1 0x29 k.val 0 (scopeCode s) 0
  | .fwait k => e1 1 0x29 k.val 0 0 1
  | .phase s => e1 1 0x29 0 0 (scopeCode s) 2
  | .acq s => e1 1 0x29 0 0 (scopeCode s) 3
  | .rel s => e1 1 0x29 0 0 (scopeCode s) 4
  | .bararv s a b f => eUD 0x2A a.val b.val (scopeCode s) 0 f
  | .bararvDrop s a b f => eUD 0x2A a.val b.val (scopeCode s) 1 f
  | .bararvJoin s a b f => eUD 0x2A a.val b.val (scopeCode s) 2 f
  | .bararvFz s a b f => eUD 0x2A a.val b.val (scopeCode s) 3 f
  | .barexp b c f => eUD 0x2A 0 b.val c.val 4 f
  | .barwait t s a b f => eUD 0x2A a.val b.val (scopeCode s + 8 * bitN t) 5 f
  | .bartest s a b f => eUD 0x2A a.val b.val (scopeCode s) 6 f
  | .cntwait a b c f => eUD 0x2B a.val b.val c.val 0 f
  | .cnttest a b c f => eUD 0x2B a.val b.val c.val 1 f
  | .tspawn f m a b => eVX 0x2C (16 * bitN f) m a.val b.val 0
  | .tclaim f a b d => eUD 0x2C a.val b.val 0 (1 + 16 * bitN f) d
  | .tclaimClu f a b d => eUD 0x2C a.val b.val 0 (2 + 16 * bitN f) d
  | .tclaimw f a x => eUX 0x2C a.val 0 0 (3 + 16 * bitN f) x
  | .tdone x => eUX 0x2C 0 0 0 4 x
  | .launch b d => eUD 0x2C 0 b.val 0 5 d
  | .evset b c x => eUX 0x2C 0 b.val c.val 6 x
  | .mma p => rawWord 3 1 0x30 0 0 0 0 :: pblockWords p
  | .mzero a x => eUX 0x31 a.val 0 0 0 x
  | .mdrain f a b c d => eUD 0x31 a.val b.val c.val (1 + 16 * bitN f) d
  | .mloadc b c d => eUD 0x31 0 b.val c.val 2 d
  | .mstat f a x => eUX 0x31 a.val 0 0 (3 + 16 * bitN f) x
  | .mstatIdle f a x => eUX 0x31 a.val 0 1 (3 + 16 * bitN f) x
  | .mfreeze x => eUX 0x31 0 0 0 4 x
  | .mthaw x => eUX 0x31 0 0 0 5 x
  | .kick b => e1 1 0x38 0 b.val 0 0
  | .equiesce => e1 1 0x38 0 0 0 1
  | .gather a co tr p => eRid 0 a co tr p
  | .scatter a co tr p => eRid 1 a co tr p
  | .scatadd a co tr p => eRid 2 a co tr p
  | .mcst a co p => eRid 3 a co false p
  | .ship e k na nr p =>
    rawWord 3 0 0x3A e.val (k.val + 16 * (na.val % 4)) (na.val / 4 + 2 * nr.val) 0 :: pblockWords p
  | .sret => e1 1 0x3B 0 0 0 0
  | .waittok k => e1 1 0x3B k.val 0 0 1
  | .toktest a k => e1 1 0x3B a.val k.val 0 2
  | .tlbinv b (.reg c) => e1 1 0x3D 0 b.val c.val 0
  | .tlbinv b (.imm v) => e3 1 0x3D 0 b.val 0 0 0 0 1 0 v.toNat
  | .l1wb => e1 1 0x3D 0 0 0 1
  | .l1inv => e1 1 0x3D 0 0 0 2
  | .pmark t => e1 1 0x3D (t.toNat % 64) (t.toNat / 64) 0 3
  | .snaptrig t => e1 1 0x3D (t.toNat % 64) (t.toNat / 64) 0 4
  | _ => []

/-- The words of an instruction of major 0x29 with U = 1: there the bit is ignored (11 R234). -/
def normU (w : Nat) : Nat :=
  let r := rawOf w
  if r.maj = 0x29 then rawWord r.len 1 r.maj r.a r.b r.c r.mn else w

/-- An instruction from its base word and its other words: checks 2 and 4 of 11 R245. -/
def decodeWords (w : Nat) (ws : List Nat) : Except DecodeErr Instr :=
  match baseLen w with
  | .error e => .error e
  | .ok n =>
    if ws.length + 1 = n then
      match candidate w ws with
      | none => .error .field
      | some i => if wellFormed i && encode i == normU w :: ws then .ok i else .error .field
    else .error .truncated

/-- The words of some bytes, least significant byte first (11 R233); a rest of less than four bytes
makes none. -/
def wordsOf : List Byte → List Nat
  | a :: b :: c :: d :: r =>
    (a.toNat + 256 * b.toNat + 65536 * c.toNat + 16777216 * d.toNat) :: wordsOf r
  | _ => []
/-- The bytes of a word. -/
def wordBytes (w : Nat) : List Byte :=
  [BitVec.ofNat 8 w, BitVec.ofNat 8 (w / 256), BitVec.ofNat 8 (w / 65536),
   BitVec.ofNat 8 (w / 16777216)]

/-- Decode the instruction at the head of some bytes; answer it and the bytes after it. -/
def decode (bs : List Byte) : Except DecodeErr (Instr × List Byte) :=
  match wordsOf bs with
  | [] => .error .truncated
  | w :: r =>
    match baseLen w with
    | .error e => .error e
    | .ok n =>
      match decodeWords w (r.take (n - 1)) with
      | .error e => .error e
      | .ok i => .ok (i, bs.drop (4 * n))

/-- How many words the instruction takes: what the pc moves by (11 R233). -/
def instrWords (i : Instr) : Nat := (encode i).length

/-- The first n words of a number, the least significant first. -/
def splitWords : Nat → Nat → List Nat
  | 0, _ => []
  | n + 1, w => w % 2 ^ 32 :: splitWords n (w / 2 ^ 32)
/-- The bytes of an instruction numbered as the opcode table numbers its bits: five words, those above
nbits zero. -/
def tableBytes (nbits w : Nat) : List Byte :=
  (splitWords 5 (w % 2 ^ nbits)).flatMap wordBytes

/-- The instruction the decoder reads from bits numbered as the opcode table numbers them. -/
def decodeTableWord (nbits w : Nat) : Option Instr :=
  match decode (tableBytes nbits w) with
  | .ok (i, _) => some i
  | .error _ => none

end Sys2Proof
end

