-- ==== Sys2Proof/Machine/Handler.lean ====
section
/-!
DEFINITION. The firmware's system handler at TVEC, as far as the spec fixes what it does (10 R219 to R221,
R230). Its instructions are not the machine's to show; it is one step of the group.
-/
namespace Sys2Proof.Machine

/-- The group is about to run the system handler. -/
def State.atFirmware (s : State) : Bool :=
  s.g.handler && decide (s.g.pc = s.sys.tvec) && !s.g.isSection
/-- The trap that the group's trap registers describe. -/
def Group.trapOf (g : Group) : TrapV :=
  { cause := field g.trapCause.toNat 0 8, addr := g.trapAddr, info := g.trapInfo,
    thread := field g.trapCause.toNat 8 8, fmask := (g.trapMask >>> 32).setWidth 32, pc := g.trapPc,
    resumable := !(field g.trapCause.toNat 0 8 == 0x30 && field g.trapInfo.toNat 0 1 == 1) }
/-- Any cause but PREEMPT: the user handler where there is one, else the group is suspended at TRAP_PC
and the host is told (10 R220, R221). -/
def State.forward (s : State) : State :=
  let g := s.g
  if g.utvec ≠ 0 then
    s.setG { (g.mSet 0 g.present) with handler := false, ufwd := true, pc := g.utvec, block := none }
  else s.faultRecord 0 g.trapOf

end Sys2Proof.Machine
end

