-- ==== Sys2Proof/Machine/Front.lean ====
section
/-!
DEFINITION. From the program counter to an instruction (11 R245 checks 1 to 4), the group that acts, and
the group that a table word is fetched by.
-/
namespace Sys2Proof.Machine

/-- What stands at the pc: an instruction, an encoding that raises ILLEGAL_INSTRUCTION, a fetch that
faults, or a word of a peer's line that is not held. -/
inductive Front
  | instr (i : Instr)
  | illegal
  | fault (cause : BitVec 8) (addr info : W64)
  | absent (line : Nat)
  deriving DecidableEq, Repr

/-- The words after a base word. -/
def fetchMore (s : State) : Nat → W64 → Except Fetched (List Nat)
  | 0, _ => .ok []
  | n + 1, a =>
    match fetchWord s a with
    | .word w =>
      match fetchMore s n (a + 4) with
      | .ok l => .ok (w.toNat :: l)
      | .error e => .error e
    | e => .error e
/-- A fetch that failed: its address is the faulting word's. -/
def fetchFault : Fetched → Front
  | .absent l => .absent l
  | .fail e => .fault (BitVec.ofNat 8 e.cause) e.addr e.info
  | .word _ => .illegal
/-- The instruction at the pc: the base word, its length, the other words, then the fields (11 R245). -/
def State.front (s : State) : Front :=
  match fetchWord s s.g.pc with
  | .word w =>
    match baseLen w.toNat with
    | .error _ => .illegal
    | .ok n =>
      match fetchMore s (n - 1) (s.g.pc + 4) with
      | .error e => fetchFault e
      | .ok ws =>
        match decodeWords w.toNat ws with
        | .ok i => .instr i
        | .error _ => .illegal
  | e => fetchFault e

/-- The first fetch of a launch, task or section must find a clause header (11 R243, 08 R187). (DEDUCED, log entry 29.) -/
def enterAt (s : State) (k : State → Out) : Out :=
  if !s.g.atEntry then k s
  else
    let a := s.g.pc
    if a.toNat % 4 ≠ 0 ∨ 2 ^ 63 ≤ a.toNat then s.raise 0x04 a 0
    else
      match fetchWord s a with
      | .absent l => (s.getLine (unitCode s.g.unit) l false).blockOn (.peer l)
      | .fail e => (s.dropFetched e.cause a).raise e.cause a e.info
      | .word w =>
        if (headerFlags w).isNone then s.raise 0x04 a 0 else k (s.setG { s.g with atEntry := false })
/-- Make the group of a unit the current one. -/
def State.focus (s : State) (u : UnitId) : Option State :=
  if s.g.live && decide (s.g.unit = u) then some s
  else
    match findFirst (fun g => g.live && decide (g.unit = u)) s.parked with
    | none => none
    | some g => some (s.swapTo g.gid)
/-- The group waits for a task, stands at a quantum end, or leaves there. A handler runs all the same. -/
def Group.parkedHere (g : Group) : Bool :=
  !g.handler && (decide (g.task = .idle) || (match g.det with
    | some d => d.atEnd || d.leaving
    | none => false))
/-- The group may issue. -/
def Group.mayIssue (g : Group) : Bool := g.live && g.suspended.isNone && !g.parkedHere
/-- Time passes: a step takes at least one cycle (12 R275; how many more is left open, 00 R459). (DESIGN CHOICE, log entry 51.) -/
def State.tick (s : State) : State :=
  { s with draws := s.draws + 1
           sys := { s.sys with cycle := s.sys.cycle + 1 + Config.freeCycles s.draws } }
/-- A deterministic group whose clock has reached a multiple of the quantum stops (06 R133). -/
def State.quantumCheck (s : State) (before : W64) : State :=
  match s.g.det with
  | none => s
  | some d =>
    if s.g.retired ≠ before && d.quant ≠ 0 && s.g.retired.toNat % d.quant == 0 then
      s.setG { s.g with det := some { d with atEnd := true }, block := some .quantum }
    else s

/-! ## A place to fetch from. -/

/-- Tables that map the first 2 MiB of offsets to physical memory at 2 MiB, all permissions: root at 0,
next tables at 0x4000 and 0x8000 (04 R69, R70). -/
def mapFirst (s : State) : State :=
  let put (s : State) (a e : Nat) : State := s.writeClean (cellsOf (span (keyPhys a) 8) (leBytes 8 e))
  put (put (put s 0 0x4001) 0x4000 0x8001) 0x8000 0x200067
/-- A group of context 0 on core 0, slot 0, all 32 threads, at offset 0x1000. -/
def Group.first (y : Sys) : Group :=
  { unit := .core 0 0, gid := 1, live := true, m := [(0, 0xFFFFFFFF)], pc := 0x1000, hdr := 0x1000,
    saveBase := Config.saveBaseOf y.boots, ngrp := 1, launch := 0,
    lvlCnt := [32, 1], producer := some 0 }
/-- The device with that group ready to issue. -/
def State.withFirst (s : State) : State :=
  let s := mapFirst s
  { s with
    g := Group.first s.sys, parked := [], nextId := Nat.max s.nextId 2
    sys := { s.sys with powered := true, boot := .running, bootStep := 5, tvec := Config.tvecOf s.sys.boots }
    ctxs := tblSet {} s.ctxs 0 { exists_ := true, gsize := 16 }
    cores := tblSet {} s.cores 0 { (s.core 0) with ctx := some 0, power := .active }
    arrays := tblSet {} s.arrays 0 { (s.arr 0) with holder := some 1 } }
/-- The locations of the 20 bytes at the pc, where they can be fetched. -/
def State.codeKeys (s : State) : Option (List Nat) :=
  if s.g.mayIssue && s.g.block.isNone && !s.atFirmware && s.sys.powered && !s.g.isSection &&
      decide ((s.core (unitCoreN s.g.unit)).power = .active) then
    match globKeys s s.who .fetch s.g.pc 20 with
    | .ok ks => some ks
    | .error _ => none
  else none
/-- An instruction where the next step fetches: at the pc of the current group if it can issue there, else at the
pc of a first group of context 0, which this installs as the dispatcher would have placed it (DESIGN CHOICE, log entry 14). -/
def State.placeWord (s : State) (nbits w : Nat) : State :=
  let bs := tableBytes nbits w
  let put (s : State) (ks : List Nat) : State :=
    { s.writeClean (cellsOf ks bs) with sched := [.unit s.g.unit] }
  match s.codeKeys with
  | some ks => put s ks
  | none => put s.withFirst (span (keyPhys 0x201000) 20)

end Sys2Proof.Machine
end

