-- ==== Sys2Proof/Machine/Matrix.lean ====
section
/-!
DEFINITION. The matrix instructions (15 R329 to R345).
-/
namespace Sys2Proof.Machine

/-- PRIVILEGE's TRAP_INFO for a group that is not its pair's matrix group (15 R329). -/
def State.matrixPriv (s : State) : Option W64 := if s.isMatrix then none else some 2
/-- A matrix instruction that the array takes at rest (15 R330). -/
def atRest (s : State) (k : State → Out) : Out := k (s.runArray s.pair)

/-! ## MMA (15 R332 to R337). -/

/-- Reasons 6 to 8 for one operand's frame (15 R334). -/
def mmaFrameRows (S : Nat) (off : W64) (opnd : Nat) (fr : List W32) (rows K : Nat) : Except Fail Unit :=
  if (upTo rows).any (frameRowBad S fr) then .error (frameFail off opnd 6)
  else if opnd = 0 then
    if (upTo rows).any (fun i => frameScaleBad S fr i 0) then .error (frameFail off opnd 7) else .ok ()
  else if field (frScale fr) 12 8 ≠ 0 ∨ 4096 < frScale fr + K / frL fr then .error (frameFail off opnd 8)
  else .ok ()
/-- One operand's frame checks, in order (07 R153). -/
def mmaFrame (pc : W64) (S off opnd fmt kcode rows K : Nat) (fr : List W32) : Except Fail Unit :=
  let o := BitVec.ofNat 64 off
  match frameHead pc S o opnd fr with
  | .error e => .error e
  | .ok _ =>
    match frameSame o opnd fmt (some kcode) fr with
    | .error e => .error e
    | .ok _ => mmaFrameRows S o opnd fr rows K
/-- The checks of an MMA, in order (15 R334). -/
def mmaCheck (pc : W64) (S : Nat) (x : Mma) : Except Fail Unit :=
  if 3 < x.afmt then .error (formatFail pc x.afmt 0)
  else if 3 < x.bfmt then .error (formatFail pc x.bfmt 1)
  else
    match mmaFrame pc S x.aoffFrame 0 x.afmt x.kcode x.rows x.K x.aframe with
    | .error e => .error e
    | .ok _ =>
      match mmaFrame pc S x.boffFrame 1 x.bfmt x.kcode x.K x.K x.bframe with
      | .error e => .error e
      | .ok _ =>
        let a := portMax x.afmt (frDith x.aframe)
        let b := portMax x.bfmt (frDith x.bframe)
        if x.aoff % 8 ≠ 0 then .error ⟨0x05, BitVec.ofNat 64 x.aoff, 8⟩
        else if S < x.aoff + x.rows * x.rb then
          .error ⟨0x0C, BitVec.ofNat 64 x.aoff, BitVec.ofNat 64 S⟩
        else if 61440 < x.boff + qRunBytes x.bfmt x.K then .error ⟨0x0C, BitVec.ofNat 64 x.boff, 61440⟩
        else if !residueOk x.K x.afmt x.bfmt (frDith x.aframe) (frDith x.bframe) then
          .error ⟨0x10, pc, BitVec.ofNat 64 (a + 2 ^ 16 * b + 2 ^ 32 * x.K)⟩
        else .ok ()
/-- Read the frames that the parameter words name, where they lie below S. -/
def mmaFrames (s : State) (lead : Nat) (p : List W32) : Mma :=
  let x : Mma := { p := p, aframe := [], bframe := [], aidx := [], bidx := [], ascale := [], bscale := []
                   arowPsn := [], bcolPsn := [] }
  { x with aframe := frameAt s lead x.aoffFrame, bframe := frameAt s lead x.boffFrame }
/-- Location of B's scale for column n (07 R152). -/
def Mma.bScaleKey (x : Mma) (lead n : Nat) : Nat :=
  keyB (lead + n / 128) (n % 128) (61440 + frScale x.bframe)
/-- Latch the index entries and scales (07 R154, 15 R335), and which scales are poisoned. -/
def Mma.latch (x : Mma) (s : State) (lead : Nat) : Mma :=
  let used (n : Nat) : Bool := decide (x.cols.1 ≤ n) && decide (n < x.cols.1 + x.cols.2)
  { x with
    aidx := if frIdx x.aframe then (upTo x.rows).map (frameIndexAt s lead x.aframe) else []
    bidx := if frIdx x.bframe then (upTo x.K).map (frameIndexAt s lead x.bframe) else []
    ascale := (upTo x.rows).map fun i => frameScaleByte s lead x.aframe i 0
    bscale := (upTo 256).map fun n => if used n then s.byte (x.bScaleKey lead n) else 0
    arowPsn := (upTo x.rows).filter fun i => s.psn (keyCore lead (frScaleAt x.aframe i 0))
    bcolPsn := (upTo 256).filter fun n => used n && s.psn (x.bScaleKey lead n) }
/-- A frame record or an index entry of the MMA is poisoned: the offset that names its frame. (DEDUCED, log entry 41.) -/
def Mma.framePsn (x : Mma) (s : State) (lead : Nat) : Option Nat :=
  let idx (fr : List W32) (n : Nat) : List Nat :=
    if frIdx fr then span (keyCore lead (frIndex fr)) (4 * n) else []
  if s.anyPsn (span (keyCore lead x.aoffFrame) 32 ++ idx x.aframe x.rows) then some x.aoffFrame
  else if s.anyPsn (span (keyCore lead x.boffFrame) 32 ++ idx x.bframe x.K) then some x.boffFrame
  else none
/-- MMA (15 R332 to R336): accepted when the streaming stage is free, then its substitution and checks, then
it latches and streams. -/
def execMma (p : PBlock) (s : State) : Out :=
  uniform s s.matrixPriv (some 0x17) (pbUses p) fun s =>
    let s := s.freeStream s.pair
    if (s.arr s.pair).stream.isSome then s.blockOn .array
    else if !(pbFits s.g p && wfMma (pbLit s.g p)) then s.illegal 0
    else
      ownBanks s fun s =>
        let lead := unitCoreN s.g.unit
        let x := mmaFrames s lead (pbVals s.g p)
        match mmaCheck s.g.pc (spaceSize s s.who .core) x with
        | .error e => s.raise e.cause e.addr e.info
        | .ok _ =>
          match x.framePsn s lead with
          | some o => s.raise 0x30 (BitVec.ofNat 64 o) 0
          | none =>
            let m := x.latch s lead
            let s := s.setArr s.pair { s.arr s.pair with stream := some m, kdone := 0, res := [] }
            .next (s.retire 5)

/-! ## MZERO (15 R339). -/

/-- Every element of an accumulator to +0, its marks cleared. -/
def Arr.zero (a : Arr) (n : Nat) : Arr :=
  { a with
    acc := a.acc.filter fun e => e.1 / 32768 != n
    accPsn := a.accPsn.filter fun e => e.1 / 32768 != n }
/-- MZERO (15 R339). -/
def execMzero (n : AccReg) (ext : Bool) (s : State) : Out :=
  uniform s s.matrixPriv (some 0x17) [] fun s => atRest s fun s =>
    .next ((s.setArr s.pair ((s.arr s.pair).zero n.val)).retire (extWords ext))

/-! ## Images (15 R340 to R342, 10 R228). -/

/-- MSEL of a selector value. -/
structure MSel where
  img : Nat
  col0 : Nat
  ncol : Nat
  row0 : Nat
  nrow : Nat
  deriving DecidableEq, Repr
/-- Read a selector (15 R340). -/
def mselOf (v : W64) : MSel :=
  let n := v.toNat
  let h := field n 2 2
  let r := field n 4 7
  { img := field n 0 2, col0 := if h = 2 then 128 else 0, ncol := if h = 1 ∨ h = 2 then 128 else 256
    row0 := r, nrow := Nat.min 127 (r + field n 11 7) - r + 1 }
/-- Bytes of an element of the image. -/
def MSel.e (m : MSel) : Nat := if m.img = 2 then 8 else 4
/-- Bytes of the region. -/
def MSel.n (m : MSel) : Nat := if m.img = 3 then 1024 else m.nrow * m.ncol * m.e
/-- The element that byte b of the region belongs to: 256 r + c. -/
def MSel.elem (m : MSel) (b : Nat) : Nat :=
  256 * (m.row0 + b / m.e / m.ncol) + m.col0 + b / m.e % m.ncol
/-- The issue image: MSTATE, a handle to what was latched, the parameter words and both frames; the format is
the model's (10 R228, DESIGN CHOICE, log entry 15). -/
def issueImage (a : Arr) (handle : Nat) : List Byte :=
  let w (l : List W32) (n : Nat) : List Byte := (upTo n).flatMap fun j => leBytes 4 (l.getD j 0).toNat
  let head := match a.stream with
    | some x =>
      if a.frozen then
        leBytes 8 a.status ++ leBytes 8 handle ++ w x.p 4 ++ w x.aframe 8 ++ w x.bframe 8
      else leBytes 8 0
    | none => leBytes 8 0
  head ++ List.replicate (1024 - head.length) 0
/-- Byte b of a region and whether its word is to be poisoned (15 R337, R341). -/
def Arr.imageByte (a : Arr) (m : MSel) (b : Nat) : Byte × Bool :=
  let k := m.elem b
  if m.img = 2 then
    if a.frozen then
      let bad := match a.stream with
        | some x => x.computes (k / 256) (k % 256) &&
            (x.arowPsn.contains (k / 256) || x.bcolPsn.contains (k % 256))
        | none => false
      (BitVec.ofNat 8 ((tblGet 0 a.res k).toNat / 2 ^ (8 * (b % 8))), bad)
    else (0, false)
  else
    let k := 32768 * m.img + k
    (BitVec.ofNat 8 ((tblGet 0 a.acc k).toNat / 2 ^ (8 * (b % 4))),
      tblGet false a.accPsn (k / 2 * 2) || tblGet false a.accPsn (k / 2 * 2 + 1))
/-- The bytes of a region. -/
def Arr.imageBytes (a : Arr) (m : MSel) (handle : Nat) : List (Byte × Bool) :=
  if m.img = 3 then (issueImage a handle).map fun b => (b, false)
  else (List.range m.n).map (a.imageByte m)
/-- Store a long run of bytes as the current group, some of them poisoned (15 R341). -/
def State.storeRun (s : State) (acc : Acc) (l : List (Byte × Bool)) : State :=
  let cells := acc.keys.zip l
  let clean := cells.filterMap fun c => if c.2.2 then none else some (c.1, c.2.1)
  let bad := cells.filterMap fun c => if c.2.2 then some (c.1, c.2.1) else none
  if acc.glob then (s.storePriv clean false).storePriv bad true
  else (s.writeClean clean).writePoisoned bad
/-- The access of MDRAIN or MLOADC (15 R340). -/
def imageAcc (s : State) (k : Kind) (a : W64) (m : MSel) : Except Fail Acc :=
  windowAcc s s.who k bulkWindow a m.n 8
/-- MDRAIN (15 R341). -/
def execMdrain (f : Bool) (a b c : SReg) (d : DForm) (s : State) : Out :=
  uniform s s.matrixPriv (some 0x17) [useS a, useS b, useS c] fun s => atRest s fun s =>
    let m := mselOf (s.g.sGet c)
    let ea := objEa s.g b d
    withAcc s (imageAcc s .store ea m) fun acc =>
      atObject s (if acc.glob then [] else acc.keys) fun s => withFlag s f fun s flag =>
        let x := s.arr s.pair
        let s := (s.settle acc.keys).fillTlbs [(ea, acc)]
        let h := s.images.length
        let s := match x.stream with
          | some y => if m.img = 3 ∧ x.frozen then { s with images := s.images ++ [y] } else s
          | none => s
        let s := if !acc.glob && s.cutAny s.g.unit acc.keys then
            s.lostWrite (unitDie s s.g.unit) acc.place.key ea
          else s.storeRun acc (x.imageBytes m h)
        .next ((s.result flag ea [(.s a.val, BitVec.ofNat 64 m.n, false)]).retire (dWords d))
/-- The MMA that an issue image describes (10 R228): its words and frames, and what its handle kept. -/
def imageMma (s : State) (bs : List Byte) : Mma :=
  let w (o n : Nat) : List W32 := (upTo n).map fun j => BitVec.ofNat 32 (leNat ((bs.drop (o + 4 * j)).take 4))
  let kept := s.images.getD (leNat ((bs.drop 8).take 8))
    { p := [], aframe := [], bframe := [], aidx := [], bidx := [], ascale := [], bscale := []
      arowPsn := [], bcolPsn := [] }
  { kept with p := w 16 4, aframe := w 32 8, bframe := w 64 8 }
/-- The array after loading an issue image (15 R342). -/
def Arr.loadIssue (a : Arr) (x : Mma) (st : Nat) (handler : Bool) : Arr :=
  if st / 2 ^ 9 % 2 = 0 then { a with stream := none, kdone := 0, frozen := false, manual := false }
  else
    let manual := st / 2 ^ 10 % 2 == 1
    { a with stream := some x, kdone := st % 2 ^ 9, frozen := manual || handler, manual := manual }
/-- The array after loading a region of accumulators or residues (15 R342). -/
def Arr.loadRegion (a : Arr) (m : MSel) (bs : List Byte) : Arr :=
  let word (k : Nat) : Nat := leNat ((bs.drop k).take m.e)
  let els := (List.range (m.nrow * m.ncol)).map fun j => (m.elem (m.e * j), word (m.e * j))
  if m.img = 2 then
    { a with res := tblSetMany 0 a.res (els.map fun e =>
        let r := unpackRes (BitVec.ofNat 64 e.2)
        (e.1, packRes (r.1 % 2047, r.2.1 % 2048, r.2.2 % 2049))) }
  else
    { a with
      acc := tblSetMany 0 a.acc (els.map fun e => (32768 * m.img + e.1, BitVec.ofNat 32 e.2))
      accPsn := tblSetMany false a.accPsn (els.map fun e => (32768 * m.img + e.1, false)) }
/-- MLOADC (15 R342). -/
def execMloadc (b c : SReg) (d : DForm) (s : State) : Out :=
  uniform s s.matrixPriv (some 0x17) [useS b, useS c] fun s => atRest s fun s =>
    let m := mselOf (s.g.sGet c)
    let ea := objEa s.g b d
    withAcc s (imageAcc s .load ea m) fun acc => ownBanks s fun s =>
      let load (s : State) : Out :=
        let r := (s.fillTlbs [(ea, acc)]).load acc
        let bs := r.2.map (·.b)
        if gotPsn r.2 then r.1.raise 0x30 ea 0
        else
          let s := r.1
          let x := imageMma s bs
          let st := leNat (bs.take 8)
          let put (s : State) (y : Arr) : Out := .next ((s.setArr s.pair y).retire (dWords d))
          if m.img ≠ 3 then put s ((s.arr s.pair).loadRegion m bs)
          else if st / 2 ^ 9 % 2 = 0 then put s ((s.arr s.pair).loadIssue x st s.g.handler)
          else
            match mmaCheck s.g.pc (spaceSize s s.who .core) x with
            | .error e => s.raise e.cause e.addr e.info
            | .ok _ => put s ((s.arr s.pair).loadIssue x st s.g.handler)
      if acc.glob then accWait s acc.keys load else atObject s acc.keys load

/-! ## Status, freeze and thaw (15 R343, R344). -/

/-- MSTAT's value. -/
def State.mstat (s : State) : W64 :=
  let a := s.arr s.pair
  BitVec.ofNat 64 (a.status + if a.stream.isSome then 2 ^ 15 else 0)
/-- Give MSTAT's result. -/
def mstatResult (f : Bool) (a : SReg) (ext : Bool) (s : State) : Out :=
  withFlag s f fun s flag =>
    .next ((s.result flag 0 [(.s a.val, s.mstat, false)]).retire (extWords ext))
/-- MSTAT (15 R343). -/
def execMstat (f : Bool) (a : SReg) (ext : Bool) (s : State) : Out :=
  uniform s s.matrixPriv (some 0x17) [useS a] (mstatResult f a ext)
/-- MSTAT.idle (15 R343). -/
def execMstatIdle (f : Bool) (a : SReg) (ext : Bool) (s : State) : Out :=
  uniform s s.matrixPriv (some 0x17) [useS a] fun s => atRest s (mstatResult f a ext)
/-- MFREEZE (15 R344): a streaming MMA goes on to its next step boundary, and freezes there. -/
def execMfreeze (ext : Bool) (s : State) : Out :=
  uniform s s.matrixPriv (some 0x17) [] fun s =>
    let a := s.arr s.pair
    let s := if a.stream.isSome && !a.frozen then s.setArr s.pair { a with freezing := true }
      else if a.frozen && s.g.handler then s.setArr s.pair { a with manual := true }
      else s
    .next (s.retire (extWords ext))
/-- MTHAW (15 R344). -/
def execMthaw (ext : Bool) (s : State) : Out :=
  uniform s s.matrixPriv (some 0x17) [] fun s =>
    let a := s.arr s.pair
    let s := if a.frozen && a.manual then s.setArr s.pair { a with manual := false, frozen := s.g.handler } else s
    .next (s.retire (extWords ext))

end Sys2Proof.Machine
end

