-- ==== Sys2Proof/Machine/EvPreempt.lean ====
section
/-!
DEFINITION. Pre-emption, saving and restoring a context (02 R42, 10 R226 to R232). The save area's layout is the
firmware's; the model keeps a saved context in the Stoker's lists (DESIGN CHOICE, log entry 20).
-/
namespace Sys2Proof.Machine

/-- PREEMPT_SIGNAL (10 R226): every group of a context on some pairs is to take PREEMPT. -/
def execPreemptSignal (ctx : Nat) (pairs : List Nat) (s : State) : Out :=
  .next (s.modGroups (fun g => g.ctx == ctx && (match unitCore g.unit with
    | some c => pairs.contains (c / 2)
    | none => false)) fun g => { g with preempting := true })
/-- The instruction at the pc keeps PREEMPT away until it is over: an arrival that is not yet applied, or EXIT's
waits (10 R226). -/
def State.holdsPreempt (s : State) : Bool :=
  let blocked := match s.g.block with
    | none | some .turn => false
    | some _ => true
  let leaving := match s.g.det with
    | some d => d.leaving
    | none => false
  leaving || s.syncPend.isSome || (blocked && (match s.front with
    | .instr (.bararv _ _ _ _) | .instr (.bararvDrop _ _ _ _) | .instr (.bararvJoin _ _ _ _) => true
    | .instr .exit | .instr (.tdone _) => s.taskLaunch.isNone
    | _ => false))
/-- PREEMPT_TRAP (10 R226). -/
def execPreemptTrap (u : UnitId) (s : State) : Out :=
  asUnit u (fun s =>
    if !s.g.preempting || s.g.handler || s.g.suspended.isSome || s.holdsPreempt then .next s
    else s.entering fun s => .next (s.trap { cause := 0x20, pc := s.g.pc })) s

/-! ## Saving (10 R230, R231). -/

/-- Everything of a group that its own handler writes to the save area: s, m and k registers, the v registers below nv, the
lane-private window, the trap registers (10 R230). The flags are clear. The order is the model's (DESIGN CHOICE, log entry
20). -/
def State.regImage (s : State) (g : Group) : List (Byte × Bool) :=
  let w (n : Nat) (v : Nat) : List (Byte × Bool) := (leBytes n v).map fun b => (b, false)
  let lanes := (upTo 32).flatMap fun t => (upTo g.W).map (keyLane g.gid t)
  ((upTo 64).flatMap fun r => w 8 (tblGet 0 g.s r).toNat) ++ ((upTo 16).flatMap fun r => w 4 (tblGet 0 g.m r).toNat) ++
  ((upTo 16).flatMap fun r => w 8 (g.kGet r).status.toNat) ++
  ((upTo (32 * g.nv)).flatMap fun r => w 8 (tblGet 0 g.v r).toNat) ++ (lanes.map fun k => (s.byte k, s.psn k)) ++
  ([g.trapCause, g.trapPc, g.trapAddr, g.trapInfo, g.trapMask, g.trapHdr, g.save0, g.save1, g.utvec].flatMap fun v =>
    w 8 v.toNat)
/-- The four images of a pair, as its matrix group drains them: the accumulators, and of a frozen MMA the residue tile and
the issue image (10 R228, R230). -/
def State.arrayImages (s : State) : List (Byte × Bool) :=
  let a := s.arr s.pair
  let img (n : Nat) : List (Byte × Bool) :=
    a.imageBytes { img := n, col0 := 0, ncol := 256, row0 := 0, nrow := 128 } s.images.length
  if s.isMatrix then img 0 ++ img 1 ++ (if a.frozen then img 2 ++ img 3 else []) else []
/-- The scratchpad image of a core, which its last group writes (10 R230). -/
def State.coreImage (s : State) (c : Nat) : List (Byte × Bool) :=
  (upTo 786432).map fun a => (s.byte (keyCore c a), s.psn (keyCore c a))
/-- The group writes to its part of the save area, at SAVEBASE and an offset that the firmware chooses; the bytes are private
(10 R230). A page that is not mapped takes none (DESIGN CHOICE, log entry 20). -/
def State.saveArea (s : State) (c : Nat) (last : Bool) : State :=
  let l := s.regImage s.g ++ s.arrayImages ++ (if last then s.coreImage c else [])
  match globKeys s s.who .store (s.g.saveBase + Config.freeSaveAt c (unitSlot s.g.unit)) l.length with
  | .ok ks => s.storeRun ⟨true, ks⟩ l
  | .error _ => s
/-- The handler's part of saving a pre-empted group, once no token of it is pending (10 R230). An MMA whose steps are done
retires; one that is not stays frozen (10 R227). -/
def saveGroup (s : State) : Out :=
  let s := s.finishFences.writeback
  let c := unitCoreN s.g.unit
  if !s.engQuiet c || !s.g.fences.isEmpty || !s.g.loads.isEmpty || s.g.k.any (fun e => e.2.pending) then s.blockOn .drain
  else
    let s := ((s.forcePublish c).flushInvals.settleGroup s.g.gid).drainBanks c
    let s := if s.isMatrix then (s.freezeArray s.pair false).runArray s.pair else s
    let s := s.saveArea c (decide ((s.residents c).length ≤ 1))
    let g := s.g
    let s := s.setCtx g.ctx { s.ctx g.ctx with saved := (s.ctx g.ctx).saved ++ [{ g with block := none }] }
    .next ((s.setG Group.empty).saveLast g.ctx c)

/-! ## Restoring (10 R232, 02 R42). -/

/-- Where a restore puts a core. -/
def destOf (cores : List (Nat × Nat)) (c : Nat) : Option Nat :=
  (findFirst (fun e : Nat × Nat => e.1 == c) cores).map (·.2)
/-- A destination is fit for two saved cores together: a saved pair goes to one pair and another to another one, and the
cores of one cluster keep their order. -/
def pairFits (f : Fuse) (a b : Nat × Nat) : Bool :=
  (a.1 / 2 == b.1 / 2) == (a.2 / 2 == b.2 / 2) &&
  (f.clusterOf a.1 != f.clusterOf b.1 || decide (b.1 ≤ a.1) || decide (a.2 < b.2))
/-- A destination is fit for one saved core: a whole free pair, and with a carve-out a cluster of as many cores; while cores
of the saved one's cluster are not saved, it stays where it was, since they hold the cluster's other granules (02 R43, 10
R232). -/
def State.destFits (s : State) (ctx : Nat) (e : SavedCore) (d : Nat) : Bool :=
  let f := s.sys.fuse
  let k := f.clusterOf e.core
  let whole := (f.clusterCores k).all fun c => (s.ctx ctx).savedCores.any fun x => x.core == c
  decide (d < f.ncores) && d % 2 == e.core % 2 && (s.residents d).isEmpty && (s.residents (d / 2 * 2 + 1 - d % 2)).isEmpty &&
  !s.clusterTaken (f.clusterOf d) ctx e.carve &&
  (e.carve == 0 || (f.clusterLive (f.clusterOf d) == f.clusterLive k && (whole || d == e.core)))
/-- With a carve-out, the cores of one cluster go to one cluster together (03 R51). -/
def clusterFits (f : Fuse) (l : List SavedCore) (cores : List (Nat × Nat)) : Bool :=
  l.all fun a => l.all fun b =>
    a.carve == 0 || f.clusterOf a.core != f.clusterOf b.core ||
      (destOf cores a.core).map f.clusterOf == (destOf cores b.core).map f.clusterOf
/-- A restore may take place: the saving has ended, every saved core has a destination, and the destinations fit (02 R42, 10
R232). -/
def State.restoreFits (s : State) (ctx : Nat) (cores : List (Nat × Nat)) : Bool :=
  let l := (s.ctx ctx).savedCores
  let used := l.filterMap fun e => (destOf cores e.core).map fun d => (e.core, d)
  !(s.ctx ctx).saved.isEmpty && !(s.ctx ctx).dead && !(s.groups.any fun g => g.ctx == ctx && g.unsaved) &&
  ((s.ctx ctx).saved.all fun g => l.any fun e => e.core == unitCoreN g.unit) &&
  l.all (fun e => match destOf cores e.core with
    | some d => s.destFits ctx e d
    | none => false) &&
  decide ((used.map (·.2)).eraseDups.length = used.length) &&
  used.all (fun a => used.all fun b => pairFits s.sys.fuse a b) && clusterFits s.sys.fuse l cores
/-- The plan of replaying a load-map entry on a core (03 R61). -/
def replayPlan (s : State) (ctx c : Nat) (e : MapEnt) : Plan :=
  let b : Issuer := { unit := .core c 0, gid := 0, ctx := ctx, launch := 0, team := 0, W := 0, gts := s.pclk }
  planAll ((List.range e.cols).map fun j =>
    planCopy s b (j * e.len) (e.src + BitVec.ofNat 64 (j * e.pitch.toNat)) (.bst (keyB c (e.col0 + j) e.off)) e.len)
/-- Replay a load map. -/
def State.replayMap (s : State) (ctx c : Nat) : List MapEnt → State
  | [] => s
  | e :: r =>
    let b : Issuer := { unit := .core c 0, gid := 0, ctx := ctx, launch := 0, team := 0, W := 0, gts := s.pclk }
    ((s.runPlan b (replayPlan s ctx c e)).1).replayMap ctx c r
/-- Something that the replay of a context's load maps waits for. -/
def State.restoreWaits (s : State) (ctx : Nat) (cores : List (Nat × Nat)) : Option (Option Nat) :=
  firstSome ((s.ctx ctx).savedCores.flatMap fun e => e.loadMap.map fun m =>
    s.planWaits (replayPlan s ctx ((destOf cores e.core).getD 0) m))
/-- An engine operation moves with its core. -/
def EngOp.moveTo (o : EngOp) (c : Nat) : EngOp :=
  { o with by_ := { o.by_ with unit := .core c (unitSlot o.by_.unit) } }
/-- Restore one core. -/
def State.restoreCore (s : State) (ctx : Nat) (e : SavedCore) (d : Nat) : State :=
  let s := (s.drainBanks d).clearCore d ctx
  let s := s.putBytes (e.scratch.map fun x => (keyCore d x.1, x.2))
  let s := foldL (fun s x => s.setPsn (keyCore d x) true) s e.scratchPsn
  let s := s.modCore d fun x => { x with
    carve := e.carve, loadMap := e.loadMap, engRun := e.parked.map fun o => o.moveTo d }
  let s := s.replayMap ctx d e.loadMap
  match e.arr with
  | some a => s.setArr (d / 2) a
  | none => s
/-- A group as it comes back: in its handler, which then returns. -/
def Group.comeBack (g : Group) (s : State) (d : Nat) : Group :=
  { g with
    unit := .core d (unitSlot g.unit), handler := true, pc := s.sys.tvec, restored := true, preempting := false
    gts := s.pclk, block := none, saveBase := (s.ctx g.ctx).saveBase }
/-- CONTEXT_RESTORE (10 R232): every saved core and group, to the cores given; a refused destination changes
nothing. -/
def execContextRestore (ctx : Nat) (cores : List (Nat × Nat)) (s : State) : Out :=
  if !s.restoreFits ctx cores then .next s
  else
    match s.restoreWaits ctx cores with
    | some (some l) => .next (s.getLine 0 l false)
    | some none => .next s
    | none =>
      let x := s.ctx ctx
      let s := foldL (fun s (e : SavedCore) => s.restoreCore ctx e ((destOf cores e.core).getD 0)) s x.savedCores
      let gs := x.saved.map fun g => g.comeBack s ((destOf cores (unitCoreN g.unit)).getD 0)
      let s := s.setCtx ctx { s.ctx ctx with saved := [], savedCores := [] }
      .next { s with parked := s.parked ++ gs }
/-- The firmware's handler: PREEMPT saves the group, or returns once it is restored; every other cause is
forwarded (10 R220, R221, R230, R232). -/
def firmwareStep (s : State) : Out :=
  if s.g.restored then
    match execTret s with
    | .next t => .next (if t.g.block.isSome then t else t.setG { t.g with restored := false })
    | r => r
  else if field s.g.trapCause.toNat 0 8 = 0x20 then saveGroup s
  else .next s.forward

end Sys2Proof.Machine
end

