-- ==== Sys2Proof/Machine/Replies.lean ====
section
/-!
DEFINITION. Requests of this device as their replies come in: owner cache, redirects, queries, order within a
page, and how a request ends (04 R80 to R82, R88; 06 R127, R130; 17 R380, R388; 16 R363, R364; 23 R446).
-/
namespace Sys2Proof.Machine

/-! ## Arrivals, holds and pages. -/

/-- Take a packet from the router's input, where it stands there. -/
def State.take (s : State) (p : Packet) : State :=
  { s with fab := { s.fab with outbox := dropFirst (fun q => decide (q = p)) s.fab.outbox } }
/-- Two requests of one device for one page (04 R88). -/
def sameOrder (p q : Packet) : Bool := decide (p.src = q.src) && samePage p q
/-- Refuse a request: its sender retries, and until it has, younger requests of its device for the page are refused too, so
that they do not go before it (04 R84, R88, 17 R378). -/
def State.refuse (s : State) (p : Packet) : State :=
  ({ s with own := { s.own with
    refused := (s.own.refused.filter fun q => decide (tagOf q ≠ tagOf p)) ++ [p] } }).replyStatus p 3
/-- An older request of the device for the page has been refused and has not come back. -/
def State.mustRefuse (s : State) (p : Packet) : Bool :=
  s.own.refused.any (sameOrder p) && !s.own.refused.any fun q => decide (tagOf q = tagOf p)
/-- A refused request is back; older ones that have not come back before it do not come any more. -/
def backOf (p : Packet) : List Packet → List Packet
  | [] => []
  | q :: r =>
    if tagOf q = tagOf p then r
    else if sameOrder p q && r.any (fun x => decide (tagOf x = tagOf p)) then backOf p r
    else q :: backOf p r
/-- A request that is not refused is taken in. -/
def State.takeIn (s : State) (p : Packet) : State :=
  if s.own.refused.isEmpty then s else { s with own := { s.own with refused := backOf p s.own.refused } }
/-- Hold a packet until something it needs is there; beyond 1,024 the sender retries (04 R84, 17 R378). -/
def State.hold (s : State) (p : Packet) : State :=
  if 1024 ≤ s.own.held.length then s.refuse p
  else { s with own := { s.own with held := s.own.held ++ [p] } }
/-- Let the held packets try again, in arrival order and before later arrivals. -/
def State.requeue (s : State) : State :=
  if s.own.held.isEmpty then s
  else { s with own := { s.own with held := [] }, fab := { s.fab with outbox := s.own.held ++ s.fab.outbox } }
/-- The leaf by which this device owns the page of an address: in the tables of some context (04 R80). -/
def State.ownLeaf (s : State) (a : W64) : Option Leaf :=
  firstSome (s.ctxs.map fun e =>
    match walk s e.1 (a.toNat % 2 ^ 53) with
    | .ok l => if e.2.exists_ && l.isLocal && pteAnchor l.e == anchorOf a then some l else none
    | .error _ => none)
/-- Name of the page of an address: of 2 MiB where some context's leaf says so (04 R69). -/
def State.pageBase (s : State) (a : W64) : W64 :=
  pageName a (s.ctxs.any fun e => match walk s e.1 (a.toNat % 2 ^ 53) with
    | .ok l => l.big && pteAnchor l.e == anchorOf a
    | .error _ => false)
/-- The owner that the anchor names (04 R80). -/
def State.recordOwner (s : State) (a : W64) : Nat := (pageFind s.own.records a).getD (anchorOf a)
/-- A fill of one replica of the owner cache: the least recently used entry of a full set is replaced (04 R81). -/
def cacheFill (p : W64) (d : Nat) (t : List (Nat × (W64 × Nat))) (r : Nat) : List (Nat × (W64 × Nat)) :=
  let t := t.filter fun e => !(e.1 == r && decide (e.2.1 = p))
  let set := t.filter fun e => e.1 == r && cacheSet e.2.1 == cacheSet p
  let t := match set[7]? with
    | some old => t.filter fun e => decide (e ≠ old)
    | none => t
  (r, (p, d)) :: t
/-- The owner of a page of a peer's anchor is filled into all eight replicas (04 R81: 2,048 entries each, 8-way). -/
def State.learnOwner (s : State) (a : W64) (d : Nat) : State :=
  if anchorOf a = s.myId then s
  else { s with own := { s.own with cache := foldL (cacheFill (s.pageBase a) d) s.own.cache (upTo 8) } }
/-- Count a migration event: 0 MIGRATION_CHAIN, 1 NOT_OWNER, 2 redirects (18 R403). -/
def State.migCount (s : State) (n : Nat) : State :=
  { s with sys := { s.sys with migCnt := tblSet 0 s.sys.migCnt n (tblGet 0 s.sys.migCnt n + 1) } }

/-! ## Requests in order (04 R82, R88). -/

/-- The tag of the request that a reply answers. -/
def replyTag (p : Packet) : W64 := tagOf { p with src := p.dst }
/-- The request of a tag. -/
def State.reqOf (s : State) (t : W64) : Option Req := findFirst (fun r : Req => decide (r.tag = t)) s.fab.reqs
/-- Change the request of a tag. -/
def State.modReq (s : State) (t : W64) (f : Req → Req) : State :=
  { s with fab := { s.fab with reqs := modFirst (fun r => decide (r.tag = t)) f s.fab.reqs } }
/-- Unsent requests with no older request for their page. -/
def dueOf : List Packet → List Req → List Req
  | _, [] => []
  | seen, r :: l =>
    if !r.sent && !(seen.any fun q => samePage q r.pkt) then r :: dueOf (r.pkt :: seen) l
    else dueOf (r.pkt :: seen) l
/-- Send a request, for the first time or again, to an owner. -/
def State.resend (s : State) (r : Req) (o : Nat) (asked : Bool) : State :=
  let q : Packet := { r.pkt with hop := 0, relayed := false, stubs := 0, dst := BitVec.ofNat 10 o }
  (s.modReq r.tag fun r => { r with pkt := q, wait := false, sent := true, asked := asked || r.asked }).emit q
/-- A request ends: it is forgotten, and requests that waited for it are sent (04 R88). -/
def State.endReq (s : State) (r : Req) : State :=
  let s := { s with fab := { s.fab with reqs := dropFirst (fun x => decide (x.tag = r.tag)) s.fab.reqs } }
  foldL (fun s (x : Req) => s.resend x (s.ownerGuess x.pkt.addr) false) s (dueOf [] s.fab.reqs)
/-- The anchor's answer: the requests of the page that wait for it are sent again, in issue order. -/
def State.ownerKnown (s : State) (page : W64) (o : Nat) : State :=
  let s := s.learnOwner page o
  foldL (fun s (x : Req) => s.resend x o true) s
    (s.fab.reqs.filter fun r => r.wait && decide (s.pageBase r.pkt.addr = page))
/-- Ask the anchor for the owner of a page, unless it has been asked. -/
def State.askOwner (s : State) (a : W64) : State :=
  let page := s.pageBase a
  if s.fab.reqs.any (fun r => decide (r.use = .owner page)) then s
  else if anchorOf a = s.myId then s.ownerKnown page (s.recordOwner page)
  else s.request { typ := 7, addr := page, dst := BitVec.ofNat 10 (anchorOf a) } (.owner page)
/-- A reply's redirect (04 R81, R82, R88). -/
def State.redirected (s : State) (p : Packet) (r : Req) : State :=
  if !p.redir then s
  else
    let s := (s.migCount 2).learnOwner r.pkt.addr p.src.toNat
    { s with fab := { s.fab with
      reqs := s.fab.reqs.map fun x => if samePage x.pkt r.pkt then { x with redir := true } else x } }

/-! ## Lines of peers. -/

/-- Groups that wait for a line resume. -/
def State.wakePeer (s : State) (line : Nat) : State :=
  s.modGroups (fun g => decide (g.block = some (.peer line))) fun g => { g with block := none }
/-- Some party waits for a line: a group that is blocked on it or has a load of it deferred, a prefetch, or an operation of
an engine or Riddle unit. -/
def State.lineWanted (s : State) (line : Nat) : Bool :=
  let at_ (k : Nat) : Bool := isPeerKey k && (k - regionBase 5) / 64 == line
  s.groups.any (fun g => decide (g.block = some (.peer line)) || g.loads.any fun x => x.keys.any at_) ||
  !s.riddle.isEmpty || s.cores.any fun e => !e.2.engRun.isEmpty || e.2.missQ.any fun m => at_ (64 * m.line)
/-- Replace what the local slice knows of a peer's line. -/
def State.setPeer (s : State) (line : Nat) (l : PeerLine) : State :=
  ({ s with own := { s.own with peers := tblSet {} s.own.peers line l } }).prunePubs
/-- Fill a line: every byte that is not dirty here takes the owner's value and mark, and a word that stores of less than a
word have written keeps the owner's mark (18 R406); the line's write stamp, and PCLK, rise above its read stamp (06
R127). -/
def State.fillLine (s : State) (line : Nat) (excl : Bool) (bytes : List Byte) (marks : Nat → Bool) : State :=
  let l := tblGet {} s.own.peers line
  let k := keyPeer (64 * line)
  let n := lineOf k
  let st := s.stampAbove [n] 0
  let word (s : State) (j : Nat) : State :=
    if field l.dirty.toNat (8 * j) 8 = 0 then s.setPsn (k + 8 * j) (marks j)
    else if marks j && (field l.dirty.toNat (8 * j) 8 ≠ 255 || l.part.getLsbD j) then s.setPsn (k + 8 * j) true else s
  let s := (s.noteFill k bytes marks).putBytes ((upTo 64).filterMap fun j =>
    if l.dirty.getLsbD j then none else some (k + j, bytes.getD j 0))
  let s := foldL word s (upTo 8)
  let s := (s.setWts st [n]).setPeer line { held := true, excl := excl, dirty := l.dirty, part := l.part }
  ({ s with pclk := Nat.max s.pclk st }).wakePeer line
/-- The local slice lets a line go; its dirty bytes stay where they are wanted (03 R58). Deterministic domains keep its
bytes as they stand (06 R134). -/
def State.dropLine (s : State) (line : Nat) (dirty : BitVec 64) : State :=
  let k := keyPeer (64 * line)
  let part := (tblGet {} s.own.peers line).part
  let s := if s.here k then s.noteSnap (from_ k 64) else s
  let s := { s with pclk := Nat.max s.pclk (s.rtsOf (lineOf k) + 1) }
  let s := s.putBytes ((upTo 64).filterMap fun j => if dirty.getLsbD j then none else some (k + j, memDefault))
  let s := foldL (fun s j => if field dirty.toNat (8 * j) 8 = 0 then s.setPsn (k + 8 * j) false else s) s (upTo 8)
  s.setPeer line { dirty := dirty, part := part }
/-- The slice evicts a peer's line that no party waits for and no publication needs: what an exclusive holder changed is
written back to the owner, and the line is gone once that is acknowledged; a shared line with nothing to be sent just goes
(03 R58). After the 64 bytes of a WRITEBACK stands their mask (the model's layout, DESIGN CHOICE, log entry 11). -/
def State.evict (s : State) (line : Nat) : State :=
  let l := tblGet {} s.own.peers line
  let k := keyPeer (64 * line)
  if !l.held || l.wb || s.lineWanted line || (s.own.pubs.any fun ls => ls.contains (lineOf k)) then s
  else if l.excl then
    let s := s.widen none [k]
    let l := tblGet {} s.own.peers line
    let ks := span k 64
    (s.setPeer line { l with wb := true, dirty := 0 }).request
      { s.toOwner 4 hwUnit (BitVec.ofNat 64 (64 * line)) with
        data := s.bytes ks ++ leBytes 8 l.dirty.toNat, psn := psnMarks 0 (ks.map s.psn) } (.wback line)
  else if l.dirty = 0 then s.dropLine line 0
  else s
/-! ## How a request ends. -/

/-- The private bytes that travelled with an atomic that was not performed, as its packet holds them. -/
def carriedOf (q : Packet) (carried : List (Nat × Bool)) : List (Nat × Held) :=
  (carried.filter fun e => !e.2).map fun e =>
    (e.1, some (q.data.getD (8 + (e.1 - keyPeer q.addr.toNat)) 0, q.psn.getLsbD 0))
/-- An atomic at a peer was performed: the bytes that travelled with it are at their home, and the group's later loads of the
line do not find an older copy (05 R97, R105, R106). -/
def State.atomDone (s : State) (gid : Nat) (q : Packet) (carried : List (Nat × Bool)) : State :=
  let l := lineOf (keyPeer q.addr.toNat)
  let s := match s.coreOfGid gid with
    | none => s
    | some c =>
      let ks := (carried.filter fun e : Nat × Bool => e.2).map fun e : Nat × Bool => e.1
      (if ks.isEmpty then s else s.dropNarrow c ks).modCore c fun x => x.dropL1 [l]
  s.hasSeen gid (s.rtsOf l + 1)
/-- An atomic's reply reaches its register; one of a RED only ends the wait. -/
def State.atomReply (s : State) (gid pend : Nat) (dest : Option Dest) (carried : List (Nat × Bool)) (q : Packet) (v : W64)
    (psn : Bool) : State :=
  let red := q.data.getD 3 0 == 1
  let s := if psn then s.modEver gid (Group.giveBack (carriedOf q carried)) else s.atomDone gid q carried
  let s := match dest with
    | some d => s.fillPend gid pend d v (psn && !red) q.addr
    | none => s
  (s.modGid gid fun g => if g.block = some .result then { g with block := none } else g).requeue
/-- Split the reply of a combined request among its constituents, in arrival order; a poisoned value poisons them all (06
R129, 17 R388). (DEDUCED, log entry 47.) -/
def State.splitReply (s : State) (t : W64) (p : Packet) : State :=
  match findFirst (fun w : Window => decide (w.sent = some t)) s.fab.combine with
  | none => s
  | some w =>
    let z := if ((w.parts.headD {}).data.getD 1 0) = 1 then 8 else 4
    let old := leNat (p.data.take 8)
    let parts : List (Packet × W64) × Nat := foldL (fun (acc : List (Packet × W64) × Nat) (q : Packet) =>
      (acc.1 ++ [(q, BitVec.ofNat 64 (acc.2 % 2 ^ (8 * z)))], acc.2 + q.opnd.toNat % 2 ^ 64)) ([], old) w.parts
    let bad := p.psn.getLsbD 0
    let s : State := { s with fab := { s.fab with
      combine := modFirst (fun x => decide (x.sent = some t)) (fun x => { x with
        parts := [], sent := none
        answers := parts.1.map fun (e : Packet × W64) => (tagOf e.1, (e.2, bad)) }) s.fab.combine } }
    (foldL (fun (s : State) (e : Packet × W64) => s.reply e.1
      { typ := 0x21, psn := if bad then 1 else 0, data := leBytes 8 e.2.toNat }) s parts.1).retryTx
/-- Each constituent of a combined request receives its status (17 R388). -/
def State.splitStatus (s : State) (t : W64) (code : W32) : State :=
  match findFirst (fun w : Window => decide (w.sent = some t)) s.fab.combine with
  | none => s
  | some w =>
    let s : State := { s with fab := { s.fab with
      combine := dropFirst (fun x => decide (x.sent = some t)) s.fab.combine } }
    (foldL (fun (s : State) (q : Packet) => s.replyStatus q code) s w.parts).retryTx
/-- ENG_FAULT of a REMOTE whose packet wrote nothing (23 R446). -/
def State.remoteLost (s : State) (op : Nat) : State :=
  { s with cores := s.cores.map fun (e : Nat × Core) => (e.1, { e.2 with
      engRun := e.2.engRun.map fun (o : EngOp) => if o.id = op then { o with code := 0x0010, detail := 0 } else o }) }
/-- A line whose fill has failed: a load of it reads poison once; a line to be written exclusively loses what was
to be written (17 R380). -/
def State.fillLost (s : State) (line : Nat) (excl : Bool) : State :=
  if excl then (s.dropLine line 0).wakePeer line
  else if s.lineWanted line then
    let l := tblGet {} s.own.peers line
    let s := s.fillLine line false [] fun _ => true
    s.setPeer line { held := true, lost := true, dirty := l.dirty }
  else s
/-- A packet is a conditional invalidation of an owner-cache entry: its payload names the old owner, where an invalidation
of a line has none (04 R89; the model's layout, DESIGN CHOICE, log entry 11). -/
def isMarked (p : Packet) : Bool := decide (p.typ = 6) && !p.data.isEmpty
/-- The old owner that it names. -/
def markedOwner (p : Packet) : Nat := leNat p.data % 1024
/-- A member of a reclamation has answered, or has failed (04 R89, R90). -/
def State.reclaimAnswer (s : State) (page : W64) (old d : Nat) (ok : Bool) : State :=
  { s with own := { s.own with
    reclaims := modFirst (fun x => decide (x.page = page) && x.old == old && x.started) (fun x => { x with
      waiting := x.waiting.filter fun m => m != d
      failed := if ok then x.failed
        else some (match x.failed with
          | some f => Nat.min f d
          | none => d) }) s.own.reclaims } }
/-- Bytes that the exclusive holder of a line gives back, at their home: those of its mask, but for what has been
published here since (03 R58, 06 R126). After the line stands the mask. The line is then no longer held by it. -/
def State.takeBack (s : State) (line : Nat) (bytes : List (Byte × Bool)) (mask : Nat) : State :=
  let later := tblGet 0 s.own.pubOver line
  let s := s.homeWrite (((bytes.take 64).zipIdx.filter fun (e : (Byte × Bool) × Nat) =>
    mask / 2 ^ e.2 % 2 == 1 && !later.getLsbD e.2).map fun (e : (Byte × Bool) × Nat) =>
      (64 * line + e.2, e.1.1, e.1.2))
  ({ s with own := { s.own with
    excl := s.own.excl.filter fun e => e.1 != line, pubOver := s.own.pubOver.filter fun e => e.1 != line } }).prunePubs
/-- The end of a recall (03 R58). -/
def State.recallDone (s : State) (line : Nat) (p : Option Packet) : State :=
  let s := match p with
    | some p => s.takeBack line (p.data.zipIdx.map fun e : Byte × Nat => (e.1, p.psn.getLsbD (e.2 / 8))) (leNat (p.data.drop 64))
    | none => s.takeBack line [] 0
  (s.requeue).wakePeer (localLine + line)
/-- An invalidation of a peer's copy is over: what waits for it goes on (03 R58, 06 R126, R127). -/
def State.invalAcked (s : State) (line : Nat) : State :=
  (((s.prunePubs).requeue).wakePeer (shareLine + line)).wakePeer waitPage
/-- A write-back has been taken, or is lost: the line goes, but for what has been published since (03 R58). -/
def State.wbackDone (s : State) (line : Nat) : State :=
  let l := tblGet {} s.own.peers line
  (if l.wb then s.dropLine line l.dirty else s).requeue
/-- A request that gets no answer completes: with poisoned data, or unperformed (17 R380). The record's kind is
given: 5, or 4 for inconsistent tables (04 R82). -/
def State.loseOne (s : State) (r : Req) (kind : Nat) : State :=
  let comb := s.isCombined r.tag
  let s := s.endReq r
  let s := if comb || r.pkt.cls ≠ 0 || isMarked r.pkt then s
    else s.uncorrectable kind 0xFF 0 r.pkt.addr (tagOf r.pkt)
  match r.use with
  | .fill line => (s.fillLost line (decide (r.pkt.typ = 2))).requeue
  | .atom gid pend dest carried => s.atomReply gid pend dest carried r.pkt 0 true
  | .element op i =>
    match s.rid op with
    | none => s
    | some o => ((if o.kind = .gather then s else s.ridFault o i 0)).ridReplied op i
  | .remote op => s.remoteLost op
  | .ship q => s.sectionDone q.sender (List.replicate q.nres 0) true
  | .owner _ => s
  | .mroot op => s.mcIssuer op 0 1 s.myId 0
  | .mcast m port => s.mcLost m port
  | .recall line => s.recallDone line none
  | .inval line => s.invalAcked line
  | .wback line => s.wbackDone line
  | .count _ => s
  | .mgmt _ _ => s
  | .none =>
    if comb then s.splitStatus r.tag 4
    else if isMarked r.pkt then s.reclaimAnswer r.pkt.addr (markedOwner r.pkt) r.pkt.dst.toNat false
    else s
/-- A query that gets no answer fails every request that waits for it. -/
def State.lose (s : State) (r : Req) (kind : Nat) : State :=
  let s := s.loseOne r kind
  match r.use with
  | .owner page =>
    foldL (fun s (x : Req) => s.loseOne x kind) s
      (s.fab.reqs.filter fun x => x.wait && decide (s.pageBase x.pkt.addr = page))
  | _ => s

end Sys2Proof.Machine
end

