-- ==== Sys2Proof/Machine/EvFabric.lean ====
section
/-!
DEFINITION. Events of the fabric: requests that arrive at an owner, an anchor, a stub, a slice or a Damper, and
replies that arrive at a requester (03 R58, 04 R80 to R92, 06 R126 to R130, 17 R377 to R383, R388, R390, 23 R446).
-/
namespace Sys2Proof.Machine

/-! ## What a device does with a request for a page (04 R82). -/

/-- Where a request for a page goes. -/
inductive Where
  | here (l : Leaf)
  | hold
  | relay (p : Packet)
  | status (code : W32)
  deriving DecidableEq, Repr
/-- receive(q) of 04 R82. A request behind a held one of its page is held too (04 R84, R88). An anchor that neither owns the page
nor has a record of it answers NOT_OWNER (DESIGN CHOICE, log entry 66). -/
def State.arrive (s : State) (p : Packet) : Where :=
  match s.ownLeaf p.addr with
  | some l => if l.mig || s.own.held.any (fun q => samePage q p) then .hold else .here l
  | none =>
    let on (d : Nat) (stubs : BitVec 2) : Where :=
      .relay { p with hop := 0, relayed := true, stubs := stubs, dst := BitVec.ofNat 10 d }
    if anchorOf p.addr = s.myId then
      match pageFind s.own.records p.addr with
      | some d => if d = s.myId then .status 2 else on d p.stubs
      | none => .status 2
    else
      match findFirst (fun t : Stub => onPage t.page p.addr) s.own.stubs with
      | some t => if p.stubs = 2 then .status 1 else on t.owner (p.stubs + 1)
      | none => .status 2
/-- Relay a packet, or refuse it when the relay buffer is full (17 R378). -/
def State.relayOn (s : State) (p q : Packet) : State :=
  if 1024 ≤ s.fab.relay.length then s.refuse p
  else { s with fab := { s.fab with relay := s.fab.relay ++ [q] } }
/-- Note that a device has sent a request for a page (04 R89). -/
def State.noteAsker (s : State) (a : W64) (d : Nat) : State :=
  let p := s.pageBase a
  let old := ((findFirst (fun e : W64 × List Nat => decide (e.1 = p)) s.own.reqSets).map (·.2)).getD []
  if d = s.myId || old.contains d then s
  else { s with own := { s.own with
    reqSets := (p, old ++ [d]) :: s.own.reqSets.filter fun e => decide (e.1 ≠ p) } }
/-- What a request at its owner leads to: it must wait, or it is performed. -/
inductive Ready
  | wait (s : State)
  | go (s : State)
  deriving DecidableEq, Repr
/-- A request at its owner. The function is told whether the requester's tables give the page another size: then the access
completes with poisoned data, and a record of KIND 4 reports it (04 R72). What the requester's tables say no packet carries: it
is a free value. (DEDUCED, log entry 56.) -/
def atOwner (p : Packet) (f : Bool → State → Leaf → Ready) (s : State) : Out :=
  let s := s.take p
  if s.mustRefuse p then .next (s.refuse p)
  else
    let s := s.takeIn p
    match s.arrive p with
    | .hold => .next ((s.noteAsker p.addr p.src.toNat).hold p)
    | .relay q => .next (s.relayOn p q)
    | .status c => .next (s.replyStatus p c)
    | .here l =>
      let odd := Config.freeSize (tagOf p) p.addr
      match f odd (s.noteAsker p.addr p.src.toNat) l with
      | .wait s => .next (s.hold p)
      | .go s =>
        let k := leafKey l p.addr
        .next (if odd then s.uncorrectable 4 (dieOfKey s k) (instOf k) p.addr (tagOf p) else s)
/-- A line of this device is on its way back from its exclusive holder. -/
def State.recallOut (s : State) (ls : List Nat) : Bool := s.fab.reqs.any fun r =>
  match r.use with
  | .recall l => ls.contains l
  | _ => false
/-- Make some bytes of this device ready for a peer's request: updates on their way and narrow holders first, an
exclusive copy recalled, a publication made whole, and for a write every other peer's copy invalidated (03 R58, R59,
06 R126, R127). -/
def State.prepare (s : State) (ks : List Nat) (wr : Bool) (keep : Option Nat) : Ready :=
  let s := ((s.settle ks).widen none ks).flushInvals
  let ls := linesOf ks
  match s.exclLine ks with
  | some l => .wait (s.getLine 0 l true)
  | none =>
    if s.unsettled ks || ks.any (s.flyLine none) || s.recallOut ls then .wait s
    else
      match s.pubWaits ls with
      | some n => .wait (s.getLine 0 n true)
      | none =>
        if wr then
          match s.unshare ls keep with
          | some s => .wait s
          | none => .go s
        else .go s

/-! ## Lines (03 R58, 06 R126). -/

/-- The locations of the line of an address under a leaf. -/
def lineKeys (l : Leaf) (a : W64) : List Nat := span (leafKey l (a &&& ~~~63#64)) 64
/-- Answer with a line, its own marks or, where the data is no good, all. -/
def State.lineReply (s : State) (p : Packet) (ks : List Nat) (odd : Bool) : State :=
  s.reply p { typ := 0x21, redir := p.relayed, data := s.bytes ks, psn := psnMarks 0 (ks.map fun k => odd || s.psn k) }
/-- A peer holds a line shared. -/
def State.addSharer (s : State) (line d : Nat) (a : W64) : State :=
  let old := tblGet [] s.own.sharers line
  { s with own := { s.own with
    sharers := tblSet [] s.own.sharers line ((d, a) :: old.filter fun e => e.1 != d) } }
/-- READ (03 R58). -/
def execRead (p : Packet) (s : State) : Out :=
  atOwner p (fun odd s l =>
    let ks := lineKeys l p.addr
    match s.prepare ks false none with
    | .wait s => .wait s
    | .go s => .go ((s.addSharer (lineOf (ks.headD 0)) p.src.toNat p.addr).lineReply p ks odd)) s
/-- READX (06 R126): the line goes to one holder; it is no longer shared. An acquire here after this finds no copy within its
lease: the clock rises above the line's read stamp (06 R127, R128). -/
def execReadx (p : Packet) (s : State) : Out :=
  atOwner p (fun odd s l =>
    let ks := lineKeys l p.addr
    let n := lineOf (ks.headD 0)
    match s.prepare ks true (some p.src.toNat) with
    | .wait s => .wait s
    | .go s =>
      let s := s.lineReply p ks odd
      .go { s with
        pclk := Nat.max s.pclk (s.rtsOf n + 1)
        own := { s.own with
          sharers := tblSet [] s.own.sharers n []
          excl := (n, (p.src.toNat, p.addr)) :: s.own.excl.filter fun e => e.1 != n } }) s
/-- Bytes of a packet at some locations, from its first byte, with its marks. -/
def packetCells (p : Packet) (ks : List Nat) (odd : Bool) : List (Nat × Byte × Bool) :=
  (ks.zip (pktBytesAt p p.addr.toNat)).map fun e => (e.1, e.2.1, odd || e.2.2)
/-- WRITE (03 R58, 17 R383): the bytes that the mask names. -/
def execWrite (p : Packet) (s : State) : Out :=
  atOwner p (fun odd s l =>
    let ks := span (leafKey l p.addr) p.data.length
    match s.prepare ks true none with
    | .wait s => .wait s
    | .go s =>
      let cells := ((packetCells p ks odd).zipIdx.filter fun e => p.opnd.getLsbD e.2).map (·.1)
      .go ((s.homeWrite cells).reply p { typ := 0x22, redir := p.relayed })) s
/-- WRITEBACK (03 R58): dirty bytes of the exclusive holder; they are taken even while the page migrates. -/
def execWriteback (p : Packet) (s : State) : Out :=
  match s.ownLeaf p.addr with
  | none => atOwner p (fun _ s _ => .go s) s
  | some l =>
    let s := ((s.take p).takeIn p).noteAsker p.addr p.src.toNat
    let k := leafKey l (p.addr &&& ~~~63#64)
    let odd := Config.freeSize (tagOf p) p.addr
    let bytes := p.data.zipIdx.map fun e : Byte × Nat => (e.1, odd || p.psn.getLsbD (e.2 / 8))
    let s := s.takeBack (lineOf k) bytes (leNat (p.data.drop 64))
    let s := if odd then s.uncorrectable 4 (dieOfKey s k) (instOf k) p.addr (tagOf p) else s
    .next (((s.reply p { typ := 0x22, redir := p.relayed }).requeue).wakePeer (localLine + lineOf k))

/-! ## Atomics at their home (06 R129, R130). -/

/-- Answer an atomic with its value, or with a poisoned one. -/
def State.atomicReply (s : State) (p : Packet) (v : W64) (psn : Bool) : State :=
  s.reply p { typ := 0x21, redir := p.relayed, data := leBytes 8 v.toNat, psn := if psn then 1 else 0 }
/-- Apply an atomic request to the bytes at its home; the ALU's filter keeps its tag with the result (06 R130). -/
def State.atomicApply (s : State) (p : Packet) (ks : List Nat) : State :=
  let tag := tagOf p
  let k := ks.headD 0
  if p.data.getD 3 0 = 2 then
    let s := s.cntAddAt ks true (p.opnd.setWidth 64) ((p.opnd >>> 64).setWidth 32) p.addr tag
    (s.filterAdd (aluOf k) tag 0 false).atomicReply p 0 false
  else
    let z : ASize := if p.data.getD 1 0 = 1 then .d else .w
    let mask := (p.data.getD 2 0).toNat
    let bad := p.psn.getLsbD 0
    let carried : List Held := (upTo ks.length).map fun j =>
      if mask / 2 ^ j % 2 = 1 then some (p.data.getD (8 + j) 0, bad) else none
    if s.rmwPoisoned ks carried then
      let s := if p.data.getD 3 0 = 1 then s.uncorrectable 6 (dieOfKey s k) (instOf k) p.addr tag else s
      (s.filterAdd (aluOf k) tag 0 true).atomicReply p 0 true
    else
      let bs := (ks.zip carried).map fun e => match e.2 with
        | some (b, _) => b
        | none => s.byte e.1
      let old := leNat bs
      let w := 2 ^ (8 * ks.length)
      let out := match rmwNew (atomOfCode (p.data.getD 0 0).toNat) z old (p.opnd.toNat % w)
          ((p.opnd >>> 64).toNat % w) with
        | some v => leBytes ks.length v
        | none => bs
      let s := (s.writeHome false (cellsOf ks out) 0).1
      (s.filterAdd (aluOf k) tag (BitVec.ofNat 64 old) false).atomicReply p (BitVec.ofNat 64 old) false
/-- ATOMIC_REQUEST (06 R130). One whose page's size the requester's tables give otherwise changes nothing. -/
def execAtomicRequest (p : Packet) (s : State) : Out :=
  atOwner p (fun odd s l =>
    match findFirst (fun e : FiltEnt => decide (e.tag = tagOf p)) s.fab.filter with
    | some e => .go (s.atomicReply p e.val e.psn)
    | none =>
      let n := if p.data.getD 3 0 = 2 then 16 else if p.data.getD 1 0 = 1 then 8 else 4
      let ks := span (leafKey l p.addr) n
      if s.filterFull (aluOf (ks.headD 0)) then .go (s.refuse p)
      else
        match s.prepare ks true none with
        | .wait s => .wait s
        | .go s =>
          .go (if odd then (s.filterAdd (aluOf (ks.headD 0)) (tagOf p) 0 true).atomicReply p 0 true
            else s.atomicApply p ks)) s

/-! ## Invalidations and recalls (03 R58, 06 R127, 04 R89). -/

/-- A line's copy is given up, and where it was exclusive its bytes are sent, after them the mask of the dirty ones (06 R127;
the model's layout, DESIGN CHOICE, log entry 11). -/
def State.giveUp (s : State) (p : Packet) : State :=
  let n := p.addr.toNat / 64
  let l := tblGet {} s.own.peers n
  if !l.excl then (s.dropLine n l.dirty).reply p { typ := 0x22 }
  else
    let ks := span (keyPeer (64 * n)) 64
    let s := s.widen none ks
    let l := tblGet {} s.own.peers n
    let q : Packet := { typ := 0x22, data := s.bytes ks ++ leBytes 8 l.dirty.toNat, psn := psnMarks 0 (ks.map s.psn) }
    (s.dropLine n 0).reply p q
/-- Remove the owner-cache entries that name the old owner, in every replica; the acknowledgement waits for requests that
were sent there (04 R81, R89). -/
def State.forgetOwner (s : State) (page : W64) (old : Nat) : State :=
  { s with own := { s.own with cache := s.own.cache.filter fun e => !(decide (e.2.1 = page) && e.2.2 == old) } }
/-- An invalidation has overtaken the answer to a request for the line: the request is sent again once it is in (03 R58). -/
def State.overtake (s : State) (line : Nat) : State :=
  { s with fab := { s.fab with
    reqs := s.fab.reqs.map fun r => if r.use = .fill line ∧ r.sent then { r with again := true } else r } }
/-- INVAL (06 R127, 03 R58, 04 R89). It waits for a write-back of the line that is out, and for a publication that needs the
line to be whole. -/
def execInval (p : Packet) (s : State) : Out :=
  let s := s.take p
  if isMarked p then .next ((s.forgetOwner p.addr (markedOwner p)).hold p)
  else
    let n := p.addr.toNat / 64
    let l := tblGet {} s.own.peers n
    if l.wb then .next (s.hold p)
    else if !l.held then .next ((s.overtake n).giveUp p)
    else
      match l.excl, s.pubWaits [lineOf (keyPeer (64 * n))] with
      | true, some m => .next ((s.getLine 0 m true).hold p)
      | _, _ => .next (s.giveUp p)

/-! ## Owner queries, sections, multicasts, REMOTE writes. -/

/-- OWNERQ (04 R80): the record, or the anchor itself, in a payload of eight bytes (the model's layout, DESIGN CHOICE, log
entry 11). -/
def execOwnerq (p : Packet) (s : State) : Out :=
  let s := s.take p
  if anchorOf p.addr ≠ s.myId then .next (s.replyStatus p 2)
  else .next (s.reply p { typ := 0x21, data := leBytes 8 (s.recordOwner p.addr) })
/-- SHIP_REQUEST (16 R370, 08 R195, 04 R91): at the lock's home Damper. -/
def execShipRequest (p : Packet) (s : State) : Out :=
  match s.ownLeaf p.addr with
  | some _ =>
    let s := s.take p
    if s.mustRefuse p then .next (s.refuse p)
    else .next (((s.takeIn p).noteAsker p.addr p.src.toNat).shipIn (s.homeDamper (shipHash p)) (shipOf p))
  | none => atOwner p (fun _ s _ => .go s) s
/-- MCAST (17 R390): at its group's root the packet gets its version. -/
def execMcast (p : Packet) (s : State) : Out :=
  let s := s.take p
  let e := s.mgroup (mcGroup p)
  let fresh := e.v && e.root.toNat == s.myId
  match s.mcWait (if fresh then { p with aux := e.ver } else p) with
  | .stay => .next (s.hold p)
  | .want l => .next ((s.getLine 0 l true).hold p)
  | .go => .next (if fresh then s.mcRoot p (some p) 0 else s.mcGo p (some p) 0)
/-- REMOTE_WRITE (23 R446). -/
def execRemoteWrite (p : Packet) (s : State) : Out :=
  atOwner p (fun odd s l =>
    let ks := span (leafKey l p.addr) p.data.length
    match s.prepare ks true none with
    | .wait s => .wait s
    | .go s => .go ((s.homeWrite (packetCells p ks odd)).reply p { typ := 0x22, redir := p.relayed })) s

/-! ## Replies (04 R82, 17 R380). -/

/-- Take a reply, and do something with the request that it answers; a reply to a request that has ended is
discarded (17 R380). -/
def onReply (p : Packet) (f : State → Req → State) (s : State) : Out :=
  let s := s.take p
  match s.reqOf (replyTag p) with
  | none => .next s
  | some r => .next (f s r)
/-- The source acknowledges an atomic's reply, so that its tag can leave the filter (06 R130): an ACK with one byte of
payload (the model's layout, DESIGN CHOICE, log entry 11). -/
def State.ackAtomic (s : State) (p : Packet) : State :=
  s.emit { typ := 0x22, cls := 1, dst := p.src, src := BitVec.ofNat 10 s.myId, unit := p.unit, seqn := p.seqn
           addr := p.addr, data := [0], ndata := 1, len := 1 }
/-- An ACK is such an acknowledgement. -/
def isAtomAck (p : Packet) : Bool := p.data.length == 1
/-- DATA (04 R82, 03 R58). -/
def execData (p : Packet) (s : State) : Out :=
  onReply p (fun s r =>
    let comb := s.isCombined r.tag
    let s := ((if comb then s else s.redirected p r)).endReq r
    let s := if r.pkt.typ = 5 then s.ackAtomic p else s
    let v : W64 := BitVec.ofNat 64 (leNat (p.data.take 8))
    match r.use with
    | .fill line =>
      let excl := decide (r.pkt.typ = 2)
      if r.again then s.askLine r.pkt.unit.toNat line excl
      else (s.fillLine line excl p.data fun j => p.psn.getLsbD j).requeue
    | .atom gid pend dest carried => s.atomReply gid pend dest carried r.pkt v (p.psn.getLsbD 0)
    | .element op i =>
      match s.rid op with
      | none => s
      | some o => (s.ridPsn o (p.psn.getLsbD 0)).ridReplied op i
    | .owner page => s.ownerKnown page (leNat (p.data.take 8) % 1024)
    | _ => if comb then s.splitReply r.tag p else s) s
/-- An acknowledged reply leaves the filter, or the combining router's stored answers (06 R130, 17 R388). -/
def State.dropTag (s : State) (t : W64) : State :=
  { s with fab := { s.fab with
    filter := s.fab.filter.filter fun e => decide (e.tag ≠ t)
    combine := (s.fab.combine.map fun w => { w with answers := w.answers.filter fun e => decide (e.1 ≠ t) }).filter
      fun w => !(w.parts.isEmpty && w.answers.isEmpty && w.sent.isNone) } }
/-- ACK (23 R446, 03 R58, 06 R130). -/
def execAck (p : Packet) (s : State) : Out :=
  if isAtomAck p then .next ((s.take p).dropTag (tagOf p))
  else
    onReply p (fun s r =>
      let s := (s.redirected p r).endReq r
      match r.use with
      | .element op i => s.ridReplied op i
      | .recall line => s.recallDone line (some p)
      | .inval line => s.invalAcked line
      | .wback line => s.wbackDone line
      | .none => if isMarked r.pkt then s.reclaimAnswer r.pkt.addr (markedOwner r.pkt) p.src.toNat true else s
      | _ => s) s
/-- A status that sends the requester to the anchor (04 R82): NOT_OWNER twice in succession from the owner that the
anchor names is an inconsistency. -/
def State.chase (s : State) (r : Req) (notOwner : Bool) : State :=
  let s := s.migCount (if notOwner then 1 else 0)
  if notOwner && r.asked && r.notOwner then s.lose r 4
  else
    (s.modReq r.tag fun x => { x with wait := true, notOwner := notOwner && x.asked }).askOwner r.pkt.addr
/-- MIGRATION_CHAIN (04 R82). -/
def execMigrationChain (p : Packet) (s : State) : Out := onReply p (fun s r => s.chase r false) s
/-- NOT_OWNER (04 R82). -/
def execNotOwner (p : Packet) (s : State) : Out := onReply p (fun s r => s.chase r true) s
/-- RETRY (17 R378): the request is sent again, a section request once its sender's issue release has been performed again
(06 R125); younger requests for the page wait (04 R88). -/
def execRetry (p : Packet) (s : State) : Out :=
  onReply p (fun s r =>
    match r.use with
    | .ship _ => s.modReq r.tag fun x => { x with redir := true, again := true }
    | _ => (s.modReq r.tag fun x => { x with redir := true }).emit { r.pkt with hop := 0 }) s
/-- UNREACHABLE (17 R380). -/
def execUnreachable (p : Packet) (s : State) : Out := onReply p (fun s r => s.lose r 5) s
/-- HELD (17 R380): the requester's timer starts again; the model keeps no timer (DESIGN CHOICE, log entry 21). -/
def execHeld (p : Packet) (s : State) : Out := .next (s.take p)
/-- MACK (17 R390). -/
def execMack (p : Packet) (s : State) : Out :=
  onReply p (fun s r =>
    let s := s.endReq r
    let n := leNat (p.data.take 16)
    match r.use with
    | .mroot op => s.mcIssuer op (field n 0 16) (field n 16 16) (field n 32 16) (field n 64 32)
    | .mcast m port =>
      (s.modMc m fun x => { (x.count (field n 0 16) (field n 16 16) (field n 32 16)) with
        ports := x.ports.filter fun q => q != port }).mcCheck m
    | _ => s) s
/-- SECTION_RESULT (16 R372). -/
def execSectionResult (p : Packet) (s : State) : Out :=
  onReply p (fun s r =>
    let s := (s.redirected p r).endReq r
    match r.use with
    | .ship q =>
      s.sectionDone q.sender
        ((upTo q.nres).map fun j => BitVec.ofNat 64 (leNat ((p.data.drop (8 * j)).take 8))) (p.data.getD (8 * q.nres) 0 != 0)
    | _ => s) s

/-! ## Routing (17 R377, R379, R388). -/

/-- PACKET_FORWARD (17 R377). -/
def execPacketForward (p : Packet) (s : State) : Out :=
  let here := s.fab.outbox.any fun q => decide (q = p)
  let s := if here then s.take p
    else { s with fab := { s.fab with relay := dropFirst (fun q => decide (q = p)) s.fab.relay } }
  .next (s.sendOn p)
/-- ROUTE_MARKER (17 R379): it is returned to its source. -/
def execRouteMarker (p : Packet) (s : State) : Out := .next ((s.take p).replyMgmt p 1)
/-- ROUTE_MARKER_RETURN (17 R379, R377): the marker, or an UNREACHABLE answer to it, is back; packets held for the
destination go. -/
def execRouteMarkerReturn (p : Packet) (s : State) : Out :=
  let s := s.take p
  .next ({ s with fab := { s.fab with markers := s.fab.markers.filter fun m => m != p.addr.toNat } } : State).retryTx

end Sys2Proof.Machine
end

