-- ==== Sys2Proof/Machine/Stoker.lean ====
section
/-!
DEFINITION. What Stokers tell one another: migrations at the new owner and the anchor, stubs, routes and groups
(04 R83, R84, R87 to R91, 17 R376, R383, R389, R392). A message is a packet of type 0x30: its operation, three
numbers and up to 224 further bytes (the layout is the model's, DESIGN CHOICE, log entry 11).
-/
namespace Sys2Proof.Machine

/-- A message: its operation, its page, three numbers, and further bytes. -/
structure Msg where
  op : Nat
  page : W64
  a : W64 := 0
  b : W64 := 0
  c : W64 := 0
  rest : List Byte := []
  deriving DecidableEq, Repr
/-- Its payload. -/
def Msg.bytes (m : Msg) : List Byte :=
  leBytes 8 m.op ++ leBytes 8 m.a.toNat ++ leBytes 8 m.b.toNat ++ leBytes 8 m.c.toNat ++ m.rest
/-- A message from a packet. -/
def msgOf (p : Packet) : Msg :=
  { op := pk p.data 0 8, page := p.addr, a := BitVec.ofNat 64 (pk p.data 8 8), b := BitVec.ofNat 64 (pk p.data 16 8)
    c := BitVec.ofNat 64 (pk p.data 24 8), rest := p.data.drop 32 }
/-- A set of devices as 128 bytes. -/
def setBytes (l : List Nat) : List Byte := leBytes 128 (foldL (fun n d => if n / 2 ^ d % 2 = 1 then n else n + 2 ^ d) 0 l)
/-- And back. -/
def setOf (b : List Byte) : List Nat := bitsOn 1024 (leNat (b.take 128))

/-! ## Tables of this device. -/

/-- Address and leaf of the entry that maps an offset (04 R69); fuel is the levels left. -/
def walkEntry (s : State) : Nat → Nat → Nat → Nat → Option (Nat × Leaf)
  | 0, _, _, _ => none
  | n + 1, level, table, off =>
    let a := pteAddr table level off
    let e := s.num (span (keyPhys a) 8)
    if !pteBit e 0 || malformed s.sys.fuse.grade level e then none
    else if pteBit e 5 then some (a, ⟨e, level == 2⟩)
    else walkEntry s n (level + 1) (ptePa e) off
/-- The leaf entry of a page in a context's tables; a context that this device does not have has none here (04 R79). -/
def State.entryOf (s : State) (ctx : Nat) (page : W64) : Option (Nat × Leaf) :=
  if (s.ctx ctx).exists_ then walkEntry s 4 0 (s.ctx ctx).ptroot.toNat ((pageAddr page).toNat % 2 ^ 53) else none
/-- Some leaf under a table maps a range of physical memory; fuel is the levels left. -/
def mapsRange (s : State) (lo n : Nat) : Nat → Nat → Nat → Bool
  | 0, _, _ => false
  | f + 1, level, table =>
    (upTo (2 ^ (levelBits level).2)).any fun i =>
      let e := s.num (span (keyPhys (table + 8 * i)) 8)
      pteBit e 0 && !malformed s.sys.fuse.grade level e &&
        (if pteBit e 5 then
          let l : Leaf := ⟨e, level == 2⟩
          l.isLocal && decide (l.frame < lo + n) && decide (lo < l.frame + l.size)
        else mapsRange s lo n f (level + 1) (ptePa e))
/-- A context other than one maps a range of physical memory. -/
def State.mappedBy (s : State) (except_ : Option Nat) (lo n : Nat) : Bool :=
  s.ctxs.any fun e => e.2.exists_ && some e.1 != except_ && mapsRange s lo n 4 0 e.2.ptroot.toNat
/-- Set or clear a bit of a number. -/
def putBit (n k : Nat) (b : Bool) : Nat := n / 2 ^ (k + 1) * 2 ^ (k + 1) + (if b then 2 ^ k else 0) + n % 2 ^ k
/-- LOCAL, MIG and, where given, the frame of a leaf entry. -/
def leafWith (e : Nat) (isLocal mig : Bool) (frame : Option W64) : Nat :=
  let e := putBit (putBit e 6 isLocal) 4 mig
  match frame with
  | some f => e / 2 ^ 41 * 2 ^ 41 + f.toNat / 256 % 2 ^ 33 * 256 + e % 256
  | none => e
/-- Write a page's leaf and drop the page's cached translations (04 R75, R84). -/
def State.setLeaf (s : State) (ctx : Nat) (page : W64) (e a : Nat) : State :=
  (s.setPhysWord a (BitVec.ofNat 64 e)).invalidate ctx ((pageAddr page).toNat % 2 ^ 53) (pageSize page)
/-- A location of a page that moves, where the page then lies. -/
def movedKey (lo n hi k : Nat) : Nat := if lo ≤ k ∧ k < lo + n then hi + (k - lo) else k
/-- A table whose keys are locations of a page that moves. -/
def moveKeys {α : Type} [DecidableEq α] (d : α) (lo n hi : Nat) (t : List (Nat × α)) : List (Nat × α) :=
  let inn (e : Nat × α) : Bool := decide (lo ≤ e.1) && decide (e.1 < lo + n)
  tblSetMany d (t.filter fun e => !inn e) ((t.filter inn).map fun e => (hi + (e.1 - lo), e.2))
/-- What a group holds for locations of a page that moves: its private bytes, and its loads that wait. -/
def Group.rekey (lo n hi : Nat) (g : Group) : Group :=
  let move : List (Nat × Held) → List (Nat × Held) := moveKeys none lo n hi
  { g with
    priv := move g.priv, fences := g.fences.map fun x => { x with cover := move x.cover }
    loads := g.loads.map fun x => { x with keys := x.keys.map (movedKey lo n hi), own := move x.own } }
/-- Private and narrow-published bytes, updates and loads on their way move with their page (04 R84, R85). -/
def State.rekey (s : State) (lo n hi : Nat) : State :=
  let s := foldL (fun s (g : Group) => s.modEver g.gid (Group.rekey lo n hi)) s s.everyGroup
  let home (h : HomeOp) : HomeOp :=
    if h.place.glob then
      { h with place := { h.place with key := movedKey lo n hi h.place.key }, own := moveKeys none lo n hi h.own }
    else h
  let core (x : Core) : Core := { x with narrow := moveKeys none lo n hi x.narrow, nown := moveKeys 0 lo n hi x.nown }
  { s with homeQ := s.homeQ.map home, cores := s.cores.map fun e => (e.1, core e.2) }
/-- Copies of some of this device's lines in its L1s, and prefetches of them, go. -/
def State.dropFrame (s : State) (lo n : Nat) : State :=
  let inn (l : Nat) : Bool := decide (lineOf lo ≤ l) && decide (l < lineOf lo + n / 64)
  { s with cores := s.cores.map fun e => (e.1, { e.2 with
    l1 := e.2.l1.filter fun x => !inn x.line, missQ := e.2.missQ.filter fun m => !inn m.line }) }

/-! ## What a Stoker does with a message: its status. -/

/-- The record of a page's owner (04 R80, R84). A stub that the new owner held for the page is gone, so that its reclamation
does not run (04 R87). -/
def State.setRecord (s : State) (page : W64) (d : Nat) : State :=
  let rest := s.own.records.filter fun e => decide (e.1 ≠ page)
  { s with own := { s.own with
    records := if d = s.myId then rest else (page, d) :: rest
    reclaims := s.own.reclaims.filter fun r => !(decide (r.page = page) && r.old == d) } }
/-- The new owner's answer: MISMATCH, NO_FRAME or MIG_BUSY (04 R83). -/
def State.mayReceive (s : State) (m : Msg) : Nat :=
  let e := m.b.toNat
  match s.entryOf m.c.toNat m.page with
  | none => 0x11
  | some (_, l) =>
    if l.big != m.page.getLsbD 0 || l.isLocal || field l.e 1 3 != field e 1 3 || pteAnchor l.e != pteAnchor e then 0x11
    else
      let f := m.a.toNat
      if f % l.size ≠ 0 ∨ !installed s.sys.fuse.grade f ∨ !installed s.sys.fuse.grade (f + l.size - 1) ∨
          s.mappedBy none f l.size then 0x13
      else if 16 ≤ s.own.incoming.length ∨ s.own.incoming.contains m.page then 0x16
      else 0
/-- The new owner's leaf (04 R84 step 4, R87): bytes of the page held here, by line or private, are now at home, where a word
that stores of less than a word have written keeps its mark (18 R406); a stub goes. -/
def State.takePage (s : State) (m : Msg) : State :=
  match s.entryOf m.c.toNat m.page with
  | none => s
  | some (a, l) =>
    let base := keyPeer (pageAddr m.page).toNat
    let n := l.size
    let s := s.setLeaf m.c.toNat m.page (leafWith l.e true false (some m.a)) a
    let lines := s.own.peers.filter fun e => decide (base ≤ keyPeer (64 * e.1)) && decide (keyPeer (64 * e.1) < base + n)
    let cells := lines.flatMap fun e => (bitsOn 64 e.2.dirty.toNat).map fun j =>
      let k := keyPeer (64 * e.1) + j
      (m.a.toNat + (k - base), s.byte k, s.psn k)
    let marked := lines.flatMap fun e => (bitsOn 8 e.2.part.toNat).filterMap fun j =>
      let k := m.a.toNat + (keyPeer (64 * e.1) + 8 * j - base)
      if s.psn k then some (k / 8) else none
    let s := ((s.homeWrite cells).poisonWords marked).dropFrame m.a.toNat n
    let s := foldL (fun s e => s.dropLine e.1 0) s lines
    let s := s.rekey base n m.a.toNat
    { s with own := { s.own with
      stubs := s.own.stubs.filter fun t => decide (t.page ≠ m.page)
      incoming := s.own.incoming.filter fun p => decide (p ≠ m.page)
      reqSets := (m.page, (setOf m.rest).filter fun d => d != s.myId) ::
        s.own.reqSets.filter fun e => decide (e.1 ≠ m.page) } }
/-- One line pair of a migrating page arrives in its new frame (04 R84 step 3). -/
def State.takeLines (s : State) (m : Msg) : State :=
  s.homeWrite (m.rest.zipIdx.map fun e => (keyPhys (m.a.toNat + e.2), e.1, m.c.getLsbD (e.2 / 8)))
/-- ROUTE_WRITE's refusals (17 R376). -/
def State.routeBad (s : State) (d e : Nat) : Bool :=
  decide (1024 ≤ d) || field e 8 24 != 0 || field e 4 3 == 0 || decide (12 ≤ field e 0 4) ||
    decide ((s.flink (field e 0 4)).st = .absent)
/-- Write a route entry; a changed port sends a marker on the old one (17 R379), which names its destination in
PH.ADDR (DESIGN CHOICE, log entry 11). -/
def State.writeRoute (s : State) (d e : Nat) : State :=
  let old := s.routeOf d
  let r : Route := { port := BitVec.ofNat 4 e, hops := BitVec.ofNat 3 (e / 16), v := e / 128 % 2 == 1 }
  let s := { s with fab := { s.fab with routes := tblSet {} s.fab.routes d r } }
  if old.v && old.port != r.port && d != s.myId then
    let p : Packet :=
      { typ := 0x31, cls := 2, dst := BitVec.ofNat 10 d, src := BitVec.ofNat 10 s.myId, unit := 0, seqn := s.fab.seqn
        addr := BitVec.ofNat 64 d }
    let s := { s with fab := { s.fab with
      seqn := s.fab.seqn + 1, markers := d :: s.fab.markers.filter fun m => m != d } }
    if (s.flink old.port.toNat).up then s.linkSend old.port.toNat p
    else { s with fab := { s.fab with markers := s.fab.markers.filter fun m => m != d } }
  else s
/-- Fields of a group entry as its 32 bytes give them (17 R389). -/
def mgroupOf (b : List Byte) : MGroup :=
  let w := pk b 8 4
  let x := pk b 24 8
  { ver := BitVec.ofNat 32 (pk b 0 4), oldVer := BitVec.ofNat 32 (pk b 4 4), ports := BitVec.ofNat 12 w
    oports := BitVec.ofNat 12 (w / 2 ^ 12), loc := w / 2 ^ 24 % 2 == 1, oloc := w / 2 ^ 25 % 2 == 1
    ov := w / 2 ^ 26 % 2 == 1, v := w / 2 ^ 27 % 2 == 1, root := BitVec.ofNat 10 (pk b 12 4)
    dst := BitVec.ofNat 64 (pk b 16 8), dlen := BitVec.ofNat 9 x, mapv := x / 2 ^ 9 % 2 == 1
    ctx := BitVec.ofNat 10 (x / 2 ^ 10) }
/-- GROUP_WRITE's status (17 R389, R392): reserved bits are not zero; a third version. -/
def State.groupStatus (s : State) (n : Nat) (b : List Byte) : Nat :=
  let o := s.mgroup n
  let e := mgroupOf b
  if 4096 ≤ n ∨ field (pk b 8 4) 28 4 ≠ 0 ∨ field (pk b 12 4) 10 22 ≠ 0 ∨ field (pk b 24 8) 20 44 ≠ 0 ∨
      256 < e.dlen.toNat then 1
  else if o.ov && o.v && e.v && decide (e.ver ≠ o.ver) then 2
  else 0
/-- Write a group entry. With a new version the present tree becomes the previous one, and OV becomes 1, whatever the entry
holds there (17 R392). -/
def State.writeGroup (s : State) (n : Nat) (b : List Byte) : State :=
  let o := s.mgroup n
  let e := mgroupOf b
  let e := if o.v && e.v && decide (e.ver ≠ o.ver) then
      { e with ov := true, oldVer := o.ver, oports := o.ports, oloc := o.loc } else e
  { s with fab := { s.fab with groups := tblSet {} s.fab.groups n e } }

/-- A Stoker carries out a message and says how it went. The anchor's test for room reserves nothing: migrations accepted at the
limit together may leave it more than 65,536 records (04 R80, R83; DESIGN CHOICE, log entry 66). -/
def State.stokerApply (s : State) (src : Nat) (m : Msg) : State × Nat :=
  match m.op with
  | 0 =>
    let st := s.mayReceive m
    (if st = 0 then { s with own := { s.own with incoming := m.page :: s.own.incoming } } else s, st)
  | 1 => (s.takeLines m, 0)
  | 2 => (s.takePage m, 0)
  | 3 => (s.setRecord m.page m.a.toNat, 0)
  | 4 =>
    let r : Reclaim := { page := m.page, old := src, members := setOf m.rest, started := false, waiting := []
                         failed := none }
    ({ s with own := { s.own with reclaims := s.own.reclaims ++ [r] } }, 0)
  | 5 => ({ s with own := { s.own with stubs := s.own.stubs.filter fun t => decide (t.page ≠ m.page) } }, 0)
  | 6 =>
    if s.routeBad m.a.toNat m.b.toNat then (s, 1) else (s.writeRoute m.a.toNat m.b.toNat, 0)
  | 7 =>
    let st := s.groupStatus m.a.toNat m.rest
    (if st = 0 then s.writeGroup m.a.toNat m.rest else s, st)
  | 8 =>
    (s, if m.a.toNat ≠ s.myId ∧ 65536 ≤ s.own.records.length then 0x15 else 0)
  | 9 => ({ s with own := { s.own with incoming := s.own.incoming.filter fun p => decide (p ≠ m.page) } }, 0)
  | 10 => (s.joinRetrain m.a.toNat, 0)
  | _ => (s, 1)

/-! ## The old owner's side. -/

/-- Change a migration. -/
def State.modMig (s : State) (page : W64) (f : Mig → Mig) : State :=
  { s with own := { s.own with migs := modFirst (fun m => decide (m.page = page)) f s.own.migs } }
/-- A migration in progress. -/
def State.migOf (s : State) (page : W64) : Option Mig := findFirst (fun m : Mig => decide (m.page = page)) s.own.migs
/-- Forget a migration. -/
def State.dropMig (s : State) (page : W64) : State :=
  { s with own := { s.own with migs := dropFirst (fun m => decide (m.page = page)) s.own.migs } }
/-- Send a message to a device's Stoker; this device's own answers at once. -/
def State.tell (s : State) (d : Nat) (m : Msg) : State × Option Nat :=
  if d = s.myId then
    let r := s.stokerApply d m
    (r.1, some r.2)
  else
    let p : Packet :=
      { typ := 0x30, cls := 2, dst := BitVec.ofNat 10 d, src := BitVec.ofNat 10 s.myId, seqn := s.fab.seqn
        addr := m.page, data := m.bytes, ndata := flitsOf m.bytes.length, len := BitVec.ofNat 32 m.bytes.length }
    let s : State := { s with fab := { s.fab with
      seqn := s.fab.seqn + 1, reqs := s.fab.reqs ++ [{ tag := tagOf p, pkt := p, use := .mgmt m.op m.page }] } }
    (s.emit p, none)
/-- An answer to one of a migration's messages is counted. -/
def Mig.answered (m : Mig) (st : Nat) : Mig :=
  { m with waiting := m.waiting - 1, bad := if m.bad = 0 then BitVec.ofNat 16 st else m.bad }
/-- Send some of a migration's messages. -/
def State.tellFor (s : State) (page : W64) : List (Nat × Msg) → State
  | [] => s
  | (d, x) :: r =>
    let y := (s.modMig page fun m => { m with waiting := m.waiting + 1 }).tell d x
    let s := match y.2 with
      | none => y.1
      | some st => y.1.modMig page fun m => m.answered st
    s.tellFor page r
/-- Change every live Damper. -/
def State.onDampers (s : State) (f : Damper → Damper) : State :=
  foldL (fun s d => s.setDamper d (f (s.damper d))) s (upTo s.sys.fuse.ndampers)
/-- Sections for the closed locks of a page that are queued or running (04 R91). -/
def State.lockBusy (s : State) (page : W64) : Bool :=
  s.dampers.any (fun e => (e.2.queue ++ e.2.refusal ++ e.2.retry).any fun r => onPage page r.lock) ||
  s.groups.any fun g => match g.sec with
    | some r => onPage page r.lock
    | none => false
/-- Step 1 (04 R84, R91): MIG, the translations, the locks. -/
def State.migBegin (s : State) (m : Mig) : State :=
  match s.entryOf m.ctx m.page with
  | none => s
  | some (a, l) =>
    let s := s.drainHome fun h => h.place.glob && decide (l.frame ≤ h.place.key) && decide (h.place.key < l.frame + l.size)
    let s := s.setLeaf m.ctx m.page (leafWith l.e true true none) a
    let s := s.onDampers fun d => { d with closed := m.page :: d.closed }
    s.modMig m.page fun x => { x with step := 1, waiting := 0 }
/-- Every answer to the questions before a migration is in: the command completes, and step 1 begins (04 R83). -/
def State.migAsked (s : State) (page : W64) : State :=
  match s.migOf page with
  | none => s
  | some m =>
    if m.step ≠ 0 ∨ m.waiting ≠ 0 then s
    else if m.bad ≠ 0 then
      let s := ((s.dropMig page).tell m.owner { op := 9, page := page }).1
      s.mboxDone m.bad.toNat
    else (s.migBegin m).mboxDone 0
/-- Step 2: peers' copies of the page are recalled, narrow holders publish (04 R84, R59). -/
def State.migRecall (s : State) (l : Leaf) : State :=
  let mine (n : Nat) : Bool := decide (lineOf l.frame ≤ n) && decide (n < lineOf l.frame + l.size / 64)
  let s := foldL State.forcePublish s (s.cores.filterMap fun e =>
    if e.2.narrow.any (fun x => mine (lineOf x.1)) then some e.1 else none)
  let out := (s.own.sharers.filter fun e => mine e.1).flatMap fun e => e.2.map fun x => (e.1, x)
  let s : State := { s with own := { s.own with
    sharers := s.own.sharers.filter fun e => !mine e.1, invq := s.own.invq ++ out } }
  foldL (fun s (e : Nat × (Nat × W64)) => if mine e.1 then s.recall e.1 else s) s.flushInvals s.own.excl
/-- Step 2 is complete. -/
def State.migRecalled (s : State) (m : Mig) (l : Leaf) : Bool :=
  let mine (n : Nat) : Bool := decide (lineOf l.frame ≤ n) && decide (n < lineOf l.frame + l.size / 64)
  let out (r : Req) : Bool := match r.use with
    | .inval n => mine n
    | _ => false
  !(s.own.excl.any fun e => mine e.1) && !(s.own.sharers.any fun e => mine e.1) && !(s.own.invq.any fun e => mine e.1) &&
    !s.fab.reqs.any out && !s.lockBusy m.page
/-- The messages that carry the page, 128 bytes each (04 R84 step 3). -/
def State.migLines (s : State) (m : Mig) (l : Leaf) : List (Nat × Msg) :=
  (upTo (l.size / 128)).map fun i =>
    let ks := span (l.frame + 128 * i) 128
    let psn := foldL (fun n j => n + if s.psn (l.frame + 128 * i + 8 * j) then 2 ^ j else 0) 0 (upTo 16)
    (m.owner, { op := 1, page := m.page, a := m.frame + BitVec.ofNat 64 (128 * i), c := BitVec.ofNat 64 psn
                rest := s.bytes ks })
/-- Devices that have asked for a page (04 R89). -/
def State.askersOf (s : State) (page : W64) : List Nat :=
  ((findFirst (fun e : W64 × List Nat => decide (e.1 = page)) s.own.reqSets).map (·.2)).getD []
/-- A SHIP request as a packet of its sender (04 R91). -/
def shipPacket (r : SecReq) : Packet :=
  { senderPacket r with
    typ := 8, data := shipData r
    ndata := flitsOf (shipData r).length, len := BitVec.ofNat 32 (shipData r).length }
/-- The locks of a page open again; the requests held for them are given back, Damper by Damper. -/
def State.openLocks (s : State) (page : W64) : State × List SecReq :=
  let held := s.dampers.flatMap fun e => e.2.held.filter fun r => onPage page r.lock
  (s.onDampers fun d => { d with
    closed := d.closed.filter fun p => decide (p ≠ page), held := d.held.filter fun r => !onPage page r.lock }, held)
/-- A held section request goes on to the new owner. -/
def State.shipOn (s : State) (r : SecReq) (d : Nat) : State :=
  if r.sender.dev = s.myId then s.sendShip r false
  else s.relayOn (shipPacket r) { shipPacket r with relayed := true, dst := BitVec.ofNat 10 d }
/-- The end of a migration: this device's leaf, the stub, the held accesses and sections, the set of askers, the
notice (04 R84 steps 4 and 5, R86, R89, R91). -/
def State.migFinish (s : State) (m : Mig) : State :=
  match s.entryOf m.ctx m.page with
  | none => s.dropMig m.page
  | some (a, l) =>
    let set := s.askersOf m.page
    let here := anchorOf m.page = s.myId
    let s := s.rekey l.frame l.size (keyPeer (pageAddr m.page).toNat)
    let s := (s.setLeaf m.ctx m.page (leafWith l.e false false none) a).dropMig m.page
    let s : State := { s.dropFrame l.frame l.size with
      own := { s.own with
        stubs := if here then s.own.stubs else s.own.stubs ++ [{ page := m.page, owner := m.owner }]
        reqSets := s.own.reqSets.filter fun e => decide (e.1 ≠ m.page) } }
    let s := if here then s
      else (s.tell (anchorOf m.page) { op := 4, page := m.page, rest := setBytes set }).1
    let r := (s.requeue).openLocks m.page
    let s := foldL (fun s x => s.shipOn x m.owner) r.1 r.2
    (s.notice 15 0 (pageAddr m.page) (BitVec.ofNat 64 m.owner) 0).wakePeer waitPage
/-- MIGRATION_STEP (04 R84): the step that runs is complete, and the next one begins. Step 1 is over once no request for the
page that an older translation made is out; what waits here is held (04 R75). -/
def execMigrationStep (page : W64) (s : State) : Out :=
  match s.migOf page with
  | none => .next s
  | some m =>
    match s.entryOf m.ctx m.page with
    | none => .next s
    | some (_, l) =>
      let atStep (s : State) (n : Nat) : State := s.modMig page fun x => { x with step := n }
      if m.waiting ≠ 0 then .next s
      else
        match m.step with
        | 0 => .next s
        | 1 =>
          if s.fab.reqs.any (fun r => pageReq r.pkt && onPage page r.pkt.addr) then .next s
          else .next (atStep (s.migRecall l) 2)
        | 2 =>
          if s.migRecalled m l then .next ((atStep s 3).tellFor page (s.migLines m l)) else .next (s.migRecall l)
        | 3 =>
          .next ((atStep s 4).tellFor page [(m.owner, { op := 2, page := page, a := m.frame, c := BitVec.ofNat 64 m.ctx
                                                        rest := setBytes (s.askersOf page) })])
        | 4 =>
          .next ((atStep s 5).tellFor page [(anchorOf page, { op := 3, page := page, a := BitVec.ofNat 64 m.owner })])
        | _ => .next (s.migFinish m)

/-- A migration is aborted before step 3 (04 R86): MIG is cleared, what was held goes on here. -/
def State.migCancel (s : State) (m : Mig) : State :=
  let s := match s.entryOf m.ctx m.page with
    | some (a, l) => s.setLeaf m.ctx m.page (leafWith l.e true false none) a
    | none => s
  let s := ((s.dropMig m.page).tell m.owner { op := 9, page := m.page }).1
  let r := (s.requeue).openLocks m.page
  let s := foldL (fun (s : State) (x : SecReq) => s.shipIn (s.homeDamper (lockHash x.lock)) x) r.1 r.2
  (s.notice 15 0 (pageAddr m.page) (BitVec.ofNat 64 m.owner) 0x17).wakePeer waitPage

/-! ## Reclaiming a stub (04 R89, R90). -/

/-- Send the conditional invalidation to each member. -/
def State.condInvals (s : State) (page : W64) (old : Nat) : List Nat → State
  | [] => s
  | d :: r =>
    (s.request { typ := 6, addr := page, dst := BitVec.ofNat 10 d, data := leBytes 8 old } .none).condInvals page old r
/-- STUB_RECLAIM_START (04 R89 step 2). -/
def execStubReclaimStart (page : W64) (s : State) : Out :=
  match findFirst (fun r : Reclaim => decide (r.page = page) && !r.started) s.own.reclaims with
  | none => .next s
  | some r =>
    let s := { s with own := { s.own with
      reclaims := modFirst (fun r : Reclaim => decide (r.page = page) && !r.started)
        (fun r => { r with started := true, waiting := r.members }) s.own.reclaims } }
    .next (s.condInvals page r.old r.members)
/-- A marked invalidation of a page and an old owner. -/
def isCond (page : W64) (old : Nat) (p : Packet) : Bool :=
  decide (p.typ = 6) && decide (p.cls = 0) && isMarked p && decide (p.addr = page) && markedOwner p == old
/-- STUB_COND_INVAL (04 R89 step 3): it has arrived; its acknowledgement waits. -/
def execStubCondInval (page : W64) (old : Nat) (s : State) : Out :=
  match findFirst (isCond page old) s.fab.outbox with
  | none => .next s
  | some p => .next (((s.take p).forgetOwner page old).hold p)
/-- STUB_INVAL_ACK (04 R89 step 3): every request that was sent to the old owner for the page has its reply. -/
def execStubInvalAck (page : W64) (old : Nat) (s : State) : Out :=
  match findFirst (isCond page old) s.own.held with
  | none => .next s
  | some p =>
    if s.fab.reqs.any (fun r => pageReq r.pkt && r.sent && r.pkt.dst.toNat == old && onPage page r.pkt.addr) then
      .next s
    else
      let s := { s with own := { s.own with held := dropFirst (isCond page old) s.own.held } }
      .next (s.reply p { typ := 0x22 })
/-- STUB_RECLAIM_RESULT (04 R89 step 4, R90): the stub is freed, or stays with a record of KIND 9. -/
def execStubReclaimResult (page : W64) (fail : Option Nat) (s : State) : Out :=
  let done (r : Reclaim) : Bool := decide (r.page = page) && r.started && r.waiting.isEmpty && decide (r.failed = fail)
  match findFirst done s.own.reclaims with
  | none => .next s
  | some r =>
    let s := { s with own := { s.own with reclaims := dropFirst done s.own.reclaims } }
    match fail with
    | none => .next (s.tell r.old { op := 5, page := page }).1
    | some d => .next (s.notice 9 0 (pageAddr page) (BitVec.ofNat 64 d) 1)

/-! ## The messages' events. -/

/-- An answer to a message of this device: 4 where the message could not be delivered, else 256 and its status. -/
def State.stokerAnswer (s : State) (p : Packet) (r : Req) : State :=
  match r.use with
  | .mgmt op page =>
    let lost := decide (mgmtStatus p = 4)
    if lost ∧ op ≠ 0 ∧ op ≠ 8 ∧ op ≠ 10 then s.emit { r.pkt with hop := 0 }
    else
      let s := s.endReq r
      let st := if lost then 0x11 else mgmtStatus p % 256
      if op ≤ 3 ∨ op = 8 then (s.modMig page fun m => m.answered st).migAsked page else s
  | _ => s.endReq r
/-- STOKER_MESSAGE (17 R375, R383): carried out and answered, an answer, or what the far end of a link tells of itself. -/
def execStokerMessage (p : Packet) (s : State) : Out :=
  let s := s.take p
  if p.typ = 0x32 then
    let n := leNat (p.data.take 8)
    .next (s.neighbour p.unit.toNat (field n 0 10) (field n 16 4))
  else if p.typ ≠ 0x30 then .next s
  else if mgmtAnswer p then
    match s.reqOf (replyTag p) with
    | none => .next s
    | some r => .next (s.stokerAnswer p r)
  else
    let r := s.stokerApply p.src.toNat (msgOf p)
    .next (r.1.replyMgmt p (256 + r.2))

end Sys2Proof.Machine
end

