-- ==== Sys2Proof/Machine/EvLink.lean ====
section
/-!
DEFINITION. Events of the links: flits, replays, timers, training and lane failures (01 R16, R25, 17 R374, R375,
R380, R384 to R387, R396, R461).
-/
namespace Sys2Proof.Machine

/-! ## Flits (17 R381, R382, R384). -/

/-- A type of its class (17 R383). -/
def typeKnown (p : Packet) : Bool :=
  let t := p.typ.toNat
  match p.cls.toNat with
  | 0 => decide (1 ≤ t) && decide (t ≤ 0x0A)
  | 1 => decide (0x21 ≤ t) && decide (t ≤ 0x25)
  | 2 => decide (0x30 ≤ t) && decide (t ≤ 0x32)
  | _ => false
/-- The packet that some flits make, if it is well formed (17 R382). -/
def packetFrom (fl : List (List Byte)) : Option Packet :=
  match fl with
  | [] => none
  | h :: r =>
    let p := packetOf (leNat h) r.flatten
    if typeKnown p && decide (p.ndata.toNat = r.length) && decide ((p.len.toNat + 63) / 64 = r.length) then some p
    else none
/-- Free what an acknowledgement names, then replay when that is asked for (17 R384, R385). -/
def FLink.acked (l : FLink) (ack : BitVec 16) (ackv nak : Bool) : FLink :=
  let l := if ackv || nak then
      { l with replay := l.replay.filter fun e => !decide ((ack - e.1).toNat < 1024) } else l
  if nak then l.replayAll else l
/-- A flit is discarded, and NAK is due. -/
def FLink.discard (l : FLink) : FLink := { l with rxFlits := [], nak := true }
/-- A packet has been accepted: its number is past, and an acknowledgement is due. -/
def FLink.accept (l : FLink) : FLink :=
  let l := { l with rxFlits := [], rxExp := l.rxExp + 1, ackDue := true, unacked := l.unacked + 1 }
  if 32 ≤ l.unacked then l.sendIdle else l
/-- A good flit of a packet (17 R384). A neighbour exchange is this device's own, and its UNIT names the port it came in at. -/
def State.flitIn (s : State) (n : Nat) (data : List Byte) (seq : BitVec 16) (fidx : Nat) (last : Bool) : State :=
  let l := s.flink n
  let behind := (l.rxExp - seq).toNat
  if behind = 0 then
    if fidx ≠ l.rxFlits.length then s.setLink n l.discard
    else
      let fl := l.rxFlits ++ [data]
      if !last then
        if 4 ≤ fidx then s.setLink n l.discard else s.setLink n { l with rxFlits := fl }
      else
        let s := s.setLink n l.accept
        match packetFrom fl with
        | some p => s.emit (if p.typ = 0x32 then { p with dst := BitVec.ofNat 10 s.myId, unit := BitVec.ofNat 16 n } else p)
        | none => s.uncorrectable 13 (n / 3) n 0 0
  else if behind ≤ 1024 then s
  else s.setLink n l.discard
/-- FLIT_RECEIVE (17 R384): 64 bytes and the envelope. -/
def execFlitReceive (port : Nat) (bytes : List Byte) (s : State) : Out :=
  let l := s.flink port
  if !l.up || l.retraining then .next s
  else if bytes.length ≠ 72 ∨ crc24 (bytes.take 69) ≠ leNat (bytes.drop 69) then .next (s.setLink port l.discard)
  else
    let e := leNat ((bytes.drop 64).take 5)
    let bit (k : Nat) : Bool := e / 2 ^ k % 2 == 1
    let s := s.setLink port (l.acked (BitVec.ofNat 16 (e / 2 ^ 24)) (bit 20) (bit 21))
    let s := if field e 16 3 = 7 then s
      else s.flitIn port (bytes.take 64) (BitVec.ofNat 16 e) (field e 16 3) (bit 19)
    .next (s.pumpLink port)
/-- REPLAY_TIMEOUT (17 R385). -/
def execReplayTimeout (port : Nat) (s : State) : Out :=
  let l := s.flink port
  .next (if l.up && !l.retraining && !l.replay.isEmpty then s.setLink port l.replayAll else s)
/-- ACK_TIMER (17 R384): an acknowledgement goes out at least every 200 ns, so that one that is lost is repeated. -/
def execAckTimer (port : Nat) (s : State) : Out :=
  let l := s.flink port
  .next (if l.up && !l.retraining then s.setLink port l.sendIdle else s)

/-! ## Timers of requests (17 R380, R461). -/

/-- REQUEST_TIMEOUT (17 R380). -/
def execRequestTimeout (tag : W64) (s : State) : Out :=
  match s.reqOf tag with
  | none => .next s
  | some r =>
    match r.use with
    | .mgmt _ _ => .next (s.stokerAnswer { data := mgmtMark 4 } r)
    | _ => if r.sent && !r.wait then .next (s.lose r 5) else .next s
/-- The requests that this device holds, queues or runs, and the multicasts it has forwarded (17 R380, R461). -/
def State.heldList (s : State) : List Packet :=
  let far (r : SecReq) : Option Packet := if r.sender.dev = s.myId then none else some (senderPacket r)
  s.own.held ++
  (s.dampers.flatMap fun e => (e.2.queue ++ e.2.held ++ e.2.refusal ++ e.2.retry).filterMap far) ++
  (s.groups.filterMap fun g => match g.sec with
    | some r => far r
    | none => none) ++
  s.fab.mcasts.filterMap (·.parent)
/-- HELD_TIMER (17 R380): one of them sends HELD. -/
def execHeldTimer (i : Nat) (s : State) : Out :=
  match s.heldList[i]? with
  | none => .next s
  | some p => .next (if p.cls = 0 then s.replyStatus p 5 else s)
/-- MCAST_CHILD_TIMEOUT (17 R461). -/
def execMcastChildTimeout (i port : Nat) (s : State) : Out :=
  match s.fab.mcasts[i]? with
  | none => .next s
  | some m =>
    if !m.ports.contains port then .next s
    else
      let s := { s with fab := { s.fab with
        reqs := s.fab.reqs.filter fun r => !decide (r.use = ReqFor.mcast m.id port) } }
      .next (s.mcLost m.id port)

/-! ## Training and failures (17 R374, R375, R386, R387, R396). -/

/-- How training ends: the state, and whether the upper half is the live one (17 R386). -/
def trainedAs (bad : BitVec 16) : LinkSt × Bool :=
  match decide (bad.toNat % 256 = 0), decide (bad.toNat / 256 = 0) with
  | true, true => (.up16, false)
  | false, true => (.up8, true)
  | true, false => (.up8, false)
  | false, false => (.down, false)
/-- The status of a LINK_RETRAIN that ends in a state. -/
def retrainStatus : LinkSt → Nat
  | .up16 => 0
  | .up8 => 0x19
  | _ => 0x1A
/-- The LINK_RETRAIN of a link, if one waits, completes. -/
def State.retrainDone (s : State) (n : Nat) : State :=
  let l := s.flink n
  if l.byHost then (s.setLink n { l with byHost := false }).mboxDone (retrainStatus l.st) else s
/-- FABRIC_LINK_TRAINED (17 R375, R386): the link has trained, and this end tells the far end its ID and port. What the far end
has told is given, or comes later, as a packet. (DEDUCED, log entry 44.) -/
def execFabricLinkTrained (port : Nat) (badLanes : BitVec 16) (far : Option (Nat × Nat)) (s : State) : Out :=
  let l := s.flink port
  let e := trainedAs badLanes
  if 12 ≤ port ∨ s.fab.devId = none ∨ l.st = .absent ∨ (l.up && !l.retraining) then .next s
  else
    let bad := match far with
      | some (d, _) => s.nbrConflict port d
      | none => false
    if bad then
      let s := if l.up then s.linkDown port else s.setLink port { l with retraining := false }
      .next ((s.notice 10 port 0 (BitVec.ofNat 64 ((far.map (·.1)).getD 0)) 1).retrainDone port)
    else if e.1 = .down then
      .next ((if l.up then s.linkDown port else s.setLink port { l with retraining := false }).retrainDone port)
    else
      let again := l.up
      let x : FLink := { l with
        st := e.1, half := e.2, nbr := far, failed := badLanes, retraining := false
        txSeq := if again then l.txSeq else 0, rxExp := if again then l.rxExp else 0 }
      let s := s.setLink port (if again then x.replayAll else x)
      let s := if l.st = e.1 && l.half == e.2 then s else s.enumBump
      let s := { s with fab := { s.fab with trained := true } }
      .next (((s.sendNeighbour port).pumpLink port).retrainDone port)
/-- A lane lies in the half that carries traffic. -/
def FLink.laneLive (l : FLink) (lane : Nat) : Bool :=
  match l.st with
  | .up16 => true
  | .up8 => l.half == decide (8 ≤ lane)
  | _ => false
/-- FABRIC_LANE_FAIL (17 R386, R387). (DEDUCED, log entry 45.) -/
def execFabricLaneFail (port lane : Nat) (s : State) : Out :=
  let l := s.flink port
  if 16 ≤ lane ∨ !l.laneLive lane then .next s
  else if l.st = .up16 then
    let x : FLink := { l with st := .up8, half := decide (lane < 8), failed := l.failed ||| (1#16 <<< lane), rxFlits := [] }
    .next (((s.setLink port x.replayAll).enumBump).correctable 3 (port / 3) port)
  else
    let s := s.setLink port { l with failed := l.failed ||| (1#16 <<< lane) }
    .next (((s.linkDown port).uncorrectable 3 (port / 3) port 0 0).retrainDone port)
/-- LINK_RETRAIN_TIMEOUT (17 R396). -/
def execLinkRetrainTimeout (port : Nat) (s : State) : Out :=
  let l := s.flink port
  if !l.retraining then .next s
  else .next ((if l.up then s.linkDown port else s.setLink port { l with retraining := false }).retrainDone port)
/-- DIE_LINK_LANE_FAIL (01 R16). Its records name the lower of the link's dies (DESIGN CHOICE, log entry 73). -/
def execDieLinkLaneFail (link group : Nat) (s : State) : Out :=
  let l := s.sys.dlink link
  let set (s : State) (x : DLinkSt × Bool) : State :=
    { s with sys := { s.sys with dlinks := tblSet (.full, false) s.sys.dlinks link x } }
  let die := (dieLinkEnds link).1
  if 20 ≤ link ∨ 16 ≤ group then .next s
  else
    match l.1 with
    | .down => .next s
    | .full => .next (((set s (.half, decide (group < 8))).enumBump).correctable 2 die link)
    | .half =>
      if l.2 != decide (8 ≤ group) then .next s
      else .next (((set s (.down, false)).enumBump).uncorrectable 2 die link 0 0)

end Sys2Proof.Machine
end

