-- ==== Sys2Proof/Machine/EvHost.lean ====
section
/-!
DEFINITION. The mailbox: its commands, tearing down a context, and the host's answers to fault records (04 R75, R83,
R86, R90, 09 R196, R208, R211, 10 R221 to R225, 17 R374 to R376, R389, R392, R396).
-/
namespace Sys2Proof.Machine

/-! ## The submitted command (17 R396). -/

/-- n bytes of the submitted command, as a number. -/
def Hif.arg (h : Hif) (off n : Nat) : Nat := leNat ((from_ off n).map fun k => tblGet 0 h.sub k)
/-- CODE. -/
def Hif.code (h : Hif) : Nat := h.arg 0 1
/-- The command at its start, where it is the submitted one and has not begun. -/
def onCommand (code : Nat) (f : State → State) (s : State) : Out :=
  if s.hif.busy && s.hif.pending && s.hif.code == code then
    .next (f { s with hif := { s.hif with pending := false } })
  else .next s
/-- The command must wait: it stays submitted. -/
def State.cmdWaits (s : State) : State := { s with hif := { s.hif with pending := true } }
/-- The fault ring is configured (17 R396). -/
def Hif.ringOk (h : Hif) : Bool := h.fringSet && decide (4 ≤ h.fringLog.toNat) && decide (h.fringLog.toNat ≤ 16)
/-- The context exists. -/
def State.ctxOk (s : State) (c : Nat) : Bool := (s.ctx c).exists_

/-! ## Tearing down a context (09 R211, 10 R225, 16 R353, R354). -/

/-- The operations of a context on an engine stop: each completes with CONTEXT_DEAD. -/
def State.stopEngines (s : State) (c : Nat) : State :=
  foldL (fun (s : State) (e : Nat × Core) =>
    let mine (o : EngOp) : Bool := o.by_.ctx == c
    let ops := (e.2.engRun ++ e.2.engQ).filter mine
    let s := s.modCore e.1 fun x => { x with
      engRun := x.engRun.filter fun o => !mine o, engQ := x.engQ.filter fun o => !mine o }
    foldL State.engStop s ops) s s.cores
/-- The same for its Riddle operations. -/
def State.stopRiddle (s : State) (c : Nat) : State :=
  let mine (o : RidOp) : Bool := o.by_.ctx == c
  foldL (fun s o => if o.sent then s else s.ridReport o (0x0009, 0, 0, 0))
    { s with riddle := s.riddle.filter fun o => !mine o } (s.riddle.filter mine)
/-- A running section ends without SRET, once its release is done: its results are zero (10 R225). -/
def State.abortSection (s : State) (g : Group) : State × Bool :=
  match g.sec with
  | none => (s, true)
  | some r =>
    let x := s.releaseAs g.gid r.scope
    if x.2 then ((x.1.freeGroup g).sectionResult r (List.replicate r.nres 0) true, true) else (x.1, false)
/-- The sections of a context that run. -/
def State.sectionsOf (s : State) (c : Nat) : List Group := s.groups.filter fun g => g.isSection && g.ctx == c
/-- They are aborted, as far as their releases go. -/
def State.abortSections (s : State) (c : Nat) : State := foldL (fun s g => (s.abortSection g).1) s (s.sectionsOf c)
/-- Sections of a context are aborted: those that run execute nothing more, and those that are queued are dropped. -/
def State.stopSections (s : State) (c : Nat) : State :=
  let halt (g : Group) : Group := { g with suspended := some (g.suspended.getD 0) }
  let s := (s.modGroups (fun g => g.isSection && g.ctx == c) halt).abortSections c
  let mine (r : SecReq) : Bool := r.sender.ctx == c
  let out := s.dampers.flatMap fun e => (e.2.queue ++ e.2.held ++ e.2.refusal ++ e.2.retry).filter mine
  let s := s.onDampers fun d => { d with
    queue := d.queue.filter fun r => !mine r, held := d.held.filter fun r => !mine r
    refusal := d.refusal.filter fun r => !mine r, retry := d.retry.filter fun r => !mine r }
  foldL (fun s r => s.sectionResult r (List.replicate r.nres 0) true) s out
/-- The firmware's part: slots are unbound; groups, operations and sections stop. -/
def State.stopContext (s : State) (c : Nat) : State :=
  let s := s.setCtx c { s.ctx c with busy := true }
  let s := foldL (fun s j => if (s.slot j).ctx.toNat = c then s.unbind j else s) s (upTo 64)
  let ends (l : Launch) : Launch := { l with killed := l.killed || (l.ctx == c && !s.launchOver l) }
  let s : State := { s with disp := { s.disp with launches := s.disp.launches.map ends } }
  let parked := (s.ctx c).savedCores.flatMap (·.parked)
  let s := ((s.stopEngines c).stopRiddle c).stopSections c
  let s := foldL State.engStop s parked
  let s := foldL (fun s g => s.freeGroup g) s (s.groups.filter fun g => g.ctx == c && !g.isSection)
  let s := s.setCtx c { s.ctx c with saved := [], savedCores := [] }
  s.drainHome fun h => h.ctx == c
/-- CTX_TEARDOWN's status before it acts. -/
def State.tearStatus (s : State) (c : Nat) : Nat := if !s.ctxOk c then 1 else if (s.ctx c).busy then 2 else 0
/-- Start tearing down; the command ends when the context is dead. -/
def State.tearDown (s : State) (c : Nat) : State :=
  let st := s.tearStatus c
  if st = 0 then s.stopContext c else s.mboxDone st
/-- The packets that are queued for a context: queue, descriptor, index. -/
def State.queuedOf (s : State) (c : Nat) : List (Nat × W64 × W64) :=
  s.disp.queues.flatMap fun e =>
    match e.2 with
    | none => []
    | some d =>
      if s.queueCtx e.1 = c then
        let r := s.rqRptr d
        (upTo (Nat.min 65536 (s.rqWptr d - r).toNat)).map fun n => (e.1, d, r + BitVec.ofNat 64 n)
      else []
/-- A line that one of some packets lies in must be had first. -/
def State.queuedWants (s : State) (c : Nat) (l : List (Nat × W64 × W64)) : Option Nat :=
  firstSome (l.map fun e => match hwRead s c (s.rqSlot e.2.1 e.2.2) 256 with
    | .want n => some n
    | _ => none)
/-- A queued packet completes with CONTEXT_DEAD. -/
def State.deadPacket (s : State) (c : Nat) (e : Nat × W64 × W64) : State :=
  let b := match hwRead s c (s.rqSlot e.2.1 e.2.2) 256 with
    | .bytes b => some b
    | _ => none
  let s := s.rejectPacket { ctx := c, queue := e.1, index := e.2.2, devl := false, b := b } 9 0
  s.setPhysWord (e.2.1.toNat + 24) (e.2.2 + 1)
/-- A packet of the device-launch list completes with CONTEXT_DEAD. -/
def State.deadListed (s : State) (c : Nat) (e : List Byte × W64) : State :=
  s.rejectPacket { ctx := c, queue := 0, index := e.2, devl := true, b := some e.1 } 9 0
/-- CONTEXT_MARK_DEAD (09 R211): in one cycle every packet of the context in a list, queued or running completes;
then its number is free. -/
def execContextMarkDead (ctx : Nat) (s : State) : Out :=
  let s := if (s.ctx ctx).busy then s.abortSections ctx else s
  if !(s.ctx ctx).busy || !(s.sectionsOf ctx).isEmpty || s.homeQ.any (fun h => h.ctx == ctx) then
    .next (s.drainHome fun h => h.ctx == ctx)
  else
    let l := s.queuedOf ctx
    match s.queuedWants ctx l with
    | some n => .next (s.getLine 0 n false)
    | none =>
      let s := foldL (fun s e => s.deadPacket ctx e) s l
      let s := foldL (fun s e => s.deadListed ctx e) s (s.ctx ctx).devList
      let runs := s.disp.launches.filter fun x => x.ctx == ctx
      let s := foldL (fun (s : State) (x : Launch) => (s.launchDead x).dropLaunch x.id) s runs
      let s : State := { (s.setCtx ctx {}) with
        tlb := s.tlb.filter fun t => t.ctx != ctx, walks := s.walks.filter fun w => w.ctx != ctx
        cores := s.cores.map fun e => (e.1, if e.2.ctx = some ctx then { e.2 with ctx := none } else e.2) }
      .next (s.mboxDone 0)

/-! ## Commands. -/

/-- SET_ID (17 R374). -/
def execSetId (s : State) : Out :=
  onCommand 0x01 (fun s =>
    if s.fab.trained then s.mboxDone 2
    else ({ s with fab := { s.fab with devId := some (s.hif.arg 8 2 % 1024) } }).mboxDone 0) s
/-- Two grants share a granule (03 R53). -/
def grantsMeet (b n : Nat) (x : Ctx) : Bool :=
  decide (0 < n) && decide (0 < x.gsize) && decide (b < x.gbase + x.gsize) && decide (x.gbase < b + n)
/-- CTX_CREATE (17 R396). -/
def execCtxCreate (s : State) : Out :=
  onCommand 0x02 (fun s =>
    let c := s.hif.arg 8 2 % 1024
    let g := s.hif.arg 24 4
    let base := field g 0 10
    let size := field g 16 10
    if (s.ctx c).busy then s.mboxDone 2
    else if s.ctxOk c then s.mboxDone 1
    else if !s.hif.ringOk || decide (512 < base + size) || s.ctxs.any (fun e => e.2.exists_ && grantsMeet base size e.2)
      then s.mboxDone 3
    else
      (s.setCtx c { exists_ := true, ptroot := BitVec.ofNat 64 (s.hif.arg 16 8), gbase := base, gsize := size }).mboxDone 0) s
/-- CTX_TEARDOWN (09 R211). -/
def execCtxTeardown (s : State) : Out := onCommand 0x03 (fun s => s.tearDown (s.hif.arg 8 2 % 1024)) s
/-- A queue descriptor may not be registered (09 R196). -/
def State.queueBad (s : State) (d : W64) : Bool :=
  let a := d.toNat
  let g := s.sys.fuse.grade
  let w := (s.physWord (a + 8)).toNat
  a % 64 != 0 || !installed g a || !installed g (a + 63) || field w 5 3 != 0 || field w 20 44 != 0 ||
  decide (field w 0 5 < 4) || decide (16 < field w 0 5) || s.physWord (a + 16) != s.physWord (a + 24) ||
  [32, 40, 48, 56].any (fun k => s.physWord (a + k) != 0) || !s.ctxOk (field w 8 10)
/-- QUEUE_REG (09 R196). A number that is registered names no free queue. (DEDUCED, log entry 46.) -/
def execQueueReg (s : State) : Out :=
  onCommand 0x04 (fun s =>
    let q := s.hif.arg 8 2 % 16384
    let d : W64 := BitVec.ofNat 64 (s.hif.arg 16 8)
    if (s.queueDesc q).isSome || s.queueBad d then s.mboxDone 1
    else ({ s with disp := { s.disp with queues := tblSet none s.disp.queues q (some d) } }).mboxDone 0) s
/-- QUEUE_UNREG: the queue's slot is unbound (09 R208). -/
def execQueueUnreg (s : State) : Out :=
  onCommand 0x05 (fun s =>
    let q := s.hif.arg 8 2 % 16384
    if (s.queueDesc q).isNone then s.mboxDone 1
    else
      let s := foldL (fun s j => if (s.slot j).valid && (s.slot j).queue.toNat == q then s.unbind j else s) s (upTo 64)
      ({ s with disp := { s.disp with
        queues := tblSet none s.disp.queues q none, ready := tblSet false s.disp.ready q false } }).mboxDone 0) s
/-- SHOOTDOWN (04 R75): it ends with its invalidation. (DEDUCED, log entry 46.) -/
def execShootdown (s : State) : Out :=
  onCommand 0x06 (fun s =>
    let c := s.hif.arg 8 2 % 1024
    if !s.ctxOk c then s.mboxDone 1
    else { s with invals := s.invals ++
      [{ ctx := c, lo := s.hif.arg 16 8 % 2 ^ 53, len := s.hif.arg 24 8, mbox := true }] }) s

/-! ## RESOLVE (10 R221 to R225). -/

/-- The record that a RESOLVE names. -/
def State.recOf (s : State) (i : Nat) : Option RecLog := findFirst (fun r : RecLog => r.index == i) s.hif.log
/-- The record's group, where it is still suspended. -/
def State.suspendedOf (s : State) (r : RecLog) : Option Group :=
  findFirst (fun g : Group => g.gid == r.gid && g.suspended.isSome) s.everyGroup
/-- A resolved record is forgotten. -/
def State.dropRec (s : State) (i : Nat) : State :=
  { s with hif := { s.hif with log := s.hif.log.filter fun r => r.index != i } }
/-- The cause's TRAP_PC is the next instruction (10 R216, R460). -/
def RecLog.isNext (r : RecLog) : Bool :=
  [0x20, 0x21, 0x22].contains r.cause || (r.cause == 0x30 && !r.resumable)
/-- A suspended group goes on at TRAP_PC, out of its handler (10 R221); a section goes on there too (R225). -/
def Group.resume (g : Group) : Group :=
  if g.isSection then { g with suspended := none, pc := g.trapPc }
  else { g.trapReturn g.fa g.fb with suspended := none, atEntry := decide (g.trapPc = g.trapHdr) }
/-- A RESOLVE of one action: the record must be there, its group suspended, and the action allowed. -/
def resolveOp (act : Nat) (ok : RecLog → Bool) (f : State → RecLog → Group → State) (s : State) : Out :=
  if s.hif.arg 16 1 % 4 ≠ act then .next s
  else
    onCommand 0x07 (fun s =>
      match s.recOf (s.hif.arg 8 8) with
      | none => s.mboxDone 1
      | some r =>
        match s.suspendedOf r with
        | none => s.mboxDone 1
        | some g => if ok r then f s r g else s.mboxDone 1) s
/-- RESOLVE_RESUME (10 R221, R225). -/
def execResolveResume (s : State) : Out :=
  resolveOp 0 (fun r => r.resumable) (fun s r g => ((s.modEver g.gid Group.resume).dropRec r.index).mboxDone 0) s
/-- RESOLVE_SKIP (10 R221, R460): "next" causes of a group only. -/
def execResolveSkip (s : State) : Out :=
  resolveOp 1 (fun r => r.src == 0 && r.isNext)
    (fun s r g => ((s.modEver g.gid Group.resume).dropRec r.index).mboxDone 0) s
/-- RESOLVE_TERMINATE (10 R221). -/
def execResolveTerminate (s : State) : Out :=
  resolveOp 2 (fun _ => true) (fun s r _ => (s.dropRec r.index).tearDown r.ctx) s
/-- RESOLVE_ABORT (10 R225): the command waits for the section's release. -/
def execResolveAbort (s : State) : Out :=
  resolveOp 3 (fun r => r.src == 1) (fun s r g =>
    let x := s.abortSection g
    if x.2 then (x.1.dropRec r.index).mboxDone 0 else x.1.cmdWaits) s

/-! ## Migration, routes, groups (04 R83, R86, R90, 17 R376, R389). -/

/-- MIGRATE's own refusals, before other devices are asked (04 R83), in this order; theirs come after (DESIGN CHOICE, log
entry 66). -/
def State.migStatus (s : State) (c : Nat) (a : W64) (owner : Nat) : Nat :=
  if !s.hif.ringOk then 3
  else if !s.ctxOk c ∨ 2 ^ 63 ≤ a.toNat then 1
  else
    match walkEntry s 4 0 (s.ctx c).ptroot.toNat (a.toNat % 2 ^ 53) with
    | none => 0x10
    | some (_, l) =>
      let page := pageName a l.big
      if !l.isLocal || pteAnchor l.e != anchorOf a then 0x10
      else if owner = s.myId then 0x11
      else if s.mappedBy (some c) l.frame l.size then 0x12
      else if 4096 ≤ s.own.stubs.length ∧ anchorOf a ≠ s.myId then 0x14
      else if 16 ≤ s.own.migs.length ∨ (s.migOf page).isSome then 0x16
      else 0
/-- MIGRATE (04 R83). -/
def execMigrate (s : State) : Out :=
  onCommand 0x08 (fun s =>
    let c := s.hif.arg 8 2 % 1024
    let a : W64 := BitVec.ofNat 64 (s.hif.arg 16 8)
    let owner := s.hif.arg 24 2 % 1024
    let frame : W64 := BitVec.ofNat 64 (s.hif.arg 32 8)
    let st := s.migStatus c a owner
    match st, walkEntry s 4 0 (s.ctx c).ptroot.toNat (a.toNat % 2 ^ 53) with
    | 0, some (_, l) =>
      let page := pageName a l.big
      let m : Mig := { page := page, ctx := c, owner := owner, frame := frame, step := 0, waiting := 0 }
      let s := { s with own := { s.own with migs := s.own.migs ++ [m] } }
      let ask : Msg := { op := 0, page := page, a := frame, b := BitVec.ofNat 64 l.e, c := BitVec.ofNat 64 c }
      let rec_ : Msg := { op := 8, page := page, a := BitVec.ofNat 64 owner }
      (s.tellFor page [(owner, ask), (anchorOf a, rec_)]).migAsked page
    | _, _ => s.mboxDone st) s
/-- MIG_ABORT (04 R86). -/
def execMigAbort (s : State) : Out :=
  onCommand 0x0E (fun s =>
    let c := s.hif.arg 8 2 % 1024
    let a : W64 := BitVec.ofNat 64 (s.hif.arg 16 8)
    match findFirst (fun m : Mig => m.ctx == c && onPage m.page a) s.own.migs with
    | none => s.mboxDone 1
    | some m => if 3 ≤ m.step then s.mboxDone 0x18 else (s.migCancel m).mboxDone 0) s
/-- STUB_FREE (04 R90). -/
def execStubFree (s : State) : Out :=
  onCommand 0x0C (fun s =>
    let a : W64 := BitVec.ofNat 64 (s.hif.arg 8 8)
    if s.own.stubs.any (fun t => onPage t.page a) then
      ({ s with own := { s.own with stubs := s.own.stubs.filter fun t => !onPage t.page a } }).mboxDone 0
    else s.mboxDone 1) s
/-- ROUTE_WRITE (17 R376, R379). -/
def execRouteWrite (s : State) : Out :=
  onCommand 0x09 (fun s =>
    let d := s.hif.arg 8 2 % 1024
    let e := s.hif.arg 12 4
    if s.routeBad d e then s.mboxDone 1 else (s.writeRoute d e).mboxDone 0) s
/-- GROUP_WRITE (17 R389, R392). -/
def execGroupWrite (s : State) : Out :=
  onCommand 0x0A (fun s =>
    let n := s.hif.arg 8 2 % 4096
    let b := (from_ 16 32).map fun k => tblGet 0 s.hif.sub k
    let st := s.groupStatus n b
    (if st = 0 then s.writeGroup n b else s).mboxDone st) s
/-- GROUP_DRAIN (17 R392): it waits for the packets that the root accepted under the previous version. -/
def execGroupDrain (s : State) : Out :=
  onCommand 0x10 (fun s =>
    let n := s.hif.arg 8 2 % 4096
    let e := s.mgroup n
    if !e.v || e.root.toNat != s.myId then s.mboxDone 1
    else if !e.ov then s.mboxDone 0
    else if s.fab.mcasts.any (fun m => m.group == n && decide (m.ver = e.oldVer)) then s.cmdWaits
    else s.mboxDone 0) s
/-- NBR_READ (17 R375): the neighbour table goes to host memory. -/
def execNbrRead (s : State) : Out :=
  onCommand 0x0D (fun s =>
    let bs := (upTo 12).flatMap fun n => leBytes 4 (match (s.flink n).nbr with
      | some e => e.1 % 1024 + 2 ^ 10 * (e.2 % 16) + 2 ^ 15
      | none => 0)
    let m := tblSetMany 0 s.hif.hostMem ((span (s.hif.arg 8 8) 48).zip bs)
    ({ s with hif := { s.hif with hostMem := m } }).mboxDone 0) s
/-- The Stoker at the far end of a link is asked to train it again, over the link itself (17 R396; the message is the
model's, DESIGN CHOICE, log entry 11). -/
def State.askRetrain (s : State) (n : Nat) : State :=
  match (s.flink n).up, (s.flink n).nbr with
  | true, some e =>
    let b := ({ op := 10, page := 0, a := BitVec.ofNat 64 e.2 } : Msg).bytes
    let p : Packet :=
      { typ := 0x30, cls := 2, dst := BitVec.ofNat 10 e.1, src := BitVec.ofNat 10 s.myId, seqn := s.fab.seqn
        data := b, ndata := flitsOf b.length, len := BitVec.ofNat 32 b.length }
    let r : Req := { tag := tagOf p, pkt := p, use := .mgmt 10 0 }
    let s : State := { s with fab := { s.fab with seqn := s.fab.seqn + 1, reqs := s.fab.reqs ++ [r] } }
    s.linkSend n p
  | _, _ => s
/-- LINK_RETRAIN (17 R396): both ends stop and train; the command ends with the training. -/
def execLinkRetrain (s : State) : Out :=
  onCommand 0x0F (fun s =>
    let n := s.hif.arg 8 1 % 16
    if 12 ≤ n ∨ (s.flink n).st = .absent then s.mboxDone 1
    else
      let s := s.askRetrain n
      s.setLink n { s.flink n with retraining := true, byHost := true }) s

/-! ## HCOPY (17 R396). -/

/-- A context whose tables map some global bytes for an access: HCOPY names none (DESIGN CHOICE, log entry 22). -/
def State.hostCtx (s : State) (k : Kind) (a : W64) (n : Nat) : Option Nat :=
  firstSome (s.ctxs.map fun e => if e.2.exists_ && (hwKeys s e.1 k a n).isSome then some e.1 else none)
/-- HCOPY, in one direction. -/
def hcopyOp (toHost : Bool) (s : State) : Out :=
  if (s.hif.arg 32 1 % 2 == 1) != toHost then .next s
  else
    onCommand 0x0B (fun s =>
      let dev : W64 := BitVec.ofNat 64 (s.hif.arg 16 8)
      let n := s.hif.arg 24 8
      match s.hostCtx (if toHost then .load else .store) dev n with
      | none => s.mboxDone 1
      | some c =>
        let x : HCopy := { host := BitVec.ofNat 64 (s.hif.arg 8 8), dev := dev, len := n, toHost := toHost
                           counter := BitVec.ofNat 64 (s.hif.arg 40 8), ctx := c }
        ({ s with hif := { s.hif with hcopies := s.hif.hcopies ++ [x] } }).mboxDone 0) s
/-- HCOPY_TO_HOST (17 R396). -/
def execHcopyToHost (s : State) : Out := hcopyOp true s
/-- HCOPY_TO_DEVICE (17 R396). -/
def execHcopyToDevice (s : State) : Out := hcopyOp false s
/-- What an access of the host's waits for: its page migrates, updates stand before it, or a line that it needs (03 R58, 04
R84, 06 R126). -/
def State.hostWait (s : State) (wr : Bool) (ks : List Nat) : HomeWait :=
  if ks.any s.heldKey || s.unsettled ks then .stay
  else
    match if wr then s.unowned ks else s.wantLine Group.empty ks with
    | some l => .want l
    | none => .go
/-- Bytes as the host reads them; those behind a DOWN die link are poisoned (01 R16). The host link is on compute die 0. -/
def State.hostGet (s : State) (ks : List Nat) : State × List Got :=
  let r := s.readHome ks
  (r.1, (ks.zip r.2).map fun e => { e.2 with psn := e.2.psn || r.1.cutFrom 0 e.1 })
/-- Bytes that the host writes; those behind a DOWN die link are lost (01 R16). -/
def State.hostPut (s : State) (ks : List Nat) (bytes : List Byte) : State :=
  let r := s.overCut 0 ((ks.zip bytes).map fun e => (e.1, some (e.2, false)))
  r.1.homeWrite (((ks.zip bytes).filter fun e => !s.cutFrom 0 e.1).map fun e => (e.1, e.2, false))
/-- Bytes of a word that the host reads poisoned: the spec states none for HCOPY (DESIGN CHOICE, log entry 22). -/
def hostByte (s : State) (g : Got) (i : Nat) : Byte :=
  if g.psn then (Config.freeWord (s.draws + i)).setWidth 8 else g.b
/-- The bytes of a host copy are moved. -/
def State.hcopyMove (s : State) (x : HCopy) (ks : List Nat) : State :=
  if x.toHost then
    let r := s.hostGet ks
    let bs := r.2.zipIdx.map fun e => hostByte r.1 e.1 e.2
    { r.1 with hif := { r.1.hif with
      hostMem := tblSetMany 0 r.1.hif.hostMem ((span x.host.toNat x.len).zip bs) } }
  else
    s.hostPut ks ((span x.host.toNat x.len).map fun k => tblGet 0 s.hif.hostMem k)
/-- HCOPY_DONE (17 R396, 03 R67): the copy is finished; its counter grows by an amount that the spec does not state
(DESIGN CHOICE, log entry 22). -/
def execHcopyDone (i : Nat) (s : State) : Out :=
  match s.hif.hcopies[i]? with
  | none => .next s
  | some x =>
    let fin (s : State) : State :=
      let s := { s with hif := { s.hif with hcopies := s.hif.hcopies.eraseIdx i } }
      if x.counter = 0 then s
      else (s.draw.cntComplete x.ctx 0 0 x.counter (Config.freeWord s.draws) 0)
    match hwKeys s x.ctx (if x.toHost then .load else .store) x.dev x.len with
    | none => .next (fin s)
    | some ks =>
      let s := s.settle ks
      match s.hostWait (!x.toHost) ks with
      | .want l => .next (s.getLine 0 l (!x.toHost))
      | .stay => .next s
      | .go => .next (fin (s.hcopyMove x ks))
/-- MBOX_BAD_CODE (17 R396). -/
def execMboxBadCode (s : State) : Out :=
  if 1 ≤ s.hif.code ∧ s.hif.code ≤ 0x10 then .next s else onCommand s.hif.code (fun s => s.mboxDone 1) s

end Sys2Proof.Machine
end

