-- ==== Sys2Proof/Machine/Sha.lean ====
section
/-!
DEFINITION. SHA-256, which the attestation report uses (18 R402). The spec names the function and does not repeat it: it is taken
from FIPS 180-4 (PRESUMED, log entry 72).
-/
namespace Sys2Proof.Machine

/-- The round constants. -/
def shaK : List W32 :=
  [0x428A2F98, 0x71374491, 0xB5C0FBCF, 0xE9B5DBA5, 0x3956C25B, 0x59F111F1,
    0x923F82A4, 0xAB1C5ED5, 0xD807AA98, 0x12835B01, 0x243185BE, 0x550C7DC3,
    0x72BE5D74, 0x80DEB1FE, 0x9BDC06A7, 0xC19BF174] ++
  [0xE49B69C1, 0xEFBE4786, 0x0FC19DC6, 0x240CA1CC, 0x2DE92C6F, 0x4A7484AA,
    0x5CB0A9DC, 0x76F988DA, 0x983E5152, 0xA831C66D, 0xB00327C8, 0xBF597FC7,
    0xC6E00BF3, 0xD5A79147, 0x06CA6351, 0x14292967] ++
  [0x27B70A85, 0x2E1B2138, 0x4D2C6DFC, 0x53380D13, 0x650A7354, 0x766A0ABB,
    0x81C2C92E, 0x92722C85, 0xA2BFE8A1, 0xA81A664B, 0xC24B8B70, 0xC76C51A3,
    0xD192E819, 0xD6990624, 0xF40E3585, 0x106AA070] ++
  [0x19A4C116, 0x1E376C08, 0x2748774C, 0x34B0BCB5, 0x391C0CB3, 0x4ED8AA4A,
    0x5B9CCA4F, 0x682E6FF3, 0x748F82EE, 0x78A5636F, 0x84C87814, 0x8CC70208,
    0x90BEFFFA, 0xA4506CEB, 0xBEF9A3F7, 0xC67178F2]
/-- The eight working words. -/
structure Sha where
  a : W32
  b : W32
  c : W32
  d : W32
  e : W32
  f : W32
  g : W32
  h : W32
  deriving DecidableEq, Repr
/-- The initial value. -/
def Sha.init : Sha := ⟨0x6A09E667, 0xBB67AE85, 0x3C6EF372, 0xA54FF53A, 0x510E527F, 0x9B05688C, 0x1F83D9AB, 0x5BE0CD19⟩
/-- One round, with a constant and a word of the schedule. -/
def Sha.round (x : Sha) (k w : W32) : Sha :=
  let s1 := x.e.rotateRight 6 ^^^ x.e.rotateRight 11 ^^^ x.e.rotateRight 25
  let t1 := x.h + s1 + ((x.e &&& x.f) ^^^ (~~~x.e &&& x.g)) + k + w
  let s0 := x.a.rotateRight 2 ^^^ x.a.rotateRight 13 ^^^ x.a.rotateRight 22
  let t2 := s0 + ((x.a &&& x.b) ^^^ (x.a &&& x.c) ^^^ (x.b &&& x.c))
  ⟨t1 + t2, x.a, x.b, x.c, x.d + t1, x.e, x.f, x.g⟩
/-- The rounds of a block: `w` holds the next sixteen words of its schedule. -/
def Sha.rounds (x : Sha) (w : List W32) : List W32 → Sha
  | [] => x
  | k :: r =>
    let v (i : Nat) : W32 := w.getD i 0
    let s0 := (v 1).rotateRight 7 ^^^ (v 1).rotateRight 18 ^^^ v 1 >>> 3
    let s1 := (v 14).rotateRight 17 ^^^ (v 14).rotateRight 19 ^^^ v 14 >>> 10
    (x.round k (v 0)).rounds (w.drop 1 ++ [v 0 + s0 + v 9 + s1]) r
/-- A block of 64 bytes. -/
def Sha.block (x : Sha) (b : List Byte) : Sha :=
  let w := (upTo 16).map fun i => BitVec.ofNat 32 (leNat ((b.drop (4 * i)).take 4).reverse)
  let y := x.rounds w shaK
  ⟨x.a + y.a, x.b + y.b, x.c + y.c, x.d + y.d, x.e + y.e, x.f + y.f, x.g + y.g, x.h + y.h⟩
/-- The blocks of a padded message; fuel is their number. -/
def Sha.blocks (x : Sha) : Nat → List Byte → Sha
  | 0, _ => x
  | n + 1, b => (x.block (b.take 64)).blocks n (b.drop 64)
/-- The digest's 32 bytes. -/
def sha256 (m : List Byte) : List Byte :=
  let p := m ++ [0x80] ++ List.replicate ((119 - m.length % 64) % 64) 0 ++ (leBytes 8 (8 * m.length)).reverse
  let x := Sha.init.blocks (p.length / 64) p
  [x.a, x.b, x.c, x.d, x.e, x.f, x.g, x.h].flatMap fun w => (leBytes 4 w.toNat).reverse

end Sys2Proof.Machine
end

