-- ==== Sys2Proof/Machine/EvSystem.lean ====
section
/-!
DEFINITION. The host link's registers and windows, the fault ring, attestation, snapshots, errors, heat, resets and
boot (17 R394, R395, R397, 18 R398 to R411, R416).
-/
namespace Sys2Proof.Machine

/-! ## Registers of BAR0 and BAR2 (17 R394, R395, 18 R403). -/

/-- The door: a command is submitted, or discarded with DROP (17 R395, 18 R399). -/
def State.door (s : State) : State :=
  if s.hif.busy || decide (s.sys.boot ≠ .running) then { s with hif := { s.hif with drop := true } }
  else { s with hif := { s.hif with busy := true, pending := true, sub := s.hif.cmd } }
/-- The fault ring's read pointer moves (17 R397). -/
def State.setRptr (s : State) (v : W64) : State := { s with hif := { s.hif with fringRptr := v } }
/-- ATT_DOOR: a report starts, unless one is being made (18 R402). -/
def State.attStart (s : State) (v : W32) : State :=
  if v = 1 && !s.sys.attBusy then { s with sys := { s.sys with attBusy := true } } else s
/-- A host write to SNAP_TRIG (18 R403, R410). -/
def State.snapWrite (s : State) (v : W32) : State := if v = 1 then s.fireSnap 0 none else s
/-- A host write to a counter of errors, which lets its threshold record be written again (18 R409). -/
def State.setErrcnt (s : State) (k : Nat) (v : W32) : State :=
  if 16 ≤ k then s
  else { s with sys := { s.sys with
    errcnt := tblSet 0 s.sys.errcnt k v, reported := s.sys.reported.filter fun x => x != k } }
/-- A 64-bit write to a register; reserved bits and read-only registers ignore it (00 R9, R10, 17 R395, 18 R403). -/
def State.regWrite (s : State) (off : Nat) (v : W64) : State :=
  if 0x100 ≤ off ∧ off < 0x140 ∧ off % 8 = 0 then
    { s with hif := { s.hif with cmd := tblSetMany 0 s.hif.cmd ((span (off - 0x100) 8).zip (leBytes 8 v.toNat)) } }
  else if 0x400 ≤ off ∧ off < 0x420 ∧ off % 8 = 0 then
    let lo := 64 * ((off - 0x400) / 8)
    let n := s.sys.attNonce.toNat
    let n := n - field n lo 64 * 2 ^ lo + v.toNat * 2 ^ lo
    { s with sys := { s.sys with attNonce := BitVec.ofNat 256 n } }
  else if 0x2000 ≤ off ∧ off < 0x2040 ∧ off % 8 = 0 then
    let k := (off - 0x2000) / 4
    (s.setErrcnt k (v.setWidth 32)).setErrcnt (k + 1) ((v >>> 32).setWidth 32)
  else
    match off with
    | 0x140 => if v.getLsbD 0 then s.door else s
    | 0x148 => if v.getLsbD 1 then { s with hif := { s.hif with drop := false } } else s
    | 0x200 => { s with hif := { s.hif with fringBase := v &&& ~~~0xFFF#64, fringSet := true } }
    | 0x208 => { s with hif := { s.hif with fringLog := v.setWidth 5 } }
    | 0x218 => s.setRptr v
    | 0x220 => { s with hif := { s.hif with apbase := v &&& ~~~0xFFFF#64 } }
    | 0x420 => s.attStart (v.setWidth 32)
    | 0x2040 => { s with sys := { s.sys with errThresh := v.setWidth 32 } }
    | 0x3000 => { s with sys := { s.sys with snapCtl := v &&& 0xFFFFFFFF0000000F#64 } }
    | 0x3008 => s.snapWrite (v.setWidth 32)
    | _ => s
/-- REGISTER_WRITE (00 R9). -/
def execRegisterWrite (off : Nat) (v : W64) (s : State) : Out := .next (s.regWrite off v)
/-- Locations of an aperture access; none beyond the window, and none where no memory is installed (17 R395). -/
def State.apKeys (s : State) (off n : Nat) : Option (List Nat) :=
  let a := s.hif.apbase.toNat + off
  if off + n ≤ 2 ^ 20 && (from_ a n).all (installed s.sys.fuse.grade) then some (span (keyPhys a) n) else none
/-- One of the host's accesses, if it may be performed now: an aperture access at its homes, or bits of the ready set (17
R394, R395, 09 R197, 18 R405). -/
def State.hostAcc (s : State) : HostAcc → State × Bool
  | .ready j v =>
    ({ s with disp := { s.disp with
      ready := foldL (fun t b => tblSet false t (32 * j + b) true) s.disp.ready (bitsOn 32 v.toNat) } }, true)
  | .write ks bytes =>
    let s := s.settle ks
    match s.hostWait true ks with
    | .want l => (s.getLine 0 l true, false)
    | .stay => (s, false)
    | .go => (s.hostPut ks bytes, true)
  | .read ks =>
    let s := s.settle ks
    match s.hostWait false ks with
    | .want l => (s.getLine 0 l false, false)
    | .stay => (s, false)
    | .go =>
      let r := s.hostGet ks
      let bad := gotPsn r.2
      ({ r.1 with hif := { r.1.hif with
        apData := if bad then List.replicate ks.length 0xFF else r.2.map (·.b), apPsn := bad } }, true)
/-- The host's accesses are performed in its order; the first that must wait holds back those behind it (17 R395). -/
def State.hostRun (s : State) : List HostAcc → State
  | [] => { s with hif := { s.hif with hostQ := [] } }
  | a :: r =>
    let x := s.hostAcc a
    if x.2 then x.1.hostRun r else { x.1 with hif := { x.1.hif with hostQ := a :: r } }
/-- The host makes one more access. -/
def State.hostMore (s : State) (a : HostAcc) : State := s.hostRun (s.hif.hostQ ++ [a])
/-- The host's accesses that wait go on. -/
def execHostAccesses (s : State) : Out := .next (s.hostRun s.hif.hostQ)
/-- READY_SET (17 R394, 09 R197): word j of the ready set. -/
def execReadySet (j : Nat) (v : W32) (s : State) : Out :=
  if 512 ≤ j then .next s else .next (s.hostMore (.ready j v))
/-- APERTURE_WRITE (17 R395). -/
def execApertureWrite (off : Nat) (bytes : List Byte) (s : State) : Out :=
  match s.apKeys off bytes.length with
  | none => .fault (.notInstalled (s.hif.apbase.toNat + off))
  | some ks => .next (s.hostMore (.write ks bytes))
/-- APERTURE_READ (17 R395, 18 R405). -/
def execApertureRead (off len : Nat) (s : State) : Out :=
  match s.apKeys off len with
  | none => .fault (.notInstalled (s.hif.apbase.toNat + off))
  | some ks => .next (s.hostMore (.read ks))

/-! ## Reads of BAR0 and BAR2 (17 R394, R395, 18 R401 to R403, R410, R411). The host reads a register without any effect,
so no event stands for a read: these functions say what one returns. -/

/-- BOOT_STAT.STATE (18 R403). -/
def BootSt.code : BootSt → Nat
  | .rom => 0
  | .verify => 1
  | .train => 2
  | .running => 3
  | .failed => 4
/-- A byte of ATT_REPORT: the serial number is fused, the rest is what the last report wrote (18 R402). -/
def Sys.reportByte (y : Sys) (i : Nat) : Byte :=
  if 8 ≤ i ∧ i < 16 then BitVec.ofNat 8 (y.fuse.serial.toNat / 2 ^ (8 * (i - 8))) else tblGet 0 y.attReport i
/-- The aligned 64-bit word of BAR0 at an offset below the aperture; a write-only register and an offset of no register
read 0 (00 R9, R10). -/
def State.bar0 (s : State) (off : Nat) : W64 :=
  let h := s.hif
  let y := s.sys
  let num (n : Nat) : W64 := BitVec.ofNat 64 n
  let bytes (t : Nat → Byte) (base : Nat) : W64 := num (leNat ((from_ (off - base) 8).map t))
  if 0x400 ≤ off ∧ off < 0x420 then num (field y.attNonce.toNat (8 * (off - 0x400)) 64)
  else if 0x800 ≤ off ∧ off < 0x900 then bytes y.reportByte 0x800
  else if 0x1000 ≤ off ∧ off < 0x1800 then bytes Config.certByte 0x1000
  else if 0x2000 ≤ off ∧ off < 0x2040 then
    let k := (off - 0x2000) / 4
    num ((tblGet 0 y.errcnt k).toNat + 2 ^ 32 * (tblGet 0 y.errcnt (k + 1)).toNat)
  else if 0x2048 ≤ off ∧ off < 0x2060 then tblGet 0 y.migCnt ((off - 0x2048) / 8)
  else if 0x10000 ≤ off ∧ off < 0x20000 then bytes (tblGet 0 y.snap.image) 0x10000
  else
    match off with
    | 0x000 => num (1 + 2 ^ 16 * y.fuse.grade.code)
    | 0x008 => num (y.boot.code + 2 ^ 8 * y.bootReason.toNat + 2 ^ 16 * y.bootSvn.toNat)
    | 0x148 =>
      num ((if h.busy then 1 else 0) + (if h.drop then 2 else 0) + 2 ^ 16 * h.status.toNat + 2 ^ 32 * h.count.toNat)
    | 0x200 => h.fringBase
    | 0x208 => h.fringLog.setWidth 64
    | 0x210 => h.fringWptr
    | 0x218 => h.fringRptr
    | 0x220 => h.apbase
    | 0x428 => num (if y.attBusy then 1 else 0)
    | 0x2040 => y.errThresh.setWidth 64
    | 0x3000 => y.snapCtl
    | 0x3010 => y.snapMissed.setWidth 64
    | _ => 0
/-- The aligned 64-bit word of BAR2 at an offset: the enumeration table and the ready bitmap (17 R394); zero until the
boot's step 4 ends (18 R399). -/
def State.bar2 (s : State) (off : Nat) : W64 :=
  if s.sys.bootStep ≤ 4 then 0
  else if off < 0x800 then enumWord s (off / 8)
  else if 0x1000 ≤ off ∧ off < 0x1800 then
    let q := 8 * (off - 0x1000)
    BitVec.ofNat 64 (foldL (fun n b => if tblGet false s.disp.ready (q + b) then n + 2 ^ b else n) 0 (upTo 64))
  else 0

/-! ## The fault ring (17 R397). -/

/-- FRING_RPTR (17 R397). -/
def execFringRptr (v : W64) (s : State) : Out := .next (s.setRptr v)
/-- Raise an MSI-X vector. -/
def State.msi (s : State) (v : Nat) : State :=
  { s with hif := { s.hif with msix := tblSet 0 s.hif.msix v (tblGet 0 s.hif.msix v + 1) } }
/-- FAULT_RECORD_WRITE (17 R397, 18 R407): the oldest record, once the ring has room. (DEDUCED, log entry 43.) -/
def execFaultRecordWrite (s : State) : Out :=
  match s.hif.records with
  | [] => .next s
  | r :: l =>
    let h := s.hif
    if !h.ringOk || decide (2 ^ h.fringLog.toNat ≤ (h.fringWptr - h.fringRptr).toNat) then .next s
    else
      let a := h.fringBase.toNat + 32 * (h.fringWptr.toNat % 2 ^ h.fringLog.toNat)
      let bs := r.words.flatMap fun w => leBytes 8 w.toNat
      let log := match r.log with
        | some x => h.log ++ [{ x with index := h.fringWptr.toNat }]
        | none => h.log
      let s : State := { s with hif := { h with
        records := l, hostMem := tblSetMany 0 h.hostMem ((span a 32).zip bs), fringWptr := h.fringWptr + 1, log := log } }
      let src := field (r.words.headD 0).toNat 8 4
      let s := s.msi 1
      .next (if src = 3 then s.msi 2 else if src = 4 then s.msi 3 else s)

/-! ## Attestation (18 R402). -/

/-- ATT_DOOR (18 R402). -/
def execAttDoor (v : W32) (s : State) : Out := .next (s.attStart v)
/-- The report; only the device can make the bytes of its signature. SHA-256 is that of FIPS 180-4 (PRESUMED, log entry
72). -/
def State.attBytes (s : State) : List Byte :=
  leBytes 4 1 ++ leBytes 4 s.sys.bootSvn.toNat ++ leBytes 8 s.sys.fuse.serial.toNat ++
  leBytes 32 s.sys.image.hash.toNat ++ sha256 ((upTo 2048).map (enumByte s)) ++
  leBytes 32 s.sys.attNonce.toNat ++ leBytes 8 s.sys.cycle.toNat ++ List.replicate 72 0 ++
  (upTo 64).map (Config.freeSignature s.draws)
/-- ATT_REPORT_DONE (18 R402). -/
def execAttReportDone (s : State) : Out :=
  if !s.sys.attBusy then .next s
  else
    let t := tblSetMany (0 : Byte) [] ((upTo 256).zip s.attBytes)
    .next { s.draw with sys := { s.sys with attReport := t, attBusy := false } }

/-! ## Snapshots (18 R410, R411). -/

/-- SNAP_TRIG (18 R410). -/
def execSnapTrig (v : W32) (s : State) : Out := .next (s.snapWrite v)
/-- A clause flag number as a byte: 15 for none. -/
def flagByte (f : FlagSel) : Nat :=
  match f with
  | some n => n.val
  | none => 15
/-- A group's part of its core's record: next PC, m0, clause flags, core-local number (the order of 18 R411, packed
as log entry 23 says, a DESIGN CHOICE). -/
def snapGroup (g : Group) : List Byte :=
  leBytes 8 g.pc.toNat ++ leBytes 4 (g.mGet 0).toNat ++
  [BitVec.ofNat 8 (flagByte g.fa), BitVec.ofNat 8 (flagByte g.fb)] ++ leBytes 2 g.localNum
/-- A block's record: its type and length, then what it holds (18 R411). -/
def snapRecord (typ : Nat) (body : List Byte) : List Byte := leBytes 4 (typ + 2 ^ 16 * (4 + body.length)) ++ body
/-- A block's last PMARK: its tag, then its CYCLE. -/
def snapMark (mark : BitVec 12) (cyc : W64) : List Byte := leBytes 2 mark.toNat ++ leBytes 8 cyc.toNat
/-- A core's record. -/
def State.snapCore (s : State) (c : Nat) : List Byte :=
  snapRecord 1 ((s.residents c).flatMap snapGroup ++ leBytes 8 (s.arr (c / 2)).status ++
    snapMark (s.core c).mark (s.core c).markCycle)
/-- A Damper's own record: its last PMARK (18 R413; of type 2, as log entry 23 says, a DESIGN CHOICE). -/
def State.snapDamper (s : State) (d : Nat) : List Byte :=
  snapRecord 2 (snapMark (s.damper d).mark (s.damper d).markCycle)
/-- The image of a latch: the header, then every live core's record and every live Damper's. -/
def State.snapImage (s : State) (gen : W32) (src : BitVec 5) (tag : BitVec 12) (cyc : W64) : List Byte :=
  (leBytes 4 gen.toNat ++ leBytes 4 src.toNat ++ leBytes 4 tag.toNat ++ leBytes 4 0 ++ leBytes 8 cyc.toNat ++ leBytes 8 0 ++
    (upTo s.sys.fuse.ncores).flatMap s.snapCore ++ (upTo s.sys.fuse.ndampers).flatMap s.snapDamper).take 65536
/-- SNAPSHOT_LATCH (18 R410, R411): the oldest trigger's, whose cycle T + 32 this step stands for. -/
def execSnapshotLatch (s : State) : Out :=
  match s.sys.snapPend with
  | [] => .next s
  | (t, src, tag) :: r =>
    let y := s.sys
    let gen := y.snap.gen + 1
    let tag := tag.getD 0
    let bs := s.snapImage gen src tag (t + 32)
    .next { s.draw with sys := { y with
      snap := { gen := gen, src := src, tag := tag, cyc := t + 32, image := tblSetMany (0 : Byte) [] ((upTo bs.length).zip bs) }
      snapCtl := y.snapCtl &&& ~~~1#64, snapPend := r } }

/-! ## Errors and heat (18 R404, R409, R416). -/

/-- ERRCNT (18 R409). -/
def execErrcnt (kind : Nat) (v : W32) (s : State) : Out := .next (s.setErrcnt kind v)
/-- Held bytes of a word become poisoned. -/
def poisonHeld (w : Nat) (t : List (Nat × Held)) : List (Nat × Held) :=
  t.map fun e => (e.1, if e.1 / 8 = w then e.2.map fun b => (b.1, true) else e.2)
/-- Data that an error is in is poisoned where it is (18 R404, R405). -/
def State.poisonAt (s : State) : BadWord → State
  | .mem w => s.setPsn (8 * w) true
  | .l1 c l w => s.modCore c fun x => { x with
      l1 := x.l1.map fun e => if e.line = l then { e with psn := e.psn ||| (1#8 <<< w) } else e }
  | .own gid w => s.modEver gid fun g => { g with
      priv := poisonHeld w g.priv, fences := g.fences.map fun f => { f with cover := poisonHeld w f.cover } }
  | .narrow c w => s.modCore c fun x => { x with narrow := poisonHeld w x.narrow }
  | .acc p i => s.setArr p { s.arr p with accPsn := tblSet false (s.arr p).accPsn i true }
  | .packet i w => { s with fab := { s.fab with
      outbox := s.fab.outbox.zipIdx.map fun e => if e.2 = i then { e.1 with psn := e.1.psn ||| (1#64 <<< w) } else e.1 } }
/-- ERROR_DETECTED (18 R404): counted, or reported with its data poisoned. KIND 16 is never correctable (R408). -/
def execErrorDetected (e : ErrInfo) (s : State) : Out :=
  if e.correctable && decide (e.kind < 16) then .next (s.correctable e.kind e.die.toNat e.inst.toNat)
  else
    let s := foldL State.poisonAt s e.words
    .next (s.uncorrectable e.kind e.die.toNat e.inst.toNat e.addr e.tag)
/-- THERMAL_THROTTLE (18 R416): at 115 degrees one record of KIND 14 is written. -/
def execThermalThrottle (degrees : Nat) (s : State) : Out :=
  let s := { s with sys := { s.sys with throttle := true } }
  if 115 ≤ degrees ∧ !s.sys.alerted then
    .next ({ s with sys := { s.sys with alerted := true } }.uncorrectable 14 0 0 0 0)
  else .next s
/-- THERMAL_CONDITION_CLEAR (18 R416). -/
def execThermalConditionClear (s : State) : Out :=
  .next { s with sys := { s.sys with throttle := false, alerted := false } }

/-! ## Resets and boot (18 R398 to R400). -/

/-- What outlives every reset: the fuses, the module's flash, the host's memory, and the model's own counters. -/
def State.keep (s : State) (t : State) : State :=
  { t with
    draws := s.draws, nextId := s.nextId, sched := s.sched
    hif := { t.hif with hostMem := s.hif.hostMem }
    sys := { t.sys with fuse := s.sys.fuse, flash := s.sys.flash, boots := s.sys.boots + 1 } }
/-- COLD_RESET (18 R398): memory contents are undefined; they stand as at power-on (DESIGN CHOICE, log entry 4). -/
def execColdReset (s : State) : Out := .next (s.keep State.reset)
/-- What memory holds of a last-level line that was not written back (18 R398). -/
def State.lineLost (s : State) (l : Nat) : State :=
  let s := s.putBytes ((from_ (64 * l) 64).map fun k => (k, Config.freeOld s.draws k))
  foldL (fun s j => s.setPsn (64 * l + 8 * j) (Config.freeOldMark s.draws (8 * l + j))) s (upTo 8)
/-- FUNCTION_RESET (18 R398): DRAM and LPDDR stay, poison marks included, without what only caches held: which of the lines
that have been published since the last reset those are is free (DESIGN CHOICE, log entry 70). The image that ran stays
(R400), unless the boot of a cold reset had not read it yet. -/
def execFunctionReset (s : State) : Out :=
  let t := s.keep State.reset
  let phys (k : Nat) : Bool := decide (k < regionBase 1)
  let lost := ((s.wts.map (·.1)).filter fun l => phys (64 * l)).filter (Config.freeDirty s.draws)
  let t : State := { t with
    mem := tblKeep phys s.mem, poison := tblKeep (fun w => phys (8 * w)) s.poison
    sys := { t.sys with cold := s.sys.cold && s.sys.bootStep == 1 && decide (s.sys.boot = .rom), image := s.sys.image } }
  .next (foldL State.lineLost t lost).draw
/-- POWER_GOOD_LOSS (18 R398). -/
def execPowerGoodLoss (s : State) : Out :=
  let t := s.keep State.reset
  .next { t with sys := { t.sys with powered := false } }
/-- FIRMWARE_IMAGE_WRITE (18 R400): it takes effect at the next cold reset. -/
def execFirmwareImageWrite (img : FwImage) (s : State) : Out :=
  .next { s with sys := { s.sys with flash := img } }
/-- The boot ROM stops (18 R399, R400). -/
def State.bootFail (s : State) (reason : BitVec 8) : State :=
  { s with sys := { s.sys with boot := .failed, bootReason := reason } }
/-- BOOT_STEP_COMPLETE (18 R399, R400): 1 reads the image, 2 verifies it, 3 trains memory, 4 trains die links, 5 loads
TVEC and the handlers. -/
def execBootStepComplete (s : State) : Out :=
  let y := s.sys
  if !y.powered || decide (y.boot = .running) || decide (y.boot = .failed) then .next s
  else
    match y.bootStep with
    | 1 =>
      .next { s with sys := { y with bootStep := 2, boot := .verify, image := if y.cold then y.flash else y.image } }
    | 2 =>
      if !y.image.sigOk then .next (s.bootFail 1)
      else if y.image.svn.toNat < y.fuse.minSvn.toNat then .next (s.bootFail 2)
      else .next { s with sys := { y with bootStep := 3, boot := .train } }
    | 3 => .next { s with sys := { y with bootStep := 4 } }
    | 4 => .next { s with sys := { y with bootStep := 5 } }
    | _ =>
      .next { s with sys := { y with
        boot := .running, tvec := Config.tvecOf y.boots, bootSvn := y.image.svn
        fuse := { y.fuse with minSvn := if y.fuse.minSvn.toNat < y.image.svn.toNat then y.image.svn else y.fuse.minSvn } } }

end Sys2Proof.Machine
end

