-- ==== Sys2Proof/Machine/Uniform.lean ====
section
/-!
DEFINITION. Uniform arithmetic, moves, selection, bit fields and SETC (12 R265 to R270).
-/
namespace Sys2Proof.Machine

/-- A uniform instruction that writes sA from b and c. -/
def uop (s : State) (u : Bool) (a b : SReg) (c : UC) (f : W64 → W64 → W64) : Out :=
  stalled s ([useS a, useS b] ++ ucUses c) fun s =>
    .next (s.setG ((s.g.retire (ucWords c)).sSet a (f (s.g.sGet b) (ucVal s.g u c))))
/-- A uniform instruction that writes sA from b alone. -/
def uop1 (s : State) (words : Nat) (a b : SReg) (f : W64 → W64) : Out :=
  stalled s [useS a, useS b] fun s =>
    .next (s.setG ((s.g.retire words).sSet a (f (s.g.sGet b))))
/-- A uniform instruction that writes a constant to sA. -/
def uconst (s : State) (words : Nat) (a : SReg) (v : W64) : Out :=
  stalled s [useS a] fun s => .next (s.setG ((s.g.retire words).sSet a v))

/-- ADD (12 R265). -/
def execAdd (a b : SReg) (c : UC) (s : State) : Out := uop s false a b c fun x y => x + y
/-- SUB (12 R265). -/
def execSub (a b : SReg) (c : UC) (s : State) : Out := uop s false a b c fun x y => x - y
/-- MULL (12 R265). -/
def execMull (a b : SReg) (c : UC) (s : State) : Out := uop s false a b c fun x y => x * y
/-- The high half of a product (12 R265). -/
def mulHigh (u : Bool) (x y : W64) : W64 :=
  if u then BitVec.ofNat 64 (x.toNat * y.toNat / 2 ^ 64)
  else BitVec.ofInt 64 (x.toInt * y.toInt / 2 ^ 64)
/-- MULH, MULH.u (12 R265). -/
def execMulh (u : Bool) (a b : SReg) (c : UC) (s : State) : Out := uop s u a b c (mulHigh u)
/-- The quotient (12 R266). -/
def divide (u : Bool) (x y : W64) : W64 :=
  if y = 0 then 0xFFFFFFFFFFFFFFFF
  else if u then BitVec.ofNat 64 (x.toNat / y.toNat) else BitVec.ofInt 64 (x.toInt.tdiv y.toInt)
/-- The remainder (12 R266). -/
def remainder (u : Bool) (x y : W64) : W64 :=
  if y = 0 then x
  else if u then BitVec.ofNat 64 (x.toNat % y.toNat) else BitVec.ofInt 64 (x.toInt.tmod y.toInt)
/-- DIV, DIV.u (12 R265, R266). -/
def execDiv (u : Bool) (a b : SReg) (c : UC) (s : State) : Out := uop s u a b c (divide u)
/-- REM, REM.u (12 R265, R266). -/
def execRem (u : Bool) (a b : SReg) (c : UC) (s : State) : Out := uop s u a b c (remainder u)
/-- b is below c, as s64 or u64. -/
def below (u : Bool) (x y : W64) : Bool := if u then x.ult y else x.slt y
/-- MIN, MIN.u (12 R265). -/
def execMin (u : Bool) (a b : SReg) (c : UC) (s : State) : Out :=
  uop s u a b c fun x y => if below u y x then y else x
/-- MAX, MAX.u (12 R265). -/
def execMax (u : Bool) (a b : SReg) (c : UC) (s : State) : Out :=
  uop s u a b c fun x y => if below u x y then y else x
/-- AND (12 R265). -/
def execAnd (a b : SReg) (c : UC) (s : State) : Out := uop s false a b c fun x y => x &&& y
/-- OR (12 R265). -/
def execOr (a b : SReg) (c : UC) (s : State) : Out := uop s false a b c fun x y => x ||| y
/-- XOR (12 R265). -/
def execXor (a b : SReg) (c : UC) (s : State) : Out := uop s false a b c fun x y => x ^^^ y
/-- SHL (12 R265). -/
def execShl (a b : SReg) (c : UC) (s : State) : Out := uop s false a b c fun x y => x <<< (y.toNat % 64)
/-- SHR (12 R265). -/
def execShr (a b : SReg) (c : UC) (s : State) : Out := uop s false a b c fun x y => x >>> (y.toNat % 64)
/-- SHRA (12 R265). -/
def execShra (a b : SReg) (c : UC) (s : State) : Out :=
  uop s false a b c fun x y => x.sshiftRight (y.toNat % 64)
/-- ROT (12 R265). -/
def execRot (a b : SReg) (c : UC) (s : State) : Out :=
  uop s false a b c fun x y => x.rotateLeft (y.toNat % 64)
/-- CLZ (12 R265). -/
def execClz (ext : Bool) (a b : SReg) (s : State) : Out :=
  uop1 s (extWords ext) a b fun x => BitVec.ofNat 64 (clzN 64 x.toNat)
/-- POPC (12 R265). -/
def execPopc (ext : Bool) (a b : SReg) (s : State) : Out :=
  uop1 s (extWords ext) a b fun x => BitVec.ofNat 64 (popN 64 x.toNat)

/-- MOV (12 R267). -/
def execMov (ext : Bool) (a b : SReg) (s : State) : Out := uop1 s (extWords ext) a b id
/-- MOV of an immediate (12 R267). -/
def execMovImm (a : SReg) (v : W32) (s : State) : Out := uconst s 3 a (sext64 v)
/-- MOVI with a 32-bit literal (12 R267). -/
def execMovi (a : SReg) (v : W32) (s : State) : Out := uconst s 2 a (sext64 v)
/-- MOVI with a 64-bit literal (11 R239, 12 R267). -/
def execMoviQ (a : SReg) (v : W64) (s : State) : Out := uconst s 3 a v
/-- ADDI (12 R267). -/
def execAddi (a b : SReg) (v : W32) (s : State) : Out := uop1 s 2 a b fun x => x + sext64 v

/-- SEL's c and d, its words and the registers it reads besides b. -/
def selForm (g : Group) (a : SReg) : SelForm → W64 × W64 × Nat × List Nat
  | .one c => (g.sGet c, g.sGet a, 1, [useS c])
  | .ext c d => (g.sGet c, g.sGet d, 3, [useS c, useS d])
  | .extImm v d => (sext64 v, g.sGet d, 3, [useS d])
/-- SEL (12 R267). -/
def execSel (a b : SReg) (f : SelForm) (s : State) : Out :=
  stalled s ([useS a, useS b] ++ (selForm s.g a f).2.2.2) fun s =>
    let x := selForm s.g a f
    .next (s.setG ((s.g.retire x.2.2.1).sSet a (if x.2.1 ≠ 0 then s.g.sGet b else x.1)))
/-- LEA's shift, displacement, added register, words and reads (12 R268). -/
def leaForm (g : Group) : LeaForm → Nat × W64 × W64 × Nat × List Nat
  | .two sh disp => (sh.val, disp.signExtend 64, 0, 2, [])
  | .three sh disp d => (sh.val, disp.signExtend 64, g.sGet d, 3, [useS d])
/-- LEA (12 R268). -/
def execLea (a b c : SReg) (f : LeaForm) (s : State) : Out :=
  stalled s ([useS a, useS b, useS c] ++ (leaForm s.g f).2.2.2.2) fun s =>
    let x := leaForm s.g f
    .next (s.setG ((s.g.retire x.2.2.2.1).sSet a
      (s.g.sGet b + (s.g.sGet c <<< x.1) + x.2.1 + x.2.2.1)))

/-- Position, length, X, words and reads of a bit field (12 R269). -/
def bitForm (g : Group) : BitForm → Nat × Nat × Bool × Nat × List Nat
  | .lit2 p l x => (p.val, l.val, x, 2, [])
  | .lit3 p l x => (p.val, l.val, x, 3, [])
  | .reg c =>
    let v := (g.sGet c).toNat
    let p := field v 0 6
    (p, Nat.min (field v 6 7) (64 - p), field v 13 1 == 1, 3, [useS c])
/-- BEXT (12 R269). -/
def execBext (a b : SReg) (f : BitForm) (s : State) : Out :=
  stalled s ([useS a, useS b] ++ (bitForm s.g f).2.2.2.2) fun s =>
    let x := bitForm s.g f
    let v := field (s.g.sGet b).toNat x.1 x.2.1
    let r := if x.2.1 = 0 then 0#64
      else if x.2.2.1 then BitVec.ofInt 64 (toInt x.2.1 v) else BitVec.ofNat 64 v
    .next (s.setG ((s.g.retire x.2.2.2.1).sSet a r))
/-- BINS (12 R269). -/
def execBins (a b : SReg) (f : BitForm) (s : State) : Out :=
  stalled s ([useS a, useS b] ++ (bitForm s.g f).2.2.2.2) fun s =>
    let x := bitForm s.g f
    let m : W64 := BitVec.ofNat 64 ((2 ^ x.2.1 - 1) * 2 ^ x.1)
    let r := (s.g.sGet a &&& ~~~m) ||| ((s.g.sGet b <<< x.1) &&& m)
    .next (s.setG ((s.g.retire x.2.2.2.1).sSet a r))
/-- SETC (12 R270). -/
def execSetc (cond : Cond) (a b : SReg) (c : UC) (s : State) : Out :=
  uop s false a b c fun x y => if condHolds cond 64 x.toNat y.toNat then 1 else 0

end Sys2Proof.Machine
end

