-- ==== Sys2Proof/Machine/Masks.lean ====
section
/-!
DEFINITION. Mask instructions and system registers (12 R271 to R277).
-/
namespace Sys2Proof.Machine

/-- A mask instruction that writes mA (12 R271). -/
def maskOp (s : State) (a : MReg) (v : W32) : Out := .next (s.setG ((s.g.retire 1).mSet a v))
/-- MSET (12 R271). -/
def execMset (a : MReg) (b : SReg) (s : State) : Out :=
  stalled s [useS b] fun s => maskOp s a ((s.g.sGet b).setWidth 32)
/-- MAND (12 R271). -/
def execMand (a b c : MReg) (s : State) : Out := maskOp s a (s.g.mGet b &&& s.g.mGet c)
/-- MOR (12 R271). -/
def execMor (a b c : MReg) (s : State) : Out := maskOp s a (s.g.mGet b ||| s.g.mGet c)
/-- MXOR (12 R271). -/
def execMxor (a b c : MReg) (s : State) : Out := maskOp s a (s.g.mGet b ^^^ s.g.mGet c)
/-- MNOT (12 R271). -/
def execMnot (a b : MReg) (s : State) : Out := maskOp s a (~~~(s.g.mGet b))
/-- MPOP (12 R271). -/
def execMpop (a : SReg) (b : MReg) (s : State) : Out :=
  uconst s 1 a (BitVec.ofNat 64 (popN 32 (s.g.mGet b &&& s.g.present).toNat))
/-- MFIRST (12 R271). -/
def execMfirst (a : SReg) (b : MReg) (s : State) : Out :=
  uconst s 1 a (BitVec.ofNat 64 ((lowBit 32 0 (s.g.mGet b &&& s.g.present).toNat).getD 32))
/-- MMOV (12 R271). -/
def execMmov (a : SReg) (b : MReg) (s : State) : Out := uconst s 1 a ((s.g.mGet b).setWidth 64)

/-- One bit of a register. -/
def bitAt (k : Nat) (b : Bool) : Nat := if b then 2 ^ k else 0
/-- The value of a system register (08 R178, 10 R218, R227, 12 R274, R275, 01 R24). -/
def csrValue (s : State) (n : Nat) : W64 :=
  let g := s.g
  if n = 0x100 then g.gidx.setWidth 64
  else if n = 0x101 then g.ngrp.setWidth 64
  else if n = 0x102 then BitVec.ofNat 64 (g.localNum % 32 + 32 * (g.onCore % 64))
  else if 0x109 ≤ n ∧ n ≤ 0x10F then BitVec.ofNat 64 (g.lvlIdx.getD (n - 0x109) 0 % 65536)
  else if 0x110 ≤ n ∧ n ≤ 0x117 then BitVec.ofNat 64 (g.lvlCnt.getD (n - 0x110) 0 % 65536)
  else if n = 0x118 then g.team.setWidth 64
  else if n = 0x119 then BitVec.ofNat 64 (s.sys.fuse.clusterOf (unitCoreN g.unit) % 128)
  else if n = 0x11A then
    BitVec.ofNat 64 (bitAt 0 (unitCoreN g.unit % 2 == 0) + bitAt 1 (decide (g.producer = some g.localNum)) +
      bitAt 2 s.isMatrix)
  else if n = 0x200 then g.trapCause
  else if n = 0x201 then g.trapPc
  else if n = 0x202 then g.trapAddr
  else if n = 0x203 then g.trapInfo
  else if n = 0x204 then g.trapMask
  else if n = 0x205 then g.trapHdr
  else if n = 0x206 then g.save0
  else if n = 0x207 then g.save1
  else if n = 0x208 then s.sys.tvec
  else if n = 0x209 then g.utvec
  else if n = 0x20A then BitVec.ofNat 64 (bitAt 0 g.handler + bitAt 1 g.ufwd)
  else if n = 0x20B then g.saveBase
  else if n = 0x210 then s.mstate
  else if n = 0x300 then (s.ctx g.ctx).ptroot
  else if n = 0x400 then s.sys.cycle
  else if n = 0x401 then g.retired
  else enumWord s (n - 0x1000)
/-- TRAP_INFO of PRIVILEGE for a read (12 R274). -/
def csrReadPriv (g : Group) (n : Nat) : Option W64 :=
  if n = 0x300 ∨ ((n = 0x206 ∨ n = 0x207) ∧ !g.handler) then some 1 else none
/-- A section may not read the register (12 R277). -/
def csrReadSec (n : Nat) : Option Nat := if n < 0x400 then some 0x17 else none
/-- CSRRD (12 R273, R274, R276). -/
def execCsrrd (a : SReg) (num : BitVec 15) (s : State) : Out :=
  let n := num.toNat
  uniform s (csrReadPriv s.g n) (csrReadSec n) [useS a] fun s =>
    .next (s.setG ((s.g.retire 1).sSet a (csrValue s n)))

/-- A system register takes its writable bits (10 R218). -/
def Group.csrSet (g : Group) (n : Nat) (v : W64) : Group :=
  if n = 0x200 then { g with trapCause := v &&& 0x1FFFF }
  else if n = 0x201 then { g with trapPc := v }
  else if n = 0x202 then { g with trapAddr := v }
  else if n = 0x203 then { g with trapInfo := v }
  else if n = 0x204 then { g with trapMask := v }
  else if n = 0x205 then { g with trapHdr := v }
  else if n = 0x206 then { g with save0 := v }
  else if n = 0x207 then { g with save1 := v }
  else if n = 0x209 then { g with utvec := v }
  else g
/-- CSRWR (12 R273, R274, R277). -/
def execCsrwr (a : SReg) (num : BitVec 15) (s : State) : Out :=
  let n := num.toNat
  uniform s (if n = 0x300 ∨ (n ≠ 0x209 ∧ !s.g.handler) then some 1 else none) (some 0x17) [useS a]
    fun s => .next (s.setG ((s.g.retire 1).csrSet n (s.g.sGet a)))

end Sys2Proof.Machine
end

