-- ==== Sys2Proof/Machine/Riddle.lean ====
section
/-!
DEFINITION. GATHER, SCATTER, SCATADD and MCST (16 R358 to R365).
-/
namespace Sys2Proof.Machine

/-- What an object's address fails: the window and alignment rules of 03 R64 or R67. An address that is not in one of
their windows, or not in its space, gives SPACE_RANGE with 0 (16 R360 check 1). -/
def objFail (s : State) (w : Who) (bar : Bool) (a : W64) : Option Fail :=
  if !(if bar then barWindow (window a) else cntWindow (window a)) || (failOf (check14 s w a 16)).isSome then some ⟨0x0C, a, 0⟩
  else if a.toNat % 16 ≠ 0 then some ⟨0x05, a, 16⟩
  else none
/-- The register that a completion object names. -/
def complUses : Compl → List Nat
  | .tok _ => []
  | .bar c => [useS c]
  | .cnt c => [useS c]
/-- The object's address. -/
def complAddr (g : Group) : Compl → W64
  | .tok _ => 0
  | .bar c => g.sGet c
  | .cnt c => g.sGet c
/-- Check 2 (16 R360): the base, or MCST's offset; the range comes before the alignment, as in 02 R35. (DEDUCED, log entry 33.) -/
def ridBaseFail (o : RidOp) : Option Fail :=
  let a := o.base
  let out := if o.kind = .mcst then decide (256 < a.toNat % 256 + o.esz) else decide (2 ^ 63 ≤ a.toNat)
  if out then some ⟨0x0C, a, 0⟩ else if a.toNat % 4 ≠ 0 then some ⟨0x05, a, 4⟩ else none
/-- Checks 1 to 5 of 16 R360. (DEDUCED, log entry 31.) -/
def ridFail (s : State) (o : RidOp) (co : Compl) : Option Fail :=
  let w := s.who
  let spec (sp : Space) (off n al : Nat) : Option Fail := failOf (checkSpecific s w sp (BitVec.ofNat 64 off) n al)
  firstSome [
    (match co with
     | .tok _ => none
     | .bar _ => objFail s w true o.doneAddr
     | .cnt _ => objFail s w false o.doneAddr),
    ridBaseFail o,
    (if o.kind = .mcst then none else spec .core o.idx (4 * o.count) 4),
    spec o.space o.loc (o.count * o.esz) 1,
    (if o.nobm then none else spec .core o.fbm o.fbmBytes (if o.kind = .mcst then 16 else 4))]
/-- The probe of TR = 1: the lowest element that fails (16 R363). -/
def ridProbe (s : State) (o : RidOp) : Option Fail :=
  firstSome ((List.range o.count).map fun i => (failOf (o.elem s i)).map fun e =>
    { e with addr := o.elemAddr s i })
/-- A Riddle instruction (16 R358 to R360). -/
def riddleOp (kind : RidKind) (base : SReg) (co : Compl) (tr : Bool) (p : PBlock) (wf : PBlock → Bool)
    (s : State) : Out :=
  let run (s : State) : Out :=
    if !(pbFits s.g p && wf (pbLit s.g p)) then s.illegal 0
    else
      let ws := pbVals s.g p
      let o : RidOp :=
        { id := s.nextId, kind := kind, by_ := issuerOf s.g, core := unitCoreN s.g.unit, base := s.g.sGet base
          p := ws, doneAddr := complAddr s.g co, clock := s.g.memberPair
          done := (match co with
            | .tok k => .tok k.val
            | .bar _ => .bar (field (ws.getD 1 0).toNat 18 1 == 1)
            | .cnt _ => .cnt) }
      let o := { o with todo := List.range (o.count * o.perElem) }
      match ridFail s o co with
      | some e => s.raise e.cause e.addr e.info
      | none =>
        ownBanks s fun s =>
        match (if tr then ridProbe s o else none) with
        | some e => s.raise e.cause e.addr e.info
        | none =>
          let busy := match co with
            | .tok k => if (s.g.kGet k.val).pending then some k.val else none
            | _ => none
          match busy with
          | some k =>
            let s := s.finishFence k
            if (s.g.kGet k).pending then s.blockOn (.token k) else go s o
          | none => go s o
  uniform s none (some 0x17) (pbUses p ++ complUses co ++ [useS base]) fun s =>
    if kind = .mcst then run s else inTurn s run
where
  /-- The fork, the token, and the operation begins. -/
  go (s : State) (o : RidOp) : Out :=
    forking s (if o.kind = .mcst then .fab else .dev) fun s =>
      let o := { o with id := s.nextId, by_ := issuerOf s.g }
      let s := s.fresh.opsInc s.g.launch 1
      let tk : Tok := { kind := if o.kind = .mcst then .mcast else .engine, pending := true }
      let s := match o.done with
        | .tok k => s.setG (s.g.kSet k tk)
        | _ => s
      .next ({ s with riddle := s.riddle ++ [o] }.retire 5)

/-- GATHER (16 R361). -/
def execGather (base : SReg) (co : Compl) (tr : Bool) (p : PBlock) (s : State) : Out :=
  riddleOp .gather base co tr p (wfRid co false) s
/-- SCATTER (16 R362). -/
def execScatter (base : SReg) (co : Compl) (tr : Bool) (p : PBlock) (s : State) : Out :=
  riddleOp .scatter base co tr p (wfRid co false) s
/-- SCATADD (16 R362). -/
def execScatadd (base : SReg) (co : Compl) (tr : Bool) (p : PBlock) (s : State) : Out :=
  riddleOp .scatadd base co tr p (wfRid co true) s
/-- MCST (16 R365). -/
def execMcst (off : SReg) (co : Compl) (p : PBlock) (s : State) : Out :=
  riddleOp .mcst off co false p (wfMcst co) s

end Sys2Proof.Machine
end

