-- ==== Sys2Proof/Machine/VecMove.lean ====
section
/-!
DEFINITION. Vector moves, packing, selection and random numbers (13 R285, R295).
-/
namespace Sys2Proof.Machine

/-- VMOV (13 R285). -/
def execVmov (_z : Size) (f : VForm) (a b : VReg) (s : State) : Out :=
  vwrite s [b] none [] f a fun s t => s.g.vGet b t
/-- VMOV of an immediate (13 R279, R285). -/
def execVmovImm (z : Size) (m : MReg) (a : VReg) (v : W32) (s : State) : Out :=
  vwrite s [] none [] (.ext m) a fun _ _ => splat (zw z) (immElem (zw z) v)
/-- A vector move of a constant under m0, with its words. -/
def vconst (s : State) (words : Nat) (a : VReg) (v : W64) : Out :=
  vector s [a] none [] 0 words fun s ts =>
    .next (s.setG ((s.g.retire words).vSets a (ts.map fun t => (t, v))))
/-- VMOVI with a 32-bit literal (13 R285). -/
def execVmovi (z : Size) (a : VReg) (v : W32) (s : State) : Out :=
  vconst s 2 a (splat (zw z) (immElem (zw z) v))
/-- VMOVI with a 64-bit literal (11 R239, 13 R285). -/
def execVmoviQ (a : VReg) (v : W64) (s : State) : Out := vconst s 3 a v
/-- VBCAST (13 R285). -/
def execVbcast (z : Size) (f : VForm) (a : VReg) (b : SReg) (s : State) : Out :=
  vwrite s [] none [useS b] f a fun s _ => splat (zw z) ((s.g.sGet b).toNat % 2 ^ zw z)
/-- VEXTS (13 R285). -/
def execVexts (z : Size) (f : VForm) (a b : VReg) (nm1 : Fin 64) (s : State) : Out :=
  vwrite s [b] none [] f a fun s t =>
    lanes1 (zw z) (fun x => ofInt (zw z) (toInt (nm1.val + 1) (x % 2 ^ (nm1.val + 1)))) (s.g.vGet b t)
/-- VPACK (13 R285): the sources are read at twice the width. -/
def execVpack (z : Size) (f : VForm) (a b : VReg) (c : VC) (s : State) : Out :=
  vwrite s (b :: vcRegs c) none [] f a fun s t =>
    let w := zw z
    joinSubs w ((subs (2 * w) (s.g.vGet b t) ++ subs (2 * w) (vcVal s.g (2 * w) t c)).map fun x =>
      clampI w (toInt (2 * w) x))
/-- VUNPK (13 R285): the destination has twice the width. -/
def execVunpk (z : Size) (f : VForm) (a b : VReg) (h : Bool) (s : State) : Out :=
  vwrite s [b] none [] f a fun s t =>
    let w := zw z
    let n := 64 / w
    joinSubs (2 * w) ((from_ (if h then n / 2 else 0) (n / 2)).map fun e =>
      ofInt (2 * w) (toInt w (sub_ w (s.g.vGet b t) e)))
/-- VSEL (13 R285). -/
def execVsel (z : Size) (f : VForm) (a b : VReg) (c : VC) (d : VReg) (s : State) : Out :=
  vwrite s (b :: d :: vcRegs c) none [] f a fun s t =>
    lanes3 (zw z) (fun x y u => if u ≠ 0 then x else y) (s.g.vGet b t) (vcVal s.g (zw z) t c)
      (s.g.vGet d t)

/-- The value VRAND gives a thread (13 R295). -/
def randValue (key : W64) (t : Nat) (ctr : W32) (b : W64) : W64 :=
  let z := key + BitVec.ofNat 64 t * 0x9E3779B97F4A7C15#64 + ctr.setWidth 64 * 0xD1B54A32D192ED03#64 +
    b * 0xABC98388FB8B394D#64
  let z := (z ^^^ (z >>> 30)) * 0xBF58476D1CE4E5B9#64
  let z := (z ^^^ (z >>> 27)) * 0x94D049BB133111EB#64
  z ^^^ (z >>> 31)
/-- Advance the counters of some threads. -/
def Group.rngNext (g : Group) : List Nat → Group
  | [] => g
  | t :: r => { g with rngCtr := tblSet 0 g.rngCtr t (tblGet 0 g.rngCtr t + 1) }.rngNext r
/-- VRAND (13 R295). -/
def execVrand (_z : Size) (f : VForm) (a : VReg) (b : SReg) (s : State) : Out :=
  vector s [a] (some 0x17) [useS b] (vMask f) (vWords f) fun s ts =>
    let g := s.g
    .next (s.setG (((g.retire (vWords f)).vSets a (ts.map fun t =>
      (t, randValue g.rngKey t (tblGet 0 g.rngCtr t) (g.sGet b)))).rngNext ts))

end Sys2Proof.Machine
end

