-- ==== Sys2Proof/Machine/Dispatch.lean ====
section
/-!
DEFINITION. The dispatch: one arm per constructor of `Instr`, each a direct call of its meaning.
-/
namespace Sys2Proof.Machine

def exec (i : Instr) (s : State) : Host.Outcome State Fault Refusal :=
  match i with
  | .clause wait fa fb hot last stream => Sys2Proof.Machine.execClause wait fa fb hot last stream s
  | .br off => Sys2Proof.Machine.execBr off s
  | .brc cond a b off => Sys2Proof.Machine.execBrc cond a b off s
  | .brm cond a off => Sys2Proof.Machine.execBrm cond a off s
  | .jmp a => Sys2Proof.Machine.execJmp a s
  | .call a off => Sys2Proof.Machine.execCall a off s
  | .ret a => Sys2Proof.Machine.execRet a s
  | .loop a off => Sys2Proof.Machine.execLoop a off s
  | .exit => Sys2Proof.Machine.execExit s
  | .yield => Sys2Proof.Machine.execYield s
  | .waitf mask => Sys2Proof.Machine.execWaitf mask s
  | .nop => Sys2Proof.Machine.execNop s
  | .nopTag f => Sys2Proof.Machine.execNopTag f s
  | .trap code => Sys2Proof.Machine.execTrap code s
  | .tret => Sys2Proof.Machine.execTret s
  | .bkpt => Sys2Proof.Machine.execBkpt s
  | .add a b c => Sys2Proof.Machine.execAdd a b c s
  | .sub a b c => Sys2Proof.Machine.execSub a b c s
  | .mull a b c => Sys2Proof.Machine.execMull a b c s
  | .mulh u a b c => Sys2Proof.Machine.execMulh u a b c s
  | .div u a b c => Sys2Proof.Machine.execDiv u a b c s
  | .rem u a b c => Sys2Proof.Machine.execRem u a b c s
  | .min u a b c => Sys2Proof.Machine.execMin u a b c s
  | .max u a b c => Sys2Proof.Machine.execMax u a b c s
  | .and a b c => Sys2Proof.Machine.execAnd a b c s
  | .or a b c => Sys2Proof.Machine.execOr a b c s
  | .xor a b c => Sys2Proof.Machine.execXor a b c s
  | .shl a b c => Sys2Proof.Machine.execShl a b c s
  | .shr a b c => Sys2Proof.Machine.execShr a b c s
  | .shra a b c => Sys2Proof.Machine.execShra a b c s
  | .rot a b c => Sys2Proof.Machine.execRot a b c s
  | .clz ext a b => Sys2Proof.Machine.execClz ext a b s
  | .popc ext a b => Sys2Proof.Machine.execPopc ext a b s
  | .mov ext a b => Sys2Proof.Machine.execMov ext a b s
  | .movImm a v => Sys2Proof.Machine.execMovImm a v s
  | .movi a v => Sys2Proof.Machine.execMovi a v s
  | .moviQ a v => Sys2Proof.Machine.execMoviQ a v s
  | .addi a b v => Sys2Proof.Machine.execAddi a b v s
  | .sel a b f => Sys2Proof.Machine.execSel a b f s
  | .lea a b c f => Sys2Proof.Machine.execLea a b c f s
  | .bext a b f => Sys2Proof.Machine.execBext a b f s
  | .bins a b f => Sys2Proof.Machine.execBins a b f s
  | .setc cond a b c => Sys2Proof.Machine.execSetc cond a b c s
  | .mset a b => Sys2Proof.Machine.execMset a b s
  | .mand a b c => Sys2Proof.Machine.execMand a b c s
  | .mor a b c => Sys2Proof.Machine.execMor a b c s
  | .mxor a b c => Sys2Proof.Machine.execMxor a b c s
  | .mnot a b => Sys2Proof.Machine.execMnot a b s
  | .mpop a b => Sys2Proof.Machine.execMpop a b s
  | .mfirst a b => Sys2Proof.Machine.execMfirst a b s
  | .mmov a b => Sys2Proof.Machine.execMmov a b s
  | .csrrd a num => Sys2Proof.Machine.execCsrrd a num s
  | .csrwr a num => Sys2Proof.Machine.execCsrwr a num s
  | .vadd z f a b c => Sys2Proof.Machine.execVadd z f a b c s
  | .vsub z f a b c => Sys2Proof.Machine.execVsub z f a b c s
  | .vadds z f a b c => Sys2Proof.Machine.execVadds z f a b c s
  | .vsubs z f a b c => Sys2Proof.Machine.execVsubs z f a b c s
  | .vmul z f a b c => Sys2Proof.Machine.execVmul z f a b c s
  | .vmulh z f a b c => Sys2Proof.Machine.execVmulh z f a b c s
  | .vmad z f a b c d => Sys2Proof.Machine.execVmad z f a b c d s
  | .vneg z f a b => Sys2Proof.Machine.execVneg z f a b s
  | .vand z f a b c => Sys2Proof.Machine.execVand z f a b c s
  | .vor z f a b c => Sys2Proof.Machine.execVor z f a b c s
  | .vxor z f a b c => Sys2Proof.Machine.execVxor z f a b c s
  | .vnot z f a b => Sys2Proof.Machine.execVnot z f a b s
  | .vshl z f a b c => Sys2Proof.Machine.execVshl z f a b c s
  | .vshr z f a b c => Sys2Proof.Machine.execVshr z f a b c s
  | .vshra z f a b c => Sys2Proof.Machine.execVshra z f a b c s
  | .vclz z f a b => Sys2Proof.Machine.execVclz z f a b s
  | .vmin z f a b c => Sys2Proof.Machine.execVmin z f a b c s
  | .vmax z f a b c => Sys2Proof.Machine.execVmax z f a b c s
  | .vminU z f a b c => Sys2Proof.Machine.execVminU z f a b c s
  | .vmaxU z f a b c => Sys2Proof.Machine.execVmaxU z f a b c s
  | .vabs z f a b => Sys2Proof.Machine.execVabs z f a b s
  | .vabss z f a b => Sys2Proof.Machine.execVabss z f a b s
  | .vpopc z f a b => Sys2Proof.Machine.execVpopc z f a b s
  | .vcmp cond z f a b c => Sys2Proof.Machine.execVcmp cond z f a b c s
  | .vmov z f a b => Sys2Proof.Machine.execVmov z f a b s
  | .vmovImm z m a v => Sys2Proof.Machine.execVmovImm z m a v s
  | .vmovi z a v => Sys2Proof.Machine.execVmovi z a v s
  | .vmoviQ a v => Sys2Proof.Machine.execVmoviQ a v s
  | .vbcast z f a b => Sys2Proof.Machine.execVbcast z f a b s
  | .vexts z f a b nm1 => Sys2Proof.Machine.execVexts z f a b nm1 s
  | .vpack z f a b c => Sys2Proof.Machine.execVpack z f a b c s
  | .vunpk z f a b h => Sys2Proof.Machine.execVunpk z f a b h s
  | .vsel z f a b c d => Sys2Proof.Machine.execVsel z f a b c d s
  | .vfadd t f a b c => Sys2Proof.Machine.execVfadd t f a b c s
  | .vfsub t f a b c => Sys2Proof.Machine.execVfsub t f a b c s
  | .vfmul t f a b c => Sys2Proof.Machine.execVfmul t f a b c s
  | .vfma t f a b c d => Sys2Proof.Machine.execVfma t f a b c d s
  | .vfmin t f a b c => Sys2Proof.Machine.execVfmin t f a b c s
  | .vfmax t f a b c => Sys2Proof.Machine.execVfmax t f a b c s
  | .vfabs t f a b => Sys2Proof.Machine.execVfabs t f a b s
  | .vfneg t f a b => Sys2Proof.Machine.execVfneg t f a b s
  | .vfrcp t f a b => Sys2Proof.Machine.execVfrcp t f a b s
  | .vfrsq t f a b => Sys2Proof.Machine.execVfrsq t f a b s
  | .vfsqrt t f a b => Sys2Proof.Machine.execVfsqrt t f a b s
  | .vfdiv t f a b c => Sys2Proof.Machine.execVfdiv t f a b c s
  | .vfexp2 t f a b => Sys2Proof.Machine.execVfexp2 t f a b s
  | .vflog2 t f a b => Sys2Proof.Machine.execVflog2 t f a b s
  | .vfrnd t f a b mode => Sys2Proof.Machine.execVfrnd t f a b mode s
  | .vfclass t f a b => Sys2Proof.Machine.execVfclass t f a b s
  | .vfcmp cond t f a b c => Sys2Proof.Machine.execVfcmp cond t f a b c s
  | .vfcvt dt st f a b h mode => Sys2Proof.Machine.execVfcvt dt st f a b h mode s
  | .vqnt t f a b c => Sys2Proof.Machine.execVqnt t f a b c s
  | .vdqnt t f a b c => Sys2Proof.Machine.execVdqnt t f a b c s
  | .vdith t f a b c => Sys2Proof.Machine.execVdith t f a b c s
  | .vscale t f a b c => Sys2Proof.Machine.execVscale t f a b c s
  | .vrand z f a b => Sys2Proof.Machine.execVrand z f a b s
  | .xsel z f a b c => Sys2Proof.Machine.execXsel z f a b c s
  | .xshf z f a b c => Sys2Proof.Machine.execXshf z f a b c s
  | .xrot z f a b c => Sys2Proof.Machine.execXrot z f a b c s
  | .xbfly z f a b p => Sys2Proof.Machine.execXbfly z f a b p s
  | .xred op z f a b => Sys2Proof.Machine.execXred op z f a b s
  | .xscan op x z f a b => Sys2Proof.Machine.execXscan op x z f a b s
  | .xbal z f a b => Sys2Proof.Machine.execXbal z f a b s
  | .ld z o d f => Sys2Proof.Machine.execLd z o d f s
  | .st z o d => Sys2Proof.Machine.execSt z o d s
  | .ldg z o d f => Sys2Proof.Machine.execLdg z o d f s
  | .stg z o d => Sys2Proof.Machine.execStg z o d s
  | .lds z o d f => Sys2Proof.Machine.execLds z o d f s
  | .sts z o d => Sys2Proof.Machine.execSts z o d s
  | .ldc z o d f => Sys2Proof.Machine.execLdc z o d f s
  | .stc z o d => Sys2Proof.Machine.execStc z o d s
  | .ldl z o d f => Sys2Proof.Machine.execLdl z o d f s
  | .stl z o d => Sys2Proof.Machine.execStl z o d s
  | .ldx z o d f => Sys2Proof.Machine.execLdx z o d f s
  | .stx z o d => Sys2Proof.Machine.execStx z o d s
  | .stq a b c => Sys2Proof.Machine.execStq a b c s
  | .stqCoord m a b c d v => Sys2Proof.Machine.execStqCoord m a b c d v s
  | .pfg o f => Sys2Proof.Machine.execPfg o f s
  | .pfgLlc o f => Sys2Proof.Machine.execPfgLlc o f s
  | .sptest o f => Sys2Proof.Machine.execSptest o f s
  | .spcastG o f c => Sys2Proof.Machine.execSpcastG o f c s
  | .spcastS o f c => Sys2Proof.Machine.execSpcastS o f c s
  | .atomAdd o t f => Sys2Proof.Machine.execAtomAdd o t f s
  | .atomAnd o t f => Sys2Proof.Machine.execAtomAnd o t f s
  | .atomOr o t f => Sys2Proof.Machine.execAtomOr o t f s
  | .atomXor o t f => Sys2Proof.Machine.execAtomXor o t f s
  | .atomMin o t f => Sys2Proof.Machine.execAtomMin o t f s
  | .atomMax o t f => Sys2Proof.Machine.execAtomMax o t f s
  | .atomXchg o t f => Sys2Proof.Machine.execAtomXchg o t f s
  | .atomIncwrap o t f => Sys2Proof.Machine.execAtomIncwrap o t f s
  | .atomFadd o t f => Sys2Proof.Machine.execAtomFadd o t f s
  | .acas o t f => Sys2Proof.Machine.execAcas o t f s
  | .redAdd o t => Sys2Proof.Machine.execRedAdd o t s
  | .redFadd o t => Sys2Proof.Machine.execRedFadd o t s
  | .redMin o t => Sys2Proof.Machine.execRedMin o t s
  | .redMax o t => Sys2Proof.Machine.execRedMax o t s
  | .fence scp k => Sys2Proof.Machine.execFence scp k s
  | .fwait k => Sys2Proof.Machine.execFwait k s
  | .phase scp => Sys2Proof.Machine.execPhase scp s
  | .acq scp => Sys2Proof.Machine.execAcq scp s
  | .rel scp => Sys2Proof.Machine.execRel scp s
  | .bararv scp a b f => Sys2Proof.Machine.execBararv scp a b f s
  | .bararvDrop scp a b f => Sys2Proof.Machine.execBararvDrop scp a b f s
  | .bararvJoin scp a b f => Sys2Proof.Machine.execBararvJoin scp a b f s
  | .bararvFz scp a b f => Sys2Proof.Machine.execBararvFz scp a b f s
  | .barexp b c f => Sys2Proof.Machine.execBarexp b c f s
  | .barwait t scp a b f => Sys2Proof.Machine.execBarwait t scp a b f s
  | .bartest scp a b f => Sys2Proof.Machine.execBartest scp a b f s
  | .cntwait a b c f => Sys2Proof.Machine.execCntwait a b c f s
  | .cnttest a b c f => Sys2Proof.Machine.execCnttest a b c f s
  | .tspawn f m a b => Sys2Proof.Machine.execTspawn f m a b s
  | .tclaim f a b d => Sys2Proof.Machine.execTclaim f a b d s
  | .tclaimClu f a b d => Sys2Proof.Machine.execTclaimClu f a b d s
  | .tclaimw f a ext => Sys2Proof.Machine.execTclaimw f a ext s
  | .tdone ext => Sys2Proof.Machine.execTdone ext s
  | .launch b d => Sys2Proof.Machine.execLaunch b d s
  | .evset b c ext => Sys2Proof.Machine.execEvset b c ext s
  | .mma p => Sys2Proof.Machine.execMma p s
  | .mzero a ext => Sys2Proof.Machine.execMzero a ext s
  | .mdrain f a b c d => Sys2Proof.Machine.execMdrain f a b c d s
  | .mloadc b c d => Sys2Proof.Machine.execMloadc b c d s
  | .mstat f a ext => Sys2Proof.Machine.execMstat f a ext s
  | .mstatIdle f a ext => Sys2Proof.Machine.execMstatIdle f a ext s
  | .mfreeze ext => Sys2Proof.Machine.execMfreeze ext s
  | .mthaw ext => Sys2Proof.Machine.execMthaw ext s
  | .kick b => Sys2Proof.Machine.execKick b s
  | .equiesce => Sys2Proof.Machine.execEquiesce s
  | .gather base co tr p => Sys2Proof.Machine.execGather base co tr p s
  | .scatter base co tr p => Sys2Proof.Machine.execScatter base co tr p s
  | .scatadd base co tr p => Sys2Proof.Machine.execScatadd base co tr p s
  | .mcst off co p => Sys2Proof.Machine.execMcst off co p s
  | .ship ent kt narg nres p => Sys2Proof.Machine.execShip ent kt narg nres p s
  | .sret => Sys2Proof.Machine.execSret s
  | .waittok k => Sys2Proof.Machine.execWaittok k s
  | .toktest a k => Sys2Proof.Machine.execToktest a k s
  | .tlbinv b c => Sys2Proof.Machine.execTlbinv b c s
  | .l1wb => Sys2Proof.Machine.execL1wb s
  | .l1inv => Sys2Proof.Machine.execL1inv s
  | .pmark tag => Sys2Proof.Machine.execPmark tag s
  | .snaptrig tag => Sys2Proof.Machine.execSnaptrig tag s
  | .deferredPoisonTrap u => Sys2Proof.Machine.execDeferredPoisonTrap u s
  | .resultWriteback u n => Sys2Proof.Machine.execResultWriteback u n s
  | .blockedWaitWake u => Sys2Proof.Machine.execBlockedWaitWake u s
  | .refusedRequestRetry u => Sys2Proof.Machine.execRefusedRequestRetry u s
  | .gtsPeriodicRaise u => Sys2Proof.Machine.execGtsPeriodicRaise u s
  | .tclaimDelivery => Sys2Proof.Machine.execTclaimDelivery s
  | .fenceTokenComplete u k => Sys2Proof.Machine.execFenceTokenComplete u k s
  | .l1Miss core => Sys2Proof.Machine.execL1Miss core s
  | .publication u k => Sys2Proof.Machine.execPublication u k s
  | .forcedPublish core => Sys2Proof.Machine.execForcedPublish core s
  | .atomicAtHome => Sys2Proof.Machine.execAtomicAtHome s
  | .barrierUpdate => Sys2Proof.Machine.execBarrierUpdate s
  | .counterAddition => Sys2Proof.Machine.execCounterAddition s
  | .tlbWalk die => Sys2Proof.Machine.execTlbWalk die s
  | .tlbInvalidationDone => Sys2Proof.Machine.execTlbInvalidationDone s
  | .combineWindow => Sys2Proof.Machine.execCombineWindow s
  | .engineRecordStart core => Sys2Proof.Machine.execEngineRecordStart core s
  | .engineOpComplete core op => Sys2Proof.Machine.execEngineOpComplete core op s
  | .loopRefill core op => Sys2Proof.Machine.execLoopRefill core op s
  | .riddleOpComplete op => Sys2Proof.Machine.execRiddleOpComplete op s
  | .sectionStart damper => Sys2Proof.Machine.execSectionStart damper s
  | .mmaStreamEnd pair => Sys2Proof.Machine.execMmaStreamEnd pair s
  | .mmaConversionEnd pair => Sys2Proof.Machine.execMmaConversionEnd pair s
  | .arrayFreeze pair => Sys2Proof.Machine.execArrayFreeze pair s
  | .taskDispatch launch => Sys2Proof.Machine.execTaskDispatch launch s
  | .taskCommit launch => Sys2Proof.Machine.execTaskCommit launch s
  | .taskLaunchEnd launch => Sys2Proof.Machine.execTaskLaunchEnd launch s
  | .quantumEnd launch => Sys2Proof.Machine.execQuantumEnd launch s
  | .detTurnGrant launch => Sys2Proof.Machine.execDetTurnGrant launch s
  | .dispatchDecision => Sys2Proof.Machine.execDispatchDecision s
  | .packetReservation slot => Sys2Proof.Machine.execPacketReservation slot s
  | .contextSwitchClear core => Sys2Proof.Machine.execContextSwitchClear core s
  | .launchComplete launch => Sys2Proof.Machine.execLaunchComplete launch s
  | .contextMarkDead ctx => Sys2Proof.Machine.execContextMarkDead ctx s
  | .stokerReadyClear queue => Sys2Proof.Machine.execStokerReadyClear queue s
  | .slotBind slot => Sys2Proof.Machine.execSlotBind slot s
  | .slotUnbind slot => Sys2Proof.Machine.execSlotUnbind slot s
  | .unbindAck slot => Sys2Proof.Machine.execUnbindAck slot s
  | .sliceExpiry slot => Sys2Proof.Machine.execSliceExpiry slot s
  | .queueIdleTimeout slot => Sys2Proof.Machine.execQueueIdleTimeout slot s
  | .preemptSignal ctx pairs => Sys2Proof.Machine.execPreemptSignal ctx pairs s
  | .preemptTrap u => Sys2Proof.Machine.execPreemptTrap u s
  | .contextRestore ctx cores => Sys2Proof.Machine.execContextRestore ctx cores s
  | .powerGateEntry core => Sys2Proof.Machine.execPowerGateEntry core s
  | .powerGateOff core => Sys2Proof.Machine.execPowerGateOff core s
  | .coreWake core => Sys2Proof.Machine.execCoreWake core s
  | .wakeExitDone core => Sys2Proof.Machine.execWakeExitDone core s
  | .migrationStep page => Sys2Proof.Machine.execMigrationStep page s
  | .stubReclaimStart page => Sys2Proof.Machine.execStubReclaimStart page s
  | .stubCondInval page old => Sys2Proof.Machine.execStubCondInval page old s
  | .stubInvalAck page old => Sys2Proof.Machine.execStubInvalAck page old s
  | .stubReclaimResult page fail => Sys2Proof.Machine.execStubReclaimResult page fail s
  | .read p => Sys2Proof.Machine.execRead p s
  | .readx p => Sys2Proof.Machine.execReadx p s
  | .write p => Sys2Proof.Machine.execWrite p s
  | .writeback p => Sys2Proof.Machine.execWriteback p s
  | .atomicRequest p => Sys2Proof.Machine.execAtomicRequest p s
  | .inval p => Sys2Proof.Machine.execInval p s
  | .ownerq p => Sys2Proof.Machine.execOwnerq p s
  | .shipRequest p => Sys2Proof.Machine.execShipRequest p s
  | .mcast p => Sys2Proof.Machine.execMcast p s
  | .remoteWrite p => Sys2Proof.Machine.execRemoteWrite p s
  | .data p => Sys2Proof.Machine.execData p s
  | .ack p => Sys2Proof.Machine.execAck p s
  | .migrationChain p => Sys2Proof.Machine.execMigrationChain p s
  | .notOwner p => Sys2Proof.Machine.execNotOwner p s
  | .retry p => Sys2Proof.Machine.execRetry p s
  | .unreachable p => Sys2Proof.Machine.execUnreachable p s
  | .held p => Sys2Proof.Machine.execHeld p s
  | .mack p => Sys2Proof.Machine.execMack p s
  | .sectionResult p => Sys2Proof.Machine.execSectionResult p s
  | .stokerMessage p => Sys2Proof.Machine.execStokerMessage p s
  | .routeMarker p => Sys2Proof.Machine.execRouteMarker p s
  | .routeMarkerReturn p => Sys2Proof.Machine.execRouteMarkerReturn p s
  | .packetForward p => Sys2Proof.Machine.execPacketForward p s
  | .flitReceive port bytes => Sys2Proof.Machine.execFlitReceive port bytes s
  | .replayTimeout port => Sys2Proof.Machine.execReplayTimeout port s
  | .ackTimer port => Sys2Proof.Machine.execAckTimer port s
  | .requestTimeout tag => Sys2Proof.Machine.execRequestTimeout tag s
  | .heldTimer n => Sys2Proof.Machine.execHeldTimer n s
  | .mcastChildTimeout n port => Sys2Proof.Machine.execMcastChildTimeout n port s
  | .fabricLinkTrained port badLanes far => Sys2Proof.Machine.execFabricLinkTrained port badLanes far s
  | .fabricLaneFail port lane => Sys2Proof.Machine.execFabricLaneFail port lane s
  | .linkRetrainTimeout port => Sys2Proof.Machine.execLinkRetrainTimeout port s
  | .dieLinkLaneFail link group => Sys2Proof.Machine.execDieLinkLaneFail link group s
  | .setId => Sys2Proof.Machine.execSetId s
  | .ctxCreate => Sys2Proof.Machine.execCtxCreate s
  | .ctxTeardown => Sys2Proof.Machine.execCtxTeardown s
  | .queueReg => Sys2Proof.Machine.execQueueReg s
  | .queueUnreg => Sys2Proof.Machine.execQueueUnreg s
  | .shootdown => Sys2Proof.Machine.execShootdown s
  | .resolveResume => Sys2Proof.Machine.execResolveResume s
  | .resolveSkip => Sys2Proof.Machine.execResolveSkip s
  | .resolveTerminate => Sys2Proof.Machine.execResolveTerminate s
  | .resolveAbort => Sys2Proof.Machine.execResolveAbort s
  | .migrate => Sys2Proof.Machine.execMigrate s
  | .routeWrite => Sys2Proof.Machine.execRouteWrite s
  | .groupWrite => Sys2Proof.Machine.execGroupWrite s
  | .hcopyToHost => Sys2Proof.Machine.execHcopyToHost s
  | .hcopyToDevice => Sys2Proof.Machine.execHcopyToDevice s
  | .hcopyDone n => Sys2Proof.Machine.execHcopyDone n s
  | .stubFree => Sys2Proof.Machine.execStubFree s
  | .nbrRead => Sys2Proof.Machine.execNbrRead s
  | .migAbort => Sys2Proof.Machine.execMigAbort s
  | .linkRetrain => Sys2Proof.Machine.execLinkRetrain s
  | .groupDrain => Sys2Proof.Machine.execGroupDrain s
  | .mboxBadCode => Sys2Proof.Machine.execMboxBadCode s
  | .readySet j v => Sys2Proof.Machine.execReadySet j v s
  | .apertureWrite off bytes => Sys2Proof.Machine.execApertureWrite off bytes s
  | .apertureRead off len => Sys2Proof.Machine.execApertureRead off len s
  | .fringRptr v => Sys2Proof.Machine.execFringRptr v s
  | .faultRecordWrite => Sys2Proof.Machine.execFaultRecordWrite s
  | .attDoor v => Sys2Proof.Machine.execAttDoor v s
  | .attReportDone => Sys2Proof.Machine.execAttReportDone s
  | .snapTrig v => Sys2Proof.Machine.execSnapTrig v s
  | .snapshotLatch => Sys2Proof.Machine.execSnapshotLatch s
  | .errcnt kind v => Sys2Proof.Machine.execErrcnt kind v s
  | .registerWrite off v => Sys2Proof.Machine.execRegisterWrite off v s
  | .errorDetected e => Sys2Proof.Machine.execErrorDetected e s
  | .thermalThrottle degrees => Sys2Proof.Machine.execThermalThrottle degrees s
  | .coldReset => Sys2Proof.Machine.execColdReset s
  | .functionReset => Sys2Proof.Machine.execFunctionReset s
  | .bootStepComplete => Sys2Proof.Machine.execBootStepComplete s
  | .bankAccessPerformed core => Sys2Proof.Machine.execBankAccessPerformed core s
  | .engineWritePerformed op => Sys2Proof.Machine.execEngineWritePerformed op s
  | .unassignedEncoding info => Sys2Proof.Machine.execUnassignedEncoding info s
  | .instructionFetchFault cause addr info => Sys2Proof.Machine.execInstructionFetchFault cause addr info s
  | .thermalConditionClear => Sys2Proof.Machine.execThermalConditionClear s
  | .powerGoodLoss => Sys2Proof.Machine.execPowerGoodLoss s
  | .firmwareImageWrite img => Sys2Proof.Machine.execFirmwareImageWrite img s

end Sys2Proof.Machine
end

