-- ==== Sys2Proof/Machine/Sched.lean ====
section
/-!
DEFINITION. What acts next when nothing has been put in `State.sched` (09 R206, R209, R212, R213; DESIGN CHOICE, log entry 13):
every act that the device could take now is listed, and a free value picks one.
-/
namespace Sys2Proof.Machine

/-- What the device may do next. -/
abbrev Acts := List (State → Out)

/-! ## Groups (09 R212 to R214). -/

/-- Lanes and uniform unit of the unit's core have power (09 R214). -/
def State.unitOn (s : State) (u : UnitId) : Bool :=
  match unitCore u with
  | none => true
  | some c => decide ((s.core c).power = .active)
/-- A group that is not blocked. -/
def State.readyGroup (s : State) (g : Group) : Bool := g.mayIssue && g.block.isNone && s.unitOn g.unit
/-- A base word goes to the uniform unit: BASE.U is 1, or it is a group operation of major 0x29, whatever that bit holds
(08 R168, 09 R213, 11 R234). -/
def uniformWord (w : Nat) : Bool := (normU w).testBit 2
/-- The group's next instruction goes to the uniform unit. A fetch that fails goes there too. -/
def State.nextUniform (s : State) (g : Group) : Bool :=
  let t := s.swapTo g.gid
  t.atFirmware || (match fetchWord t g.pc with
    | .word w => uniformWord w.toNat
    | _ => true)
/-- The group of a lane that issues a vector instruction: the lane's other group if it is ready, else the one that
issued last (09 R212). (DESIGN CHOICE, log entry 48.) -/
def laneIssues (x : Core) (l : List Group) (g : Group) : Bool :=
  let slot := unitSlot g.unit
  tblGet 32 x.last (slot % 16) != slot || !(l.any fun h => unitSlot h.unit % 16 == slot % 16 && h.gid != g.gid)
/-- A deterministic group has acted: iterations that its arrival released are issued at its clock (06 R136). -/
def State.pollLoops (s : State) (before : Group) : State :=
  if before.det.isNone then s else s.loopPoll before.launch (before.retired.toNat, before.gidx.toNat)
/-- The current group acts: the firmware's handler, or the instruction at its pc, which `run` carries out. -/
def actGroup (run : Instr → State → Out) (s : State) : Out :=
  if s.atFirmware then firmwareStep s
  else enterAt s fun s =>
    match s.front with
    | .absent l => (s.getLine (unitCode s.g.unit) l false).blockOn (.peer l)
    | .fault c a i => execInstructionFetchFault c a i (s.dropFetched c.toNat a)
    | .illegal => execUnassignedEncoding 0 s
    | .instr i =>
      match run i s with
      | .next t => .next ((t.quantumCheck s.g.retired).pollLoops s.g)
      | r => r
/-- A unit acts. -/
def actUnit (run : Instr → State → Out) (u : UnitId) (s : State) : Out :=
  match s.focus u with
  | none => .next s
  | some s => if s.g.mayIssue && s.unitOn u then actGroup run s else .next s
/-- Groups that have executed YIELD are passed over where another one is ready (12 R256). -/
def passOver (l : List Group) : List Group :=
  if l.any fun g => !g.yielded then l.filter fun g => !g.yielded else l
/-- A unit has chosen among some groups: a YIELD's passing over is done. -/
def State.chosen (s : State) (l : List Group) : State :=
  s.modGroups (fun g => l.any fun h => h.gid == g.gid) fun g => { g with yielded := false }
/-- A unit takes a group among some; where its instruction has issued, and has not only met a wait, `note` follows. -/
def takeGroup (run : Instr → State → Out) (l : List Group) (g : Group) (note : State → State) (s : State) : Out :=
  match actUnit run g.unit (s.chosen l) with
  | .next t =>
    .next (match t.findGid g.gid with
      | some h => if h.block.isNone || h.retired != g.retired then note t else t
      | none => note t)
  | r => r
/-- The uniform unit of a core takes the first ready group at or after its pointer, which moves past it (09 R213). -/
def State.uniformActs (s : State) (run : Instr → State → Out) (c : Nat) (l : List Group) : Acts :=
  let all := l.filter s.nextUniform
  let l := sortBy (fun g => unitSlot g.unit) (passOver all)
  let p := (s.core c).uptr
  match findFirst (fun g => decide (p ≤ unitSlot g.unit)) l, l with
  | some g, _ | none, g :: _ =>
    [takeGroup run all g fun s => s.modCore c fun x => { x with uptr := (unitSlot g.unit + 1) % 32 }]
  | none, [] => []
/-- The lanes of a core (09 R212). -/
def State.vectorActs (s : State) (run : Instr → State → Out) (c : Nat) (l : List Group) : Acts :=
  let all := l.filter fun g => !s.nextUniform g
  all.flatMap fun g =>
    let mine := all.filter fun h => unitSlot h.unit % 16 == unitSlot g.unit % 16
    let may := passOver mine
    if may.any (fun h => h.gid == g.gid) && laneIssues (s.core c) may g then
      [takeGroup run mine g fun s => s.modCore c fun x =>
        { x with last := tblSet 32 x.last (unitSlot g.unit % 16) (unitSlot g.unit) }]
    else []
/-- The contexts of a Damper (12 R256, 16 R371). -/
def sectionActs (run : Instr → State → Out) (l : List Group) : Acts :=
  l.flatMap fun g =>
    let mine := l.filter fun h => match h.unit, g.unit with
      | .damper d _, .damper e _ => d == e
      | _, _ => false
    if (passOver mine).any fun h => h.gid == g.gid then [takeGroup run mine g id] else []
/-- Issue on every core and Damper. -/
def State.issueActs (s : State) (run : Instr → State → Out) : Acts :=
  let l := s.groups.filter s.readyGroup
  let cores := (l.filterMap fun g => unitCore g.unit).eraseDups
  (cores.flatMap fun c =>
    let m := l.filter fun g => unitCore g.unit == some c
    s.uniformActs run c m ++ s.vectorActs run c m) ++
  sectionActs run (l.filter Group.isSection)
/-- What groups wait for: wakes, retries, deferred traps, fences, pre-emption, the periodic raise
(05 R107, 08 R192, R193, 10 R226, R460). -/
def State.groupActs (s : State) : Acts :=
  s.groups.flatMap fun g =>
    let u := g.unit
    let t := s.swapTo g.gid
    let wake : Acts := match g.block with
      | none => []
      | some b =>
        if retries b then [execRefusedRequestRetry u]
        else if t.waitOver b then [execBlockedWaitWake u] else []
    let results : Acts := (upTo g.pend.length).map fun i => execResultWriteback u i
    let poison : Acts := if g.pend.any (fun p => p.ready && p.poisoned && !p.sync) then [execDeferredPoisonTrap u] else []
    let fences : Acts := g.fences.flatMap fun f =>
      if f.k < 16 then [execPublication u (Fin.ofNat 16 f.k), execFenceTokenComplete u (Fin.ofNat 16 f.k)]
      else [fun s => s.onUnit u State.finishFences]
    let preempt : Acts := if g.preempting then [execPreemptTrap u] else []
    let raise_ : Acts := if g.gts < s.pclk && g.det.isNone then [execGtsPeriodicRaise u] else []
    wake ++ results ++ poison ++ fences ++ preempt ++ raise_

/-! ## Memory, engines, arrays, Dampers. -/

/-- Cores: misses, bank accesses, engines, power (05 R103, 09 R215, 16 R346). -/
def State.coreActs (s : State) : Acts :=
  s.cores.flatMap fun e =>
    let c := e.1
    let x := e.2
    let mem : Acts := (if x.missQ.isEmpty then [] else [execL1Miss c]) ++
      (if x.bankQ.isEmpty then [] else [execBankAccessPerformed c])
    let start : Acts := if x.engQ.isEmpty then [] else [execEngineRecordStart c]
    let ops : Acts := x.engRun.flatMap fun o =>
      [execEngineWritePerformed o.id, execEngineOpComplete c o.id, execLoopRefill c o.id]
    let power : Acts := match x.power with
      | .active => if s.mayGate c then [execPowerGateEntry c] else []
      | .waking => [execWakeExitDone c]
      | .entering => [if (s.residents c).isEmpty then execPowerGateOff c else execCoreWake c]
      | .gated => if (s.residents c).isEmpty then [] else [execCoreWake c]
    mem ++ start ++ ops ++ power
/-- Arrays, Riddle operations and Dampers (15 R330, 16 R361, R371). -/
def State.unitActs (s : State) : Acts :=
  (s.arrays.flatMap fun e =>
    (if e.2.conv.isSome then [execMmaConversionEnd e.1] else []) ++
    (if e.2.stream.isSome then [execMmaStreamEnd e.1, fun s => .next (s.streamOn e.1)] else []) ++
    (if e.2.freezing || (e.2.stream.isSome && !e.2.frozen && s.pairSignalled e.1) then [execArrayFreeze e.1] else [])) ++
  (s.riddle.flatMap fun o => [execEngineWritePerformed o.id, execRiddleOpComplete o.id]) ++
  (s.dampers.flatMap fun e => if e.2.queue.isEmpty && e.2.refusal.isEmpty then [] else [execSectionStart e.1])
/-- The event that performs an update of a kind. -/
def homeAct (h : HomeOp) (s : State) : Out :=
  match h.act with
  | .rmw _ _ _ _ => execAtomicAtHome s
  | .arrive _ | .expect _ | .bytes _ _ _ => execBarrierUpdate s
  | .count _ _ => execCounterAddition s
  | .store _ _ => execStoreAtHome s
/-- Updates at their homes, walks and invalidations; peers' lines that leave, invalidations that are due, results that
their ALU may forget (03 R58, 04 R74, R75, 05 R116, 06 R130). -/
def State.memActs (s : State) : Acts :=
  s.homeQ.map homeAct ++ (s.walks.map fun w => execTlbWalk (4 + w.off / 2 ^ 21 % 8)) ++
  (if s.invals.isEmpty then [] else [execTlbInvalidationDone]) ++
  (if s.own.invq.isEmpty then [] else [fun s => .next s.flushInvals]) ++
  (if s.fab.filter.isEmpty then [] else [fun s => .next s.ackOwn]) ++
  ((s.own.peers.filter fun e => e.2.held).map fun (e : Nat × PeerLine) (s : State) => .next (s.evict e.1))

/-! ## The dispatcher and the Stoker. -/

/-- Launches, tasks and deterministic domains (06 R133, 08 R186, 09 R204). -/
def State.launchActs (s : State) : Acts :=
  (s.disp.launches.flatMap fun l =>
    (if l.task then [execTaskDispatch l.id, execTaskCommit l.id, execTaskLaunchEnd l.id] else []) ++
    [execLaunchComplete l.id]) ++
  (s.disp.doms.flatMap fun d => [execDetTurnGrant d.launch, execQuantumEnd d.launch]) ++
  (if s.disp.deliveries.isEmpty then [] else [execTclaimDelivery])
/-- Queue slots and decisions (09 R205 to R209). -/
def State.slotActs (s : State) : Acts :=
  (match findFirst (fun j => !(s.slot j).valid && !(s.slot j).unacked) (upTo 64) with
   | some j => if s.readyQueues.isEmpty then [] else [execSlotBind j]
   | none => []) ++
  ((s.disp.slots.filter fun e => e.2.unacked).map fun e => execUnbindAck e.1) ++
  ((s.disp.slots.filter fun e => e.2.valid).flatMap fun e =>
    [execSliceExpiry e.1, execQueueIdleTimeout e.1, execPacketReservation e.1]) ++
  ((s.disp.ready.filter fun e => e.2).map fun e => execStokerReadyClear e.1) ++
  (if s.disp.slots.any fun e => e.2.valid then [execDispatchDecision] else [])
/-- The firmware's scheduling: a slot gives way to a queue that outranks it, a context that is left without a slot is
pre-empted, and one that has a slot again is restored where it was (09 R209, 10 R232). -/
def State.firmwareActs (s : State) : Acts :=
  (match s.outranked with
   | some j => [execSlotUnbind j]
   | none => []) ++
  (s.stranded.map fun c => execPreemptSignal c (s.livePairs c)) ++
  (s.ctxs.filterMap fun e =>
    let same := e.2.savedCores.map fun x => (x.core, x.core)
    if (s.bestSlot e.1).isSome && s.restoreFits e.1 same then some (execContextRestore e.1 same) else none)
/-- The mailbox command that has been submitted (17 R396). -/
def mailboxAct (s : State) : Out :=
  match s.hif.code with
  | 0x01 => execSetId s
  | 0x02 => execCtxCreate s
  | 0x03 => execCtxTeardown s
  | 0x04 => execQueueReg s
  | 0x05 => execQueueUnreg s
  | 0x06 => execShootdown s
  | 0x07 =>
    match s.hif.arg 16 1 % 4 with
    | 0 => execResolveResume s
    | 1 => execResolveSkip s
    | 2 => execResolveTerminate s
    | _ => execResolveAbort s
  | 0x08 => execMigrate s
  | 0x09 => execRouteWrite s
  | 0x0A => execGroupWrite s
  | 0x0B => if s.hif.arg 32 1 % 2 = 1 then execHcopyToHost s else execHcopyToDevice s
  | 0x0C => execStubFree s
  | 0x0D => execNbrRead s
  | 0x0E => execMigAbort s
  | 0x0F => execLinkRetrain s
  | 0x10 => execGroupDrain s
  | _ => execMboxBadCode s
/-- The host link and the Stoker's own work (04 R84, R89, 09 R211, 17 R396, R397, 18 R402, R410). -/
def State.stokerActs (s : State) : Acts :=
  (if s.hif.busy && s.hif.pending then [mailboxAct] else []) ++
  ((s.ctxs.filter fun e => e.2.busy).map fun e => execContextMarkDead e.1) ++
  (s.own.migs.map fun m => execMigrationStep m.page) ++
  (s.own.reclaims.map fun r =>
    if r.started then execStubReclaimResult r.page r.failed else execStubReclaimStart r.page) ++
  ((s.own.held.filter fun p => decide (p.typ = 6) && isMarked p).map fun p =>
    execStubInvalAck p.addr (markedOwner p)) ++
  (if s.hif.records.isEmpty then [] else [execFaultRecordWrite]) ++
  (if s.hif.hostQ.isEmpty then [] else [execHostAccesses]) ++
  ((upTo s.hif.hcopies.length).map fun i => execHcopyDone i) ++
  (if s.sys.attBusy then [execAttReportDone] else []) ++
  (if s.sys.snapPend.isEmpty then [] else [execSnapshotLatch])

/-! ## The fabric (17 R377 to R388). -/

/-- What a packet does where it is: at its destination by its type, elsewhere it goes on (17 R377, R383). -/
def packetAct (p : Packet) (s : State) : Out :=
  if p.dst.toNat ≠ s.myId then execPacketForward p s
  else
    match p.cls.toNat, p.typ.toNat with
    | 0, 0x01 => execRead p s
    | 0, 0x02 => execReadx p s
    | 0, 0x03 => execWrite p s
    | 0, 0x04 => execWriteback p s
    | 0, 0x05 => execAtomicRequest p s
    | 0, 0x06 => if isMarked p then execStubCondInval p.addr (markedOwner p) s else execInval p s
    | 0, 0x07 => execOwnerq p s
    | 0, 0x08 => execShipRequest p s
    | 0, 0x09 => execMcast p s
    | 0, 0x0A => execRemoteWrite p s
    | 1, 0x21 => execData p s
    | 1, 0x22 => execAck p s
    | 1, 0x23 =>
      match p.aux.toNat with
      | 1 => execMigrationChain p s
      | 2 => execNotOwner p s
      | 3 => execRetry p s
      | 4 => execUnreachable p s
      | _ => execHeld p s
    | 1, 0x24 => execMack p s
    | 1, 0x25 => execSectionResult p s
    | 2, 0x31 => if mgmtAnswer p then execRouteMarkerReturn p s else execRouteMarker p s
    | _, _ => execStokerMessage p s
/-- The oldest packet of a class that waits here. -/
def State.classAct (s : State) (c : Nat) : Acts :=
  match findFirst (fun p : Packet => p.cls.toNat == c) s.fab.outbox with
  | none => []
  | some p => [packetAct p]
/-- A section request that was answered RETRY is sent again, once its sender has performed its issue release again (06
R125). -/
def State.shipAgain (s : State) (r : Req) : State :=
  match r.use with
  | .ship q =>
    let x := s.reissue q
    if x.2 then (x.1.modReq r.tag fun y => { y with again := false }).emit { r.pkt with hop := 0 } else x.1
  | _ => s
/-- Packets, section requests to be sent again, combining windows, acknowledgements due. -/
def State.fabricActs (s : State) : Acts :=
  s.classAct 0 ++ s.classAct 1 ++ s.classAct 2 ++ s.classAct 3 ++
  (match s.fab.relay with
   | [] => []
   | p :: _ => [execPacketForward p]) ++
  ((s.fab.reqs.filter fun r => r.again).map fun (r : Req) (s : State) => .next (s.shipAgain r)) ++
  (if s.fab.combine.any fun w => w.sent.isNone then [execCombineWindow] else []) ++
  ((s.fab.links.filter fun e => e.2.up).map fun e => execAckTimer e.1)

/-! ## One act. -/

/-- Everything that the device could do now; before the boot ends, only that (18 R399). -/
def State.acts (s : State) (run : Instr → State → Out) : Acts :=
  if s.sys.boot = .running then
    s.issueActs run ++ s.groupActs ++ s.coreActs ++ s.unitActs ++ s.memActs ++ s.launchActs ++ s.slotActs ++
    s.firmwareActs ++ s.stokerActs ++ s.fabricActs
  else if s.sys.boot = .failed then s.stokerActs
  else [execBootStepComplete]
/-- One of them; with nothing to do, time passes. -/
def autoStep (run : Instr → State → Out) (s : State) : Out :=
  let l := s.acts run
  match pick s.draws l with
  | some f => f s.draw
  | none => .next s
/-- An event that powers the device: without power nothing else happens (18 R398). -/
def Sched.powers : Sched → Bool
  | .event .coldReset => true
  | _ => false
/-- One step of the device: what stands first in `sched`, or else one act of the device's own. -/
def stepBy (run : Instr → State → Out) (s : State) : Out :=
  match s.sched with
  | [] => if s.sys.powered then autoStep run s.tick else .next s.tick
  | a :: r =>
    let s := ({ s with sched := r } : State).tick
    if !s.sys.powered && !a.powers then .next s
    else
      match a with
      | .unit u => actUnit run u s
      | .event i => run i s

end Sys2Proof.Machine
end

