-- ==== Sys2Proof/Machine/Step.lean ====
section
/-!
DEFINITION. One step of the device (Machine/Sched.lean), and the placing of one word for it to run.
-/
namespace Sys2Proof.Machine

/-- One step: an event, or one group's next instruction. -/
def step (s : State) : Host.Outcome State Fault Refusal := stepBy exec s

/-- `s` with an instruction, numbered as the opcode table numbers its bits, where the next step fetches
(DESIGN CHOICE, log entry 14). -/
def State.withFetchWord (s : State) (nbits w : Nat) : State := s.placeWord nbits w

end Sys2Proof.Machine
end

