-- ==== Sys2Proof/Safety.lean ====
section
/-!
DEFINITION. What counts as a safe run, and the vocabulary of the statements: what an instruction may leave
changed. No step of a safe run stops. A program's own errors are traps, which are next states, so a run is unsafe
only where the host's aperture names memory that is not installed.
-/
namespace Sys2Proof.Machine

/-- The step answers a next state. -/
def Goes : Host.Outcome State Fault Refusal → Prop
  | .next _ => True
  | .fault _ => False
  | .refused _ => False
/-- States that a run from `s` comes to. -/
inductive Reach (s : State) : State → Prop
  | start : Reach s s
  | step {t u : State} : Reach s t → step t = .next u → Reach s u
/-- No run from `s` stops. -/
def Safe (s : State) : Prop := ∀ t, Reach s t → Goes (step t)

/-! ## What an instruction needs. -/

/-- No pending result goes to any of these registers (08 R192). -/
def State.Readable (s : State) (uses : List Nat) : Prop := ∀ p ∈ s.g.pend, p.touches uses = false
/-- The group has these v registers (08 R172). -/
def Group.Has (g : Group) (vs : List VReg) : Prop := ∀ r ∈ vs, r.val < g.nv
/-- The group belongs to a compute core: it is no section (16 R371). -/
def Group.OnCore (g : Group) : Prop := g.isSection = false
/-- Nothing of the group's is on its way: no update to a home or bank, no load (05 R97, R103). -/
def State.Settled (s : State) : Prop :=
  s.homeQ = [] ∧ s.g.loads = [] ∧ ∀ e ∈ s.cores, ∀ a ∈ e.2.bankQ, a.gid = s.g.gid → a.op = none ∧ a.load = none
/-- An exception can be entered at once: the group is on a compute core, outside handler mode, and nothing that it
waits for is on its way (10 R217, R222). -/
def State.MayTrap (s : State) : Prop := s.g.OnCore ∧ s.g.handler = false ∧ s.g.pend = [] ∧ s.Settled
/-- A transfer may land on an address: it is aligned and global, and a clause header can be fetched there (12 R259). -/
def State.LandsOn (s : State) (a : W64) : Prop :=
  a.toNat % 4 = 0 ∧ a.toNat < 2 ^ 63 ∧ ∃ w, fetchWord s a = .word w ∧ (headerFlags w).isSome = true
/-- A thread is active under a mask: present, and its governing bit is 1 (08 R166). -/
def Group.Active (g : Group) (m : MReg) (th : Nat) : Prop := th < g.n0 ∧ (g.govern m).getLsbD th = true

/-- The conditions of BRC and SETC on two registers (11 R249). -/
def condOn (q : Cond) (x y : W64) : Bool :=
  match q with
  | .eq => x == y
  | .ne => x != y
  | .lt => x.slt y
  | .le => x.sle y
  | .gt => y.slt x
  | .ge => y.sle x
  | .ltu => x.ult y
  | .leu => x.ule y
/-- The conditions of BRM, within the present threads (12 R258). -/
def mcondOn (q : MCond) (m P : W32) : Bool :=
  match q with
  | .any => (m &&& P) != 0
  | .all => (m &&& P) == P
  | .none => (m &&& P) == 0
  | .nall => (m &&& P) != P

/-! ## What an instruction leaves changed. -/

/-- An instruction of n words has retired: the pc has moved past it, and it counts once unless the group is in
handler mode (06 R132, 12 R275). -/
def Retired (n : Nat) (g h : Group) : Prop :=
  h.pc = g.pc + BitVec.ofNat 64 (4 * n) ∧
  h.retired = (if g.handler then g.retired else g.retired + 1) ∧ h.block = none
/-- Nothing of the device differs but the current group. -/
def OnlyGroup (s t : State) : Prop := t = { s with g := t.g } ∧ ∀ k, t.byte k = s.byte k ∧ t.psn k = s.psn k
/-- Only the pc, and what retiring touches, differ. -/
def OnlyRetires (s : State) (o : Out) (n : Nat) : Prop :=
  ∃ t, o = .next t ∧ OnlyGroup s t ∧ Retired n s.g t.g ∧
    t.g = { s.g with pc := t.g.pc, retired := t.g.retired, block := t.g.block }
/-- The instruction of n words writes v to sA and nothing else; a write to s0 is discarded (11 R236). -/
def SetsS (s : State) (o : Out) (n : Nat) (a : SReg) (v : W64) : Prop :=
  ∃ t, o = .next t ∧ OnlyGroup s t ∧ Retired n s.g t.g ∧
    (∀ r, t.g.sGet r = if r = a ∧ a ≠ 0 then v else s.g.sGet r) ∧
    t.g = { s.g with s := t.g.s, pc := t.g.pc, retired := t.g.retired, block := t.g.block }
/-- The same, the value given bit by bit. -/
def SetsBits (s : State) (o : Out) (n : Nat) (a : SReg) (f : Nat → Bool) : Prop :=
  ∃ v : W64, SetsS s o n a v ∧ ∀ j, j < 64 → v.getLsbD j = f j
/-- The instruction of n words writes v to mA and nothing else; m0 keeps the bits of absent threads 0 (08 R165). -/
def SetsM (s : State) (o : Out) (n : Nat) (a : MReg) (v : W32) : Prop :=
  ∃ t, o = .next t ∧ OnlyGroup s t ∧ Retired n s.g t.g ∧
    (∀ r, t.g.mGet r = if r = a then (if a = 0 then v &&& s.g.present else v) else s.g.mGet r) ∧
    t.g = { s.g with m := t.g.m, pc := t.g.pc, retired := t.g.retired, block := t.g.block }
/-- The instruction of n words writes vA in each active thread and nothing else; P says what a thread's register
then holds (13 R278, R296). -/
def SetsV (s : State) (o : Out) (n : Nat) (m : MReg) (a : VReg) (P : Nat → W64 → Prop) : Prop :=
  ∃ t, o = .next t ∧ OnlyGroup s t ∧ Retired n s.g t.g ∧
    (∀ r th, th < 32 → (r ≠ a ∨ ¬ s.g.Active m th) → t.g.vGet r th = s.g.vGet r th) ∧
    (∀ th, th < 32 → s.g.Active m th → P th (t.g.vGet a th)) ∧
    t.g = { s.g with v := t.g.v, pc := t.g.pc, retired := t.g.retired, block := t.g.block }
/-- The group goes on at an address; besides the s registers, only what retiring touches differs (12 R258). -/
def GoesTo (s : State) (o : Out) (pc : W64) (regs : SReg → W64) : Prop :=
  ∃ t, o = .next t ∧ OnlyGroup s t ∧ t.g.pc = pc ∧
    t.g.retired = (if s.g.handler then s.g.retired else s.g.retired + 1) ∧ t.g.block = none ∧
    (∀ r, t.g.sGet r = regs r) ∧
    t.g = { s.g with s := t.g.s, pc := t.g.pc, retired := t.g.retired, block := t.g.block }
/-- The group takes an exception: from `g`, the group as the instruction leaves it, the trap registers hold what
10 R218 and R219 say, m0 the present threads, handler mode is entered and the pc is at TVEC. The other registers and all
of memory are unchanged; a snapshot trigger may have fired (18 R410). -/
def Takes (s : State) (g : Group) (o : Out) (v : TrapV) : Prop :=
  ∃ t, o = .next t ∧
    t.g.trapCause = BitVec.ofNat 64 (v.cause % 256 + 256 * (v.thread % 256)) ∧ t.g.trapPc = v.pc ∧
    t.g.trapAddr = v.addr ∧ t.g.trapInfo = v.info ∧
    t.g.trapMask = BitVec.ofNat 64 ((g.mGet 0).toNat + 2 ^ 32 * v.fmask.toNat) ∧ t.g.trapHdr = g.hdr ∧
    t.g.handler = true ∧ t.g.pc = s.sys.tvec ∧ t.g.block = none ∧
    (∀ r, t.g.mGet r = if r = 0 then g.present else g.mGet r) ∧
    t.g = { g with
      trapCause := t.g.trapCause, trapPc := t.g.trapPc, trapAddr := t.g.trapAddr, trapInfo := t.g.trapInfo
      trapMask := t.g.trapMask, trapHdr := t.g.trapHdr, handler := t.g.handler, pc := t.g.pc, m := t.g.m
      block := t.g.block, atEntry := t.g.atEntry, preempting := t.g.preempting } ∧
    (∀ k, t.byte k = s.byte k ∧ t.psn k = s.psn k) ∧
    t = { s with
      g := t.g
      sys := { s.sys with snapPend := t.sys.snapPend, snapMissed := t.sys.snapMissed } }
/-- A vector instruction under mask m can issue: the group has the v registers and every one can be read, the s
registers too, and some thread is active (08 R167, R172, R192). -/
def State.MayVector (s : State) (m : MReg) (vs : List VReg) (uses : List Nat) : Prop :=
  s.g.Has vs ∧ s.Readable (usesV vs ++ uses) ∧ s.g.govern m ≠ 0
/-- Each sub-element of width w of a register holds the value that a function gives, modulo 2^w (13 R278). -/
def Elems (w : Nat) (x : W64) (val : Nat → Int) : Prop :=
  ∀ e, e < 64 / w → (sub_ w x e : Int) = val e % (2 ^ w : Nat)

/-- The instruction of n words writes vA in each active thread, sub-element by sub-element, and nothing else. -/
def SetsElems (s : State) (o : Out) (n : Nat) (m : MReg) (a : VReg) (w : Nat) (val : Nat → Nat → Int) : Prop :=
  SetsV s o n m a fun th v => Elems w v (val th)
/-- The instruction of n words writes mA: bit th is 1 exactly for the threads of the governing mask that meet a
condition (13 R284); nothing else changes. -/
def SetsTest (s : State) (o : Out) (n : Nat) (m : MReg) (a : MReg) (test : Nat → Prop) : Prop :=
  ∃ v, SetsM s o n a v ∧ ∀ th, th < 32 → (v.getLsbD th = true ↔ (s.g.govern m).getLsbD th = true ∧ test th)

/-! ## Memory. -/

/-- Nothing is on its way inside the device: no update to a home, no access at a core's port, nothing published only
within a core, no load of the group's that it waits for, and no die link is down (05 R98 to R103, R116, 01 R16). -/
def State.Quiet (s : State) : Prop :=
  s.homeQ = [] ∧ s.sys.allUp = true ∧ (∀ e ∈ s.cores, e.2.bankQ = [] ∧ e.2.narrow = []) ∧ s.g.loads = [] ∧
    ∀ p ∈ s.g.pend, p.sync = false
/-- Nothing concerns a peer device, no page moves and no deterministic domain runs (04 R80 to R92, 06 R132). -/
def State.Alone (s : State) : Prop := s.own = {} ∧ s.fab.reqs = [] ∧ s.disp.doms = [] ∧ s.g.det = none
/-- The registers of a memory operand are at hand, and for a vector form some thread is active (08 R167, R192). -/
def State.MayAccess (s : State) (o : MOpnd) (m : MReg) : Prop :=
  match o with
  | .u a b => s.Readable [useS a, useS b]
  | .v a b => s.MayVector m [a, b] []
/-- The flag an instruction takes has room (11 R244). -/
def Group.Room (g : Group) (f : Bool) : Prop := ∀ j, g.selFlag f = some j → g.fGet j < 15
/-- An instruction of n words gives results to registers: at once where its clause selects no flag, else as one
pending result that holds the flag (11 R244). `rest` says what else of the device differs. -/
def Gives (s : State) (o : Out) (n : Nat) (flag : Option Nat) (ws : List (Dest × W64)) (rest : State → Prop) : Prop :=
  ∃ t, o = .next t ∧ Retired n s.g t.g ∧ rest t ∧
    (flag = none → t.nextId = s.nextId ∧ t.g = { (s.g.writeAll ws) with
      gts := t.g.gts, pc := t.g.pc, retired := t.g.retired, block := t.g.block }) ∧
    (∀ j, flag = some j → t.nextId = s.nextId + 1 ∧
      (∀ i, t.g.fGet i = if i = j then s.g.fGet j + 1 else s.g.fGet i) ∧
      ∃ p : Pend, p.id = s.nextId ∧ p.flag = some j ∧ p.ipc = s.g.pc ∧ p.sync = false ∧
        p.writes = ws.map (fun w => (w.1, some (w.2, false))) ∧
        t.g = { s.g with
          f := t.g.f, pend := s.g.pend ++ [p]
          gts := t.g.gts, pc := t.g.pc, retired := t.g.retired, block := t.g.block })
/-- Besides the group and the next unused name, nothing of the device differs. -/
def OnlyGroupId (s t : State) : Prop := t = { s with g := t.g, nextId := t.nextId } ∧ t.g.gts = s.g.gts
/-- Reading caches: translations, a core's L1 lines and the leases they got; no byte of memory (03 R54, 04 R73). -/
def OnlyCaches (s t : State) : Prop :=
  t = { s with g := t.g, nextId := t.nextId, tlb := t.tlb, cores := t.cores, rts := t.rts, draws := t.draws } ∧
    s.g.gts ≤ t.g.gts ∧ ∀ c, { t.core c with l1 := [] } = { s.core c with l1 := [] }
/-- Stores of the bytes of some registers wait at the group's core's port, oldest first; memory is as before
(05 R103). -/
def Accepts (s : State) (o : Out) (n : Nat) (l : List (List Nat × W64)) : Prop :=
  ∃ t c x, s.g.unit = .core c x ∧ o = .next t ∧ Retired n s.g t.g ∧
    t = { s with g := t.g, cores := t.cores } ∧
    t.g = { s.g with pc := t.g.pc, retired := t.g.retired, block := t.g.block } ∧
    (∀ d, t.core d = if d = c then
        { s.core c with bankQ := (s.core c).bankQ ++ l.map fun e =>
          { keys := e.1, data := e.2, gid := s.g.gid, after := s.g.unread } }
      else s.core d)
/-- No replay filter is full: one more tag has room in each (06 R130). -/
def State.RoomForTag (s : State) : Prop := s.fab.filter.length < 1024
/-- Every line of the core's L1 is as its home has it. -/
def State.FreshL1 (s : State) (c : Nat) : Prop :=
  ∀ e ∈ (s.core c).l1, e.data = s.lineData e.line ∧ e.psn = s.linePsn e.line
/-- A byte as the group sees it: its own private one, else the home's (05 R98). -/
def State.seen (s : State) (k : Nat) : Byte :=
  match s.g.own k with
  | some (b, _) => b
  | none => s.byte k

/-- A resident group of a core, outside handler mode, on a quiet device that no peer concerns, with nothing
outstanding, private or covered by a fence. -/
def State.Calm (s : State) : Prop :=
  s.g.OnCore ∧ s.g.live = true ∧ s.g.handler = false ∧ s.Quiet ∧ s.Alone ∧ s.g.pend = [] ∧ s.g.priv = [] ∧
    s.g.fences = []
/-- No byte of memory, no poison mark and no core's own state differs. -/
def Keeps (s t : State) : Prop :=
  (∀ k, t.byte k = s.byte k ∧ t.psn k = s.psn k) ∧ ∀ c, t.core c = s.core c
/-- Of the group only the pc and what retiring n words touches differ. -/
def OnlyPc (n : Nat) (g h : Group) : Prop :=
  Retired n g h ∧ h = { g with pc := h.pc, retired := h.retired, block := h.block }
/-- The same, but the group's clock has risen at least to a stamp (05 R102). -/
def OnlyPcClock (n : Nat) (clk : Nat) (g h : Group) : Prop :=
  Retired n g h ∧ g.gts ≤ h.gts ∧ clk ≤ h.gts ∧
    h = { g with gts := h.gts, pc := h.pc, retired := h.retired, block := h.block }
/-- The locations of an access belong to no peer, and what the group sees of them is not poisoned. -/
def State.Clean (s : State) (ks : List Nat) : Prop :=
  ∀ k ∈ ks, isPeerKey k = false ∧ s.psn k = false ∧ ∀ b p, s.g.own k = some (b, p) → p = false

/-! ## The mailbox. -/

/-- A command is submitted and has not begun (17 R395, R396). -/
def State.HasCommand (s : State) (code : Nat) : Prop := s.hif.busy = true ∧ s.hif.pending = true ∧ s.hif.code = code
/-- The mailbox when the command has ended (17 R396): not busy, its status, one completion more, vector 0 raised. -/
def Hif.ended (h : Hif) (status : Nat) : Hif :=
  { h with
    pending := false, busy := false, status := BitVec.ofNat 16 status, count := h.count + 1
    msix := tblSet 0 h.msix 0 (tblGet 0 h.msix 0 + 1) }
/-- The command has ended with a status, and nothing else has happened. -/
def State.EndsAs (s : State) (o : Out) (status : Nat) : Prop := o = .next { s with hif := s.hif.ended status }

/-! ## The fabric. -/

/-- A packet can leave by a port at once: its destination's route is valid and names the port, no marker is out for
it, and the port's link is up with room in its buffers (17 R377, R379, R384). -/
def State.Leaves (s : State) (p : Packet) (n : Nat) : Prop :=
  let r := s.routeOf p.dst.toNat
  let l := s.flink n
  r.v = true ∧ r.port.toNat = n ∧ p.hop.toNat < 7 ∧ s.fab.markers.contains p.dst.toNat = false ∧
    l.up = true ∧ l.retraining = false ∧ l.txq = [] ∧ l.replay.length < 1024
/-- It has left: HOP counts one more, its flits are on the wire under the link's next number, and the link keeps it for
a replay (17 R377, R384). -/
def Left (s t : State) (p : Packet) (n : Nat) : Prop :=
  let l := s.flink n
  let q := { p with hop := p.hop + 1 }
  (t.flink n).wire = l.wire ++ l.flits l.txSeq q ∧ (t.flink n).replay = l.replay ++ [(l.txSeq, q)] ∧
    (t.flink n).txSeq = l.txSeq + 1

/-- A request stands at the owner of its page, and nothing there is in its way: the page does not move, no copy is
out, nothing is held, refused, asked for or on its way, and no deterministic domain runs (04 R82, R84, 03 R58). -/
def State.AtOwner (s : State) (p : Packet) (l : Leaf) : Prop :=
  s.ownLeaf p.addr = some l ∧ l.mig = false ∧ s.own.held = [] ∧ s.own.sharers = [] ∧ s.own.excl = [] ∧
    s.own.invq = [] ∧ s.own.pubs = [] ∧ s.own.pubOver = [] ∧ s.own.refused = [] ∧ s.fab.reqs = [] ∧ s.homeQ = [] ∧ s.disp.doms = [] ∧ ∀ e ∈ s.cores, e.2.narrow = []
/-- A packet has been taken from the router's input, and one that has a property has been put there. -/
def Sends (s t : State) (p : Packet) (P : Packet → Prop) : Prop :=
  ∃ r, P r ∧ t.fab.outbox = (s.take p).fab.outbox ++ [r]
/-- The answer to a request: it goes to the request's source under the request's tag (04 R82, 06 R130, 17 R383). -/
def Answers (s t : State) (p : Packet) (P : Packet → Prop) : Prop :=
  Sends s t p fun r => P r ∧ r.cls = 1 ∧ r.hop = 0 ∧ r.dst = p.src ∧ r.src = BitVec.ofNat 10 s.myId ∧
    r.unit = p.unit ∧ r.seqn = p.seqn ∧ r.addr = p.addr
/-- Only the owner's tables, the clock and the fabric differ; of the fabric, only the router's input. -/
def OnlyAnswers (s t : State) : Prop :=
  t = { s with own := t.own, fab := t.fab, pclk := t.pclk } ∧ t.fab = { s.fab with outbox := t.fab.outbox }
/-- Where the requester's tables give the page of a request another size, one record of KIND 4 more is written; else nothing
differs (04 R72). -/
def AtSize (u t : State) (p : Packet) : Prop :=
  t = { u with hif := t.hif, sys := t.sys } ∧
    (Config.freeSize (tagOf p) p.addr = false → t = u) ∧
    (Config.freeSize (tagOf p) p.addr = true → ∃ x, t.hif.records = u.hif.records ++ [x] ∧
      (x.words.getD 0 0).toNat % 2 ^ 12 = 4 + 2 ^ 8 * 3 ∧ x.words.getD 1 0 = p.addr ∧ x.words.getD 2 0 = tagOf p)
/-- Bytes have been written at their home under a stamp of their own; besides the owner's tables and the fabric, only
memory and its stamps differ (06 R120). -/
def Stored (s t : State) (k n : Nat) (val : Nat → Byte) : Prop :=
  (∀ i, i < n → t.byte (k + i) = val i) ∧ (∀ j, (j < k ∨ k + n ≤ j) → t.byte j = s.byte j) ∧
    t = { s with own := t.own, fab := t.fab, mem := t.mem, poison := t.poison, wts := t.wts, pclk := t.pclk }

end Sys2Proof.Machine
end

