-- ==== Sys2Proof/Certificates/Slice0/Obligations.lean ====
section
/-!
DEFINITION. What is claimed of the machine: one `def Obligations.<Name> : Prop` per statement, in the order of
OBLIGATIONS.json. The vocabulary (SetsS, SetsV, OnlyGroup and the like) stands in Sys2Proof/Safety.lean.
-/
open Sys2Proof Sys2Proof.Machine

/-- Uniform arithmetic (12 R265, R266): each writes its result to sA, and changes nothing else. -/
def Obligations.UniformArithmetic : Prop :=
  ∀ (s : State) (u : Bool) (a b : SReg) (c : UC), s.Readable ([useS a, useS b] ++ ucUses c) →
    let x := s.g.sGet b
    let y := ucVal s.g false c
    let z := ucVal s.g u c
    let n := ucWords c
    SetsS s (exec (.add a b c) s) n a (x + y) ∧
    SetsS s (exec (.sub a b c) s) n a (x - y) ∧
    SetsS s (exec (.mull a b c) s) n a (x * y) ∧
    SetsS s (exec (.mulh u a b c) s) n a
      (if u then BitVec.ofNat 64 (x.toNat * z.toNat / 2 ^ 64) else BitVec.ofInt 64 (x.toInt * z.toInt / 2 ^ 64)) ∧
    SetsS s (exec (.div u a b c) s) n a
      (if z = 0 then 0xFFFFFFFFFFFFFFFF else if u then x.udiv z else x.sdiv z) ∧
    SetsS s (exec (.rem u a b c) s) n a (if z = 0 then x else if u then x.umod z else x.srem z) ∧
    SetsS s (exec (.min u a b c) s) n a (if (if u then z.ult x else z.slt x) then z else x) ∧
    SetsS s (exec (.max u a b c) s) n a (if (if u then x.ult z else x.slt z) then z else x)

/-- DIV and REM (12 R266): the three cases of the rule, over the integers that the operands spell. -/
def Obligations.DivisionCorners : Prop :=
  ∀ (s : State) (u : Bool) (a b : SReg) (c : UC), s.Readable ([useS a, useS b] ++ ucUses c) →
    let x := s.g.sGet b
    let z := ucVal s.g u c
    let i : Int := if u then x.toNat else x.toInt
    let j : Int := if u then z.toNat else z.toInt
    ∃ q r : W64,
      SetsS s (exec (.div u a b c) s) (ucWords c) a q ∧ SetsS s (exec (.rem u a b c) s) (ucWords c) a r ∧
      (j = 0 → q = 0xFFFFFFFFFFFFFFFF ∧ r = x) ∧
      (u = false ∧ i = -2 ^ 63 ∧ j = -1 → q = 0x8000000000000000 ∧ r = 0) ∧
      (j ≠ 0 ∧ ¬ (u = false ∧ i = -2 ^ 63 ∧ j = -1) →
        (if u then (q.toNat : Int) else q.toInt) = i.tdiv j ∧
        (if u then (r.toNat : Int) else r.toInt) = i - j * i.tdiv j ∧
        (0 ≤ i → 0 ≤ (if u then (r.toNat : Int) else r.toInt)) ∧
        (i ≤ 0 → (if u then (r.toNat : Int) else r.toInt) ≤ 0))

/-- Uniform logic and shifts (12 R265), bit by bit. -/
def Obligations.UniformLogic : Prop :=
  ∀ (s : State) (a b : SReg) (c : UC) (ext : Bool), s.Readable ([useS a, useS b] ++ ucUses c) →
    let x := s.g.sGet b
    let y := ucVal s.g false c
    let n := ucWords c
    let k := y.toNat % 64
    SetsBits s (exec (.and a b c) s) n a (fun j => x.getLsbD j && y.getLsbD j) ∧
    SetsBits s (exec (.or a b c) s) n a (fun j => x.getLsbD j || y.getLsbD j) ∧
    SetsBits s (exec (.xor a b c) s) n a (fun j => x.getLsbD j != y.getLsbD j) ∧
    SetsBits s (exec (.shl a b c) s) n a (fun j => decide (k ≤ j) && x.getLsbD (j - k)) ∧
    SetsBits s (exec (.shr a b c) s) n a (fun j => x.getLsbD (j + k)) ∧
    SetsBits s (exec (.shra a b c) s) n a (fun j => if j + k < 64 then x.getLsbD (j + k) else x.getLsbD 63) ∧
    SetsBits s (exec (.rot a b c) s) n a (fun j => x.getLsbD ((j + 64 - k) % 64)) ∧
    (∃ z : Nat, SetsS s (exec (.clz ext a b) s) (extWords ext) a (BitVec.ofNat 64 z) ∧ z ≤ 64 ∧
      (∀ j, 64 - z ≤ j → x.getLsbD j = false) ∧ (z < 64 → x.getLsbD (63 - z) = true)) ∧
    SetsS s (exec (.popc ext a b) s) (extWords ext) a
      (BitVec.ofNat 64 ((List.range 64).countP fun j => x.getLsbD j))

/-- Moves, selection and address arithmetic (12 R267, R268). -/
def Obligations.UniformMoves : Prop :=
  ∀ (s : State) (a b c d : SReg) (ext : Bool) (v : W32) (q : W64) (sh : Fin 64) (disp : BitVec 24),
    s.Readable [useS a, useS b, useS c, useS d] →
    let x := s.g.sGet b
    let y := s.g.sGet c
    let z := s.g.sGet d
    SetsS s (exec (.mov ext a b) s) (if ext then 3 else 1) a x ∧
    SetsS s (exec (.movImm a v) s) 3 a (v.signExtend 64) ∧
    SetsS s (exec (.movi a v) s) 2 a (v.signExtend 64) ∧
    SetsS s (exec (.moviQ a q) s) 3 a q ∧
    SetsS s (exec (.addi a b v) s) 2 a (x + v.signExtend 64) ∧
    SetsS s (exec (.sel a b (.one c)) s) 1 a (if s.g.sGet a ≠ 0 then x else y) ∧
    SetsS s (exec (.sel a b (.ext c d)) s) 3 a (if z ≠ 0 then x else y) ∧
    SetsS s (exec (.sel a b (.extImm v d)) s) 3 a (if z ≠ 0 then x else v.signExtend 64) ∧
    SetsS s (exec (.lea a b c (.two sh disp)) s) 2 a (x + y * BitVec.ofNat 64 (2 ^ sh.val) + disp.signExtend 64) ∧
    SetsS s (exec (.lea a b c (.three sh disp d)) s) 3 a
      (x + y * BitVec.ofNat 64 (2 ^ sh.val) + disp.signExtend 64 + z)

/-- BEXT and BINS (12 R269), bit by bit. -/
def Obligations.BitFields : Prop :=
  ∀ (s : State) (a b : SReg) (f : BitForm) (pos len : Nat) (sx : Bool) (n : Nat) (uses : List Nat),
    bitForm s.g f = (pos, len, sx, n, uses) → wfBit f false = true →
    s.Readable ([useS a, useS b] ++ uses) →
    let x := s.g.sGet b
    SetsBits s (exec (.bext a b f) s) n a (fun j =>
      if j < len then x.getLsbD (pos + j) else sx && decide (0 < len) && x.getLsbD (pos + len - 1)) ∧
    SetsBits s (exec (.bins a b f) s) n a (fun j =>
      if pos ≤ j ∧ j < pos + len then x.getLsbD (j - pos) else (s.g.sGet a).getLsbD j) ∧
    pos + len ≤ 64 ∧
    (match f with
     | .lit2 p l t => pos = p.val ∧ len = l.val ∧ sx = t ∧ n = 2
     | .lit3 p l t => pos = p.val ∧ len = l.val ∧ sx = t ∧ n = 3
     | .reg c => pos = (s.g.sGet c).toNat % 64 ∧ len = min ((s.g.sGet c).toNat / 64 % 128) (64 - pos) ∧
         sx = (s.g.sGet c).getLsbD 13 ∧ n = 3)

/-- SETC and the mask instructions (12 R270, R271). -/
def Obligations.ConditionsAndMasks : Prop :=
  ∀ (s : State) (q : Cond) (a b : SReg) (c : UC) (ma mb mc : MReg),
    s.Readable ([useS a, useS b] ++ ucUses c) →
    let x := s.g.sGet b
    let y := ucVal s.g false c
    let P := s.g.present
    SetsS s (exec (.setc q a b c) s) (ucWords c) a (if condOn q x y then 1 else 0) ∧
    SetsM s (exec (.mset ma b) s) 1 ma (x.setWidth 32) ∧
    SetsM s (exec (.mand ma mb mc) s) 1 ma (s.g.mGet mb &&& s.g.mGet mc) ∧
    SetsM s (exec (.mor ma mb mc) s) 1 ma (s.g.mGet mb ||| s.g.mGet mc) ∧
    SetsM s (exec (.mxor ma mb mc) s) 1 ma (s.g.mGet mb ^^^ s.g.mGet mc) ∧
    SetsM s (exec (.mnot ma mb) s) 1 ma (~~~ s.g.mGet mb) ∧
    SetsS s (exec (.mpop a mb) s) 1 a
      (BitVec.ofNat 64 ((List.range 32).countP fun j => (s.g.mGet mb &&& P).getLsbD j)) ∧
    (∃ j : Nat, SetsS s (exec (.mfirst a mb) s) 1 a (BitVec.ofNat 64 j) ∧ j ≤ 32 ∧
      (∀ i, i < j → (s.g.mGet mb &&& P).getLsbD i = false) ∧
      (j < 32 → (s.g.mGet mb &&& P).getLsbD j = true)) ∧
    SetsS s (exec (.mmov a mb) s) 1 a ((s.g.mGet mb).setWidth 64)

/-- Housekeeping (11 R242 to R244, 12 R255, R256). A waiting group keeps its pc; the blocked form is the model's
way to hold an issue (08 R192). -/
def Obligations.Housekeeping : Prop :=
  ∀ (s : State) (wait : BitVec 12) (fa fb : FlagSel) (hot last stream : Bool) (v : W32),
    ((∀ j, j < 12 → wait.getLsbD j = true → s.g.fGet j = 0) →
      (∃ t, exec (.clause wait fa fb hot last stream) s = .next t ∧ OnlyGroup s t ∧ Retired 1 s.g t.g ∧
        t.g.hdr = s.g.pc ∧ t.g.fa = fa ∧ t.g.fb = fb ∧
        t.g = { s.g with hdr := t.g.hdr, fa := t.g.fa, fb := t.g.fb, pc := t.g.pc, retired := t.g.retired, block := t.g.block }) ∧
      OnlyRetires s (exec (.waitf wait) s) 1) ∧
    (s.Settled → (∃ j, j < 12 ∧ wait.getLsbD j = true ∧ s.g.writebackAll.fGet j ≠ 0) →
      (∃ j, j < 12 ∧ wait.getLsbD j = true ∧ s.g.fGet j ≠ 0) →
      let w : State := { s with g := { s.g.writebackAll with block := some (.flags wait) } }
      exec (.clause wait fa fb hot last stream) s = .next w ∧ exec (.waitf wait) s = .next w ∧ w.g.pc = s.g.pc) ∧
    OnlyRetires s (exec .nop s) 1 ∧ OnlyRetires s (exec (.nopTag (.lit v)) s) 2 ∧
    OnlyRetires s (exec (.nopTag .three) s) 3 ∧
    (∃ t, exec .yield s = .next t ∧ OnlyGroup s t ∧ Retired 1 s.g t.g ∧
      t.g.gts = (if s.g.det = none then max s.g.gts s.pclk else s.g.gts) ∧
      t.g = { s.g with gts := t.g.gts, yielded := true, pc := t.g.pc, retired := t.g.retired, block := t.g.block })

/-- Transfers (12 R258, R259, R261); one that fails changes no register. -/
def Obligations.Transfers : Prop :=
  (∀ (s : State) (a b : SReg) (m : MReg) (q : Cond) (mq : MCond) (off : W32), s.Readable [useS a, useS b] →
    let tgt := s.g.pc + off.signExtend 64
    let x := s.g.sGet a
    let y := s.g.sGet b
    let taken := condOn q x y
    let mtaken := mcondOn mq (s.g.mGet m) s.g.present
    let same := s.g.sGet
    (s.LandsOn tgt →
      GoesTo s (exec (.br off) s) tgt same ∧
      GoesTo s (exec (.call a off) s) tgt (fun r => if r = a ∧ a ≠ 0 then s.g.pc + 8 else s.g.sGet r) ∧
      (taken = true → GoesTo s (exec (.brc q a b off) s) tgt same) ∧
      (mtaken = true → GoesTo s (exec (.brm mq m off) s) tgt same) ∧
      (1 < x.toNat → GoesTo s (exec (.loop a off) s) tgt (fun r => if r = a ∧ a ≠ 0 then x - 1 else s.g.sGet r))) ∧
    (s.LandsOn x → GoesTo s (exec (.jmp a) s) x same ∧ GoesTo s (exec (.ret a) s) x same) ∧
    (taken = false → GoesTo s (exec (.brc q a b off) s) (s.g.pc + 8) same) ∧
    (mtaken = false → GoesTo s (exec (.brm mq m off) s) (s.g.pc + 8) same) ∧
    (x.toNat ≤ 1 → GoesTo s (exec (.loop a off) s) (s.g.pc + 8)
      (fun r => if r = a ∧ a ≠ 0 then 0 else s.g.sGet r))) ∧
  (∀ (s : State) (a : SReg) (off : W32), s.MayTrap → s.Readable [useS a] →
    let tgt := s.g.pc + off.signExtend 64
    let x := s.g.sGet a
    let entry (d : W64) : TrapV := { cause := 0x04, addr := d, pc := s.g.pc }
    let bad (d : W64) : Prop := d.toNat % 4 ≠ 0 ∨ 2 ^ 63 ≤ d.toNat ∨ ∃ w, fetchWord s d = .word w ∧ headerFlags w = none
    (bad tgt →
      Takes s s.g (exec (.br off) s) (entry tgt) ∧ Takes s s.g (exec (.call a off) s) (entry tgt) ∧
      (1 < x.toNat → Takes s s.g (exec (.loop a off) s) (entry tgt))) ∧
    (bad x → Takes s s.g (exec (.jmp a) s) (entry x) ∧ Takes s s.g (exec (.ret a) s) (entry x)) ∧
    (∀ e, tgt.toNat % 4 = 0 → tgt.toNat < 2 ^ 63 → fetchWord s tgt = .fail e →
      Takes (s.dropFetched e.cause tgt) s.g (exec (.br off) s)
        { cause := e.cause, addr := tgt, info := e.info, pc := s.g.pc } ∧
      Takes (s.dropFetched e.cause tgt) s.g (exec (.call a off) s)
        { cause := e.cause, addr := tgt, info := e.info, pc := s.g.pc }))

/-- The trap instructions, the two exceptions of a fetch (12 R264, 11 R245, R250; 10 R216 to R219), and double traps (10 R222,
R223; 12 R263). -/
def Obligations.ExceptionEntry : Prop :=
  (∀ (s : State) (code : BitVec 12) (info addr : W64) (cause : BitVec 8), s.MayTrap →
    Takes s (s.g.retire 1) (exec (.trap code) s)
      { cause := 0x21, addr := s.g.pc, info := code.setWidth 64, pc := s.g.pc + 4 } ∧
    Takes s (s.g.retire 1) (exec .bkpt s) { cause := 0x22, addr := s.g.pc, pc := s.g.pc + 4 } ∧
    Takes s s.g (exec (.unassignedEncoding info) s) { cause := 0x01, addr := 0, info := info, pc := s.g.pc } ∧
    Takes s s.g (exec (.instructionFetchFault cause addr info) s)
      { cause := cause.toNat, addr := addr, info := info, pc := s.g.pc }) ∧
  (∀ (s : State) (code : BitVec 12) (ext : Bool) (info : W64),
    s.g.OnCore → s.g.handler = true → s.g.pend = [] → s.Settled →
    let suspends (o : Out) (cause : Nat) (pc addr info : W64) : Prop :=
      ∃ t c x w0, o = .next t ∧ s.g.unit = .core c x ∧ t.g.suspended = some s.nextId ∧ t.nextId = s.nextId + 1 ∧
        t.g.trapCause = BitVec.ofNat 64 (cause + 256 * 0xFF + 65536) ∧
        t.g.trapPc = pc ∧ t.g.trapAddr = addr ∧ t.g.trapInfo = info ∧ t.g.handler = true ∧
        t.hif.records = s.hif.records ++ [{ words := [w0, pc, addr, info], log := some (.mk 0 2 cause false s.g.gid s.g.ctx) }] ∧
        w0 = BitVec.ofNat 64 (cause + 256 * 2 + 2 ^ 32 * (s.g.ctx % 1024 + 1024 * (c % 1024) + 2 ^ 20 * (x % 32))) ∧
        (∀ k, t.byte k = s.byte k) ∧ t.g.s = s.g.s ∧ t.g.v = s.g.v ∧ t.g.m = s.g.m
    suspends (exec (.trap code) s) 0x21 (s.g.pc + 4) s.g.pc (code.setWidth 64) ∧
    suspends (exec .bkpt s) 0x22 (s.g.pc + 4) s.g.pc 0 ∧
    suspends (exec .exit s) 0x03 s.g.pc 0 3 ∧ suspends (exec (.tdone ext) s) 0x03 s.g.pc 0 3 ∧
    suspends (exec (.unassignedEncoding info) s) 0x01 s.g.pc 0 info)

/-- Return from an exception (10 R219, R220). -/
def Obligations.ExceptionReturn : Prop :=
  ∀ (s : State) (w : W32) (fa fb : FlagSel), s.g.OnCore →
    (s.g.handler = true ∨ s.g.ufwd = true → s.g.trapHdr.toNat % 4 = 0 → s.g.trapHdr.toNat < 2 ^ 63 →
      fetchWord s s.g.trapHdr = .word w → headerFlags w = some (fa, fb) →
      ∃ t, exec .tret s = .next t ∧ t.g.handler = false ∧ t.g.ufwd = (s.g.handler && s.g.ufwd) ∧ t.g.pc = s.g.trapPc ∧
        t.g.hdr = s.g.trapHdr ∧ t.g.fa = fa ∧ t.g.fb = fb ∧ t.g.block = none ∧
        t.g.retired = (if s.g.handler then s.g.retired else s.g.retired + 1) ∧
        (∀ r, t.g.mGet r = if r = 0 then s.g.trapMask.setWidth 32 &&& s.g.present else s.g.mGet r) ∧
        (∀ k, t.byte k = s.byte k ∧ t.psn k = s.psn k) ∧
        t.g = { s.g with
          handler := false, ufwd := t.g.ufwd, pc := t.g.pc, hdr := t.g.hdr, fa := fa, fb := fb, m := t.g.m
          retired := t.g.retired, block := none } ∧
        t = { s with g := t.g, arrays := t.arrays }) ∧
    (s.MayTrap → s.g.ufwd = false → Takes s s.g (exec .tret s) { cause := 0x03, addr := 0, info := 3, pc := s.g.pc })

/-- Vector integer arithmetic (13 R281). -/
def Obligations.VectorArithmetic : Prop :=
  ∀ (s : State) (z : Size) (f : VForm) (a b d : VReg) (c : VC),
    s.MayVector (vMask f) (a :: b :: d :: vcRegs c) [] →
    let w := zw z
    let n := vWords f
    let m := vMask f
    let x (th e : Nat) : Nat := sub_ w (s.g.vGet b th) e
    let y (th e : Nat) : Nat := sub_ w (vcVal s.g w th c) e
    let u (th e : Nat) : Nat := sub_ w (s.g.vGet d th) e
    let sat (i : Int) : Int := max (-(2 ^ (w - 1))) (min i (2 ^ (w - 1) - 1))
    SetsElems s (exec (.vadd z f a b c) s) n m a w (fun th e => (x th e : Int) + y th e) ∧
    SetsElems s (exec (.vsub z f a b c) s) n m a w (fun th e => (x th e : Int) - y th e) ∧
    SetsElems s (exec (.vadds z f a b c) s) n m a w (fun th e => sat (toInt w (x th e) + toInt w (y th e))) ∧
    SetsElems s (exec (.vsubs z f a b c) s) n m a w (fun th e => sat (toInt w (x th e) - toInt w (y th e))) ∧
    SetsElems s (exec (.vmul z f a b c) s) n m a w (fun th e => (x th e : Int) * y th e) ∧
    SetsElems s (exec (.vmulh z f a b c) s) n m a w (fun th e => toInt w (x th e) * toInt w (y th e) / 2 ^ w) ∧
    SetsElems s (exec (.vmad z f a b c d) s) n m a w (fun th e => (x th e : Int) * y th e + u th e) ∧
    SetsElems s (exec (.vneg z f a b) s) n m a w (fun th e => -(x th e : Int))

/-- Vector logic and shifts (13 R282). -/
def Obligations.VectorLogic : Prop :=
  ∀ (s : State) (z : Size) (f : VForm) (a b : VReg) (c : VC),
    s.MayVector (vMask f) (a :: b :: vcRegs c) [] →
    let w := zw z
    let n := vWords f
    let m := vMask f
    let X (th : Nat) : W64 := s.g.vGet b th
    let Y (th : Nat) : W64 := vcVal s.g w th c
    let x (th e : Nat) : Nat := sub_ w (X th) e
    let k (th e : Nat) : Nat := sub_ w (Y th) e % w
    SetsV s (exec (.vand z f a b c) s) n m a (fun th v => v = X th &&& Y th) ∧
    SetsV s (exec (.vor z f a b c) s) n m a (fun th v => v = X th ||| Y th) ∧
    SetsV s (exec (.vxor z f a b c) s) n m a (fun th v => v = X th ^^^ Y th) ∧
    SetsV s (exec (.vnot z f a b) s) n m a (fun th v => v = ~~~(X th)) ∧
    SetsElems s (exec (.vshl z f a b c) s) n m a w (fun th e => (x th e : Int) * 2 ^ k th e) ∧
    SetsElems s (exec (.vshr z f a b c) s) n m a w (fun th e => (x th e : Int) / 2 ^ k th e) ∧
    SetsElems s (exec (.vshra z f a b c) s) n m a w (fun th e => toInt w (x th e) / 2 ^ k th e) ∧
    SetsElems s (exec (.vclz z f a b) s) n m a w
      (fun th e => if x th e = 0 then (w : Int) else w - 1 - Nat.log2 (x th e))

/-- Vector minimum, maximum, absolute value and compare (13 R283, R284). -/
def Obligations.VectorCompare : Prop :=
  ∀ (s : State) (z : Size) (f : VForm) (a b : VReg) (c : VC) (q : Cond) (ma : MReg),
    s.MayVector (vMask f) (a :: b :: vcRegs c) [] →
    let w := zw z
    let n := vWords f
    let m := vMask f
    let x (th e : Nat) : Nat := sub_ w (s.g.vGet b th) e
    let y (th e : Nat) : Nat := sub_ w (vcVal s.g w th c) e
    let sx (th e : Nat) : Int := toInt w (x th e)
    let sy (th e : Nat) : Int := toInt w (y th e)
    SetsElems s (exec (.vmin z f a b c) s) n m a w (fun th e => min (sx th e) (sy th e)) ∧
    SetsElems s (exec (.vmax z f a b c) s) n m a w (fun th e => max (sx th e) (sy th e)) ∧
    SetsElems s (exec (.vminU z f a b c) s) n m a w (fun th e => min (x th e) (y th e)) ∧
    SetsElems s (exec (.vmaxU z f a b c) s) n m a w (fun th e => max (x th e) (y th e)) ∧
    SetsElems s (exec (.vabs z f a b) s) n m a w (fun th e => ((sx th e).natAbs : Int)) ∧
    SetsElems s (exec (.vabss z f a b) s) n m a w (fun th e => min ((sx th e).natAbs : Int) (2 ^ (w - 1) - 1)) ∧
    SetsElems s (exec (.vpopc z f a b) s) n m a w
      (fun th e => ((List.range w).countP fun j => (x th e).testBit j : Nat)) ∧
    SetsTest s (exec (.vcmp q z f ma b c) s) n m ma (fun th => ∀ e, e < 64 / w →
      match q with
      | .eq => x th e = y th e
      | .ne => x th e ≠ y th e
      | .lt => sx th e < sy th e
      | .le => sx th e ≤ sy th e
      | .gt => sy th e < sx th e
      | .ge => sy th e ≤ sx th e
      | .ltu => x th e < y th e
      | .leu => x th e ≤ y th e)

/-- Vector moves and random numbers (13 R285, R295). -/
def Obligations.VectorMoves : Prop :=
  ∀ (s : State) (z : Size) (f : VForm) (a b d : VReg) (c : VC) (sb : SReg) (v : W32) (q : W64) (k : Fin 64)
    (h : Bool) (mi : MReg),
    let w := zw z
    let n := vWords f
    let m := vMask f
    let B (th : Nat) : W64 := s.g.vGet b th
    (s.MayVector (vMask f) (a :: b :: d :: vcRegs c) [useS sb] →
      SetsV s (exec (.vmov z f a b) s) n m a (fun th r => r = B th) ∧
      SetsElems s (exec (.vbcast z f a sb) s) n m a w (fun _ _ => (s.g.sGet sb).toNat) ∧
      SetsElems s (exec (.vexts z f a b k) s) n m a w (fun th e => toInt (k.val + 1) (sub_ w (B th) e)) ∧
      (z ≠ .d → SetsElems s (exec (.vpack z f a b c) s) n m a w (fun th e =>
        let i := if e < 32 / w then toInt (2 * w) (sub_ (2 * w) (B th) e)
          else toInt (2 * w) (sub_ (2 * w) (vcVal s.g (2 * w) th c) (e - 32 / w))
        max (-(2 ^ (w - 1))) (min i (2 ^ (w - 1) - 1)))) ∧
      (z ≠ .d → SetsElems s (exec (.vunpk z f a b h) s) n m a (2 * w) (fun th e =>
        toInt w (sub_ w (B th) (e + if h then 32 / w else 0)))) ∧
      SetsElems s (exec (.vsel z f a b c d) s) n m a w (fun th e =>
        if sub_ w (s.g.vGet d th) e ≠ 0 then sub_ w (B th) e else sub_ w (vcVal s.g w th c) e) ∧
      (s.g.OnCore → ∃ t, exec (.vrand z f a sb) s = .next t ∧ OnlyGroup s t ∧ Retired n s.g t.g ∧
        (∀ r th, th < 32 → (r ≠ a ∨ ¬ s.g.Active m th) → t.g.vGet r th = s.g.vGet r th) ∧
        (∀ th, th < 32 → s.g.Active m th →
          t.g.vGet a th = randValue s.g.rngKey th (tblGet 0 s.g.rngCtr th) (s.g.sGet sb)) ∧
        (∀ th, tblGet 0 t.g.rngCtr th =
          if th < 32 ∧ (s.g.govern m).getLsbD th = true then tblGet 0 s.g.rngCtr th + 1 else tblGet 0 s.g.rngCtr th) ∧
        t.g = { s.g with
          v := t.g.v, rngCtr := t.g.rngCtr, pc := t.g.pc, retired := t.g.retired, block := t.g.block })) ∧
    (s.MayVector mi [a] [] → SetsElems s (exec (.vmovImm z mi a v) s) 3 mi a w (fun _ _ => v.toInt)) ∧
    (s.MayVector 0 [a] [] →
      SetsElems s (exec (.vmovi z a v) s) 2 0 a w (fun _ _ => v.toInt) ∧
      SetsV s (exec (.vmoviQ a q) s) 3 0 a (fun _ r => r = q))

/-- Vector floating arithmetic (13 R286 to R290), in terms of the exact numbers that the encodings spell. -/
def Obligations.VectorFloat : Prop :=
  ∀ (s : State) (t : FType) (f : VForm) (a b d : VReg) (c : VC) (mode : RMode) (q : FCond) (ma : MReg),
    s.MayVector (vMask f) (a :: b :: d :: vcRegs c) [] →
    let w := ftw t
    let F := ftFmt t
    let n := vWords f
    let m := vMask f
    let bx (th e : Nat) : Nat := sub_ w (s.g.vGet b th) e
    let x (th e : Nat) : Fp := F.dec (bx th e)
    let y (th e : Nat) : Fp := F.dec (sub_ w (fcVal s.g t th c) e)
    let u (th e : Nat) : Fp := F.dec (sub_ w (s.g.vGet d th) e)
    let gives (o : Out) (val : Nat → Nat → Nat) : Prop := SetsElems s o n m a w (fun th e => val th e)
    gives (exec (.vfadd t f a b c) s) (fun th e => F.enc ((x th e).add (y th e))) ∧
    gives (exec (.vfsub t f a b c) s) (fun th e => F.enc ((x th e).add (y th e).neg)) ∧
    gives (exec (.vfmul t f a b c) s) (fun th e => F.enc ((x th e).mul (y th e))) ∧
    gives (exec (.vfma t f a b c d) s) (fun th e => F.enc (((x th e).mul (y th e)).add (u th e))) ∧
    gives (exec (.vfmin t f a b c) s) (fun th e => F.enc ((x th e).min_ (y th e))) ∧
    gives (exec (.vfmax t f a b c) s) (fun th e => F.enc ((x th e).max_ (y th e))) ∧
    gives (exec (.vfdiv t f a b c) s) (fun th e => F.div (x th e) (y th e)) ∧
    gives (exec (.vfrcp t f a b) s) (fun th e => F.div (.num false 1 0) (x th e)) ∧
    gives (exec (.vfsqrt t f a b) s) (fun th e => F.sqrt (x th e)) ∧
    gives (exec (.vfrsq t f a b) s) (fun th e => F.rsq (x th e)) ∧
    gives (exec (.vfexp2 t f a b) s) (fun th e => F.exp2 (x th e)) ∧
    gives (exec (.vflog2 t f a b) s) (fun th e => F.log2 (x th e)) ∧
    gives (exec (.vfrnd t f a b mode) s) (fun th e => F.rnd mode (x th e)) ∧
    gives (exec (.vfclass t f a b) s) (fun th e => F.classBits (bx th e)) ∧
    gives (exec (.vfabs t f a b) s) (fun th e => bx th e % 2 ^ (w - 1)) ∧
    gives (exec (.vfneg t f a b) s) (fun th e => Nat.xor (bx th e) (2 ^ (w - 1))) ∧
    SetsTest s (exec (.vfcmp q t f ma b c) s) n m ma (fun th => ∀ e, e < 64 / w →
      fcondHolds q (x th e) (y th e) = true)

/-- VFCVT, VQNT and VDQNT (13 R291, R294). -/
def Obligations.VectorConvert : Prop :=
  ∀ (s : State) (t : FType) (dt st : CType) (f : VForm) (a b : VReg) (c : VC) (h : Bool) (mode : RMode),
    s.MayVector (vMask f) (a :: b :: vcRegs c) [] →
    let n := vWords f
    let m := vMask f
    let k := if h then 2 else 0
    let cv (th e : Nat) : Nat := convert dt st mode (sub_ (ctw st) (s.g.vGet b th) e)
    let w := ftw t
    let x (th e : Nat) : Nat := sub_ w (s.g.vGet b th) e
    let q (th e : Nat) : Nat := sub_ w (fcVal s.g t th c) e
    let D (v : Nat) : Int := if v / 2 ^ 11 % 2 = 1 then toInt 4 (v / 2 ^ 12 % 16) else 0
    SetsElems s (exec (.vfcvt dt st f a b h mode) s) n m a (ctw dt) (fun th e =>
      if ctw st < ctw dt then cv th (k + e)
      else if ctw dt < ctw st then
        if k ≤ e ∧ e < k + 2 then cv th (e - k) else sub_ 16 (s.g.vGet a th) e
      else cv th e) ∧
    ((∀ th, th < 32 → (s.g.govern m).getLsbD th = true → ∀ e, e < 64 / w → q th e / 256 % 8 ≤ 3) →
      SetsElems s (exec (.vqnt t f a b c) s) n m a w (fun th e =>
        quantise (q th e / 256 % 8) (q th e % 256) (D (q th e)) ((ftFmt t).dec (x th e))) ∧
      SetsElems s (exec (.vdqnt t f a b c) s) n m a w (fun th e =>
        dequantise (ftFmt t) (toInt (qBits (q th e / 256 % 8)) (x th e)) (q th e % 256) (D (q th e))
          (decide (q th e / 2 ^ 11 % 2 = 1))))

/-- Cross-thread instructions (13 R296 to R300). N is 32 threads' elements; the reductions go by the model's
`canonical` and `scanVals`, in the order of 06 R131. -/
def Obligations.CrossThread : Prop :=
  ∀ (s : State) (op : RedOp) (x : Bool) (z : Size) (f : VForm) (a b : VReg) (c : VC) (xc : XC) (p : Fin 8) (ma : MReg),
    s.g.OnCore → s.MayVector (vMask f) (a :: b :: vcRegs c) (xcUses xc) →
    let w := zw z
    let n := 64 / w
    let N := 32 * n
    let m := vMask f
    let elem (L : Nat) : Int := sub_ w (s.g.vGet b (L / n)) (L % n)
    let shifted (th e : Nat) : Int := (n * th + e : Nat) - xcVal s.g xc
    let act : List Nat := activeOf (s.g.govern m)
    let els : List Nat := act.flatMap fun th => (List.range n).map fun e => sub_ w (s.g.vGet b th) e
    let scan : List Nat := scanVals op w x (if x then some (redIdentity op w) else none) els
    SetsElems s (exec (.xsel z f a b c) s) (vWords f) m a w (fun th e =>
      if sub_ w (vcVal s.g w th c) e < N then elem (sub_ w (vcVal s.g w th c) e) else 0) ∧
    SetsElems s (exec (.xshf z f a b xc) s) (vWords f) m a w (fun th e =>
      if 0 ≤ shifted th e ∧ shifted th e < N then elem (shifted th e).toNat else 0) ∧
    SetsElems s (exec (.xrot z f a b xc) s) (vWords f) m a w (fun th e => elem (shifted th e % N).toNat) ∧
    (2 ^ p.val < N → SetsElems s (exec (.xbfly z f a b p) s) (vWords f) m a w (fun th e =>
      elem (Nat.xor (n * th + e) (2 ^ p.val)))) ∧
    SetsElems s (exec (.xred op z f a b) s) (vWords f) m a w (fun _ _ => (canonical (redApply op w) els 0 : Nat)) ∧
    SetsElems s (exec (.xscan op x z f a b) s) (vWords f) m a w (fun th e =>
      (scan.getD (n * (act.countP fun u => decide (u < th)) + e) 0 : Nat)) ∧
    SetsTest s (exec (.xbal z f ma b) s) (vWords f) m ma (fun th => s.g.vGet b th ≠ 0)

/-- VSCALE and VDITH (13 R293): view element (i, j + e), where i is the low half of vB and j its high half. -/
def Obligations.FrameDescriptors : Prop :=
  ∀ (s : State) (t : FType) (f : VForm) (a b : VReg) (c : SReg) (core x : Nat),
    s.g.unit = .core core x → s.Settled → (s.core core).bankQ = [] → s.MayVector (vMask f) [a, b] [useS c] →
    let w := ftw t
    let n := 64 / w
    let off := s.g.sGet c
    let fr := frameAt s core off.toNat
    let S := spaceSize s s.who .core
    let i (th : Nat) : Nat := (s.g.vGet b th).toNat % 2 ^ 32
    let j (th e : Nat) : Nat := (s.g.vGet b th).toNat / 2 ^ 32 + e
    let D (th e : Nat) : Int := s.frameD core fr (i th) (j th e)
    let clean (k : Nat) : Prop := s.psn k = false
    frameHead s.g.pc S off 0 fr = .ok () →
    (∀ k ∈ span (keyCore core off.toNat) 32, clean k) →
    (∀ th, th < 32 → (s.g.govern (vMask f)).getLsbD th = true → frameRowBad S fr (i th) = false ∧
      (frIdx fr = true → ∀ k ∈ span (keyCore core (frIndex fr + 4 * i th)) 4, clean k)) →
    SetsElems s (exec (.vdith t f a b c) s) (vWords f) (vMask f) a w D ∧
    ((∀ th, th < 32 → (s.g.govern (vMask f)).getLsbD th = true → ∀ e, e < n →
        frameScaleBad S fr (i th) (j th e) = false ∧ clean (keyCore core (frScaleAt fr (i th) (j th e)))) →
      SetsElems s (exec (.vscale t f a b c) s) (vWords f) (vMask f) a w (fun th e =>
        (s.byte (keyCore core (frScaleAt fr (i th) (j th e)))).toNat + 2 ^ 8 * frFmt fr +
          2 ^ 11 * (if frDith fr then 1 else 0) + 2 ^ 12 * (D th e % 16)))

/-- The two ends of a vector instruction (08 R167, R172), for one instruction of every shape; vA is the register
that the second clause looks at first. -/
def Obligations.VectorEdges : Prop :=
  ∀ (s : State) (op : RedOp) (z : Size) (t : FType) (f : VForm) (mi : MReg) (v : W32) (a b c : VReg) (fl : Bool)
    (i : Instr) (n : Nat) (m : MReg) (at_ : AtomAttr),
    (i, n, m) ∈ [(Instr.vadd z f a b (.reg c), vWords f, vMask f), (.vneg z f a b, vWords f, vMask f),
      (.vfma t f a b (.reg c) c, vWords f, vMask f), (.vfsqrt t f a b, vWords f, vMask f),
      (.vsel z f a b (.reg c) c, vWords f, vMask f), (.vmovImm z mi a v, 3, mi), (.vmovi z a v, 2, 0),
      (.vqnt t f a b (.reg c), vWords f, vMask f), (.xsel z f a b (.reg c), vWords f, vMask f),
      (.xred op z f a b, vWords f, vMask f), (.ld z (.v a b) (.ext v mi) fl, 3, mi),
      (.st z (.v a b) (.ext v mi), 3, mi), (.ldg z (.v a b) (.lit v) fl, 2, 0), (.stg z (.v a b) (.d6 0), 1, 0),
      (.atomAdd (.v a b c) at_ fl, 3, at_.mask), (.sptest (.v a b) f, vWords f, vMask f)] →
    (s.g.govern m = 0 → s.g.Has [a, b, c] → OnlyRetires s (exec i s) n) ∧
    (s.MayTrap → s.g.nv ≤ a.val →
      Takes s s.g (exec i s) { cause := 0x01, addr := 0, info := BitVec.ofNat 64 (2 ^ 63 + a.val), pc := s.g.pc })

/-- Reading system registers (12 R273, R274), on a core. -/
def Obligations.CsrReads : Prop :=
  ∀ (s : State) (a : SReg) (num : BitVec 15) (k : Nat), s.g.OnCore → s.Readable [useS a] →
    let g := s.g
    let core := unitCoreN g.unit
    let bit (b : Bool) (n : Nat) : Nat := if b then 2 ^ n else 0
    let reads (n : Nat) (v : W64) : Prop := num.toNat = n → SetsS s (exec (.csrrd a num) s) 1 a v
    reads 0x100 (g.gidx.setWidth 64) ∧ reads 0x101 (g.ngrp.setWidth 64) ∧
    (g.localNum < 32 ∧ g.onCore < 64 → reads 0x102 (BitVec.ofNat 64 (g.localNum + 32 * g.onCore))) ∧
    (k < 7 → g.lvlIdx.getD k 0 < 65536 → reads (0x109 + k) (BitVec.ofNat 64 (g.lvlIdx.getD k 0))) ∧
    (k < 8 → g.lvlCnt.getD k 0 < 65536 → reads (0x110 + k) (BitVec.ofNat 64 (g.lvlCnt.getD k 0))) ∧
    reads 0x118 (g.team.setWidth 64) ∧
    (s.sys.fuse.clusterOf core < 128 → reads 0x119 (BitVec.ofNat 64 (s.sys.fuse.clusterOf core))) ∧
    reads 0x11A (BitVec.ofNat 64 (bit (decide (core % 2 = 0)) 0 + bit (decide (g.producer = some g.localNum)) 1 +
      bit s.isMatrix 2)) ∧
    reads 0x200 g.trapCause ∧ reads 0x201 g.trapPc ∧ reads 0x202 g.trapAddr ∧ reads 0x203 g.trapInfo ∧
    reads 0x204 g.trapMask ∧ reads 0x205 g.trapHdr ∧
    (g.handler = true → reads 0x206 g.save0 ∧ reads 0x207 g.save1) ∧
    reads 0x208 s.sys.tvec ∧ reads 0x209 g.utvec ∧
    reads 0x20A (BitVec.ofNat 64 (bit g.handler 0 + bit g.ufwd 1)) ∧ reads 0x20B g.saveBase ∧
    reads 0x400 s.sys.cycle ∧ reads 0x401 g.retired ∧
    (k < 256 → reads (0x1000 + k) (enumWord s k)) ∧
    reads 0x210 s.mstate ∧
    (s.MayTrap → num.toNat = 0x300 ∨ num.toNat = 0x206 ∨ num.toNat = 0x207 →
      Takes s s.g (exec (.csrrd a num) s) { cause := 0x03, addr := 0, info := 1, pc := s.g.pc })

/-- Writing system registers (12 R273, R274). -/
def Obligations.CsrWrites : Prop :=
  ∀ (s : State) (a : SReg) (num : BitVec 15), s.g.OnCore → s.Readable [useS a] →
    let x := s.g.sGet a
    let n := num.toNat
    let writes (k : Nat) (h : Group → Group) : Prop := n = k →
      ∃ t, exec (.csrwr a num) s = .next t ∧ OnlyGroup s t ∧ Retired 1 s.g t.g ∧
        t.g = { h s.g with pc := t.g.pc, retired := t.g.retired, block := t.g.block }
    writes 0x209 (fun g => { g with utvec := x }) ∧
    (s.g.handler = true →
      writes 0x200 (fun g => { g with trapCause := BitVec.ofNat 64 (x.toNat % 2 ^ 17) }) ∧
      writes 0x201 (fun g => { g with trapPc := x }) ∧ writes 0x202 (fun g => { g with trapAddr := x }) ∧
      writes 0x203 (fun g => { g with trapInfo := x }) ∧ writes 0x204 (fun g => { g with trapMask := x }) ∧
      writes 0x205 (fun g => { g with trapHdr := x }) ∧ writes 0x206 (fun g => { g with save0 := x }) ∧
      writes 0x207 (fun g => { g with save1 := x })) ∧
    (s.MayTrap → n = 0x300 ∨ (0x200 ≤ n ∧ n ≤ 0x207) →
      Takes s s.g (exec (.csrwr a num) s) { cause := 0x03, addr := 0, info := 1, pc := s.g.pc })

/-- Loads of the unmanaged spaces (14 R302 to R306), at offset base + displacement. -/
def Obligations.LocalLoads : Prop :=
  ∀ (s : State) (z : Size) (o : MOpnd) (d : Sys2Proof.Disp) (f : Bool) (sp : Space) (i : Instr),
    (sp, i) ∈ [(Space.core, Instr.lds z o d f), (.cluster, .ldc z o d f), (.lane, .ldl z o d f),
      (.chip, .ldx z o d f)] →
    s.g.OnCore → s.Quiet → s.MayAccess o (dispMask d) → s.g.Room f →
    let ts := moThreads s.g (dispMask d) o
    let ea (t : Nat) : W64 := moBase s.g t o + dispVal z d
    let keys (t : Nat) : List Nat := spaceKeys s s.who t sp (ea t).toNat (zBytes z)
    (∀ t ∈ ts, (ea t).toNat + zBytes z ≤ spaceSize s s.who sp ∧ (ea t).toNat % zBytes z = 0 ∧
      ∀ k ∈ keys t, s.psn k = false) →
    Gives s (exec i s) (dispWords d) (s.g.selFlag f)
      (ts.map fun t => (moDest t o, BitVec.ofNat 64 (leNat ((keys t).map s.byte)))) (OnlyGroupId s)

/-- Stores to the unmanaged spaces (14 R302 to R306, 05 R103). -/
def Obligations.LocalStores : Prop :=
  (∀ (s : State) (z : Size) (o : MOpnd) (d : Sys2Proof.Disp) (sp : Space) (i : Instr),
    (sp, i) ∈ [(Space.core, Instr.sts z o d), (.cluster, .stc z o d), (.lane, .stl z o d), (.chip, .stx z o d)] →
    s.g.OnCore → s.homeQ = [] → s.sys.allUp = true → s.MayAccess o (dispMask d) →
    let ts := moThreads s.g (dispMask d) o
    let ea (t : Nat) : W64 := moBase s.g t o + dispVal z d
    (∀ t ∈ ts, (ea t).toNat + zBytes z ≤ spaceSize s s.who sp ∧ (ea t).toNat % zBytes z = 0) →
    Accepts s (exec i s) (dispWords d)
      (ts.map fun t => (spaceKeys s s.who t sp (ea t).toNat (zBytes z), moData s.g t o))) ∧
  (∀ (s : State) (c : Nat) (a : BankAcc), (s.core c).bankQ = [a] → a.op = none → a.load = none → a.after = [] →
    a.keys.Nodup → a.keys.length ≤ 8 →
    let t := s.drainBanks c
    (∀ j, j < a.keys.length → t.byte (a.keys.getD j 0) = a.data.extractLsb' (8 * j) 8) ∧
    (∀ k, k ∉ a.keys → t.byte k = s.byte k) ∧ (t.core c).bankQ = [] ∧
    (∀ k, (∀ j ∈ a.keys, j / 8 ≠ k / 8) → t.psn k = s.psn k) ∧
    t = { s with mem := t.mem, poison := t.poison, cores := t.cores })

/-- Generic and global loads (14 R302, R304, 05 R101). -/
def Obligations.GenericLoads : Prop :=
  ∀ (s : State) (z : Size) (o : MOpnd) (d : Sys2Proof.Disp) (f gl : Bool) (c x : Nat),
    s.g.unit = .core c x → s.Quiet → s.Alone → s.FreshL1 c → s.MayAccess o (dispMask d) → s.g.Room f →
    let ts := moThreads s.g (dispMask d) o
    let ea (t : Nat) : W64 := moBase s.g t o + dispVal z d
    let acc (t : Nat) : Except Fail Acc :=
      if gl then globalAcc s s.who .load (ea t) (zBytes z)
      else genericAcc s s.who t .load (ea t) (zBytes z) (zBytes z)
    ∀ at_ : Nat → Acc, (∀ t ∈ ts, acc t = .ok (at_ t) ∧ ∀ k ∈ (at_ t).keys, isPeerKey k = false ∧
        s.psn k = false ∧ ∀ b p, s.g.own k = some (b, p) → p = false) →
    Gives s (exec (if gl then .ldg z o d f else .ld z o d f) s) (dispWords d) (s.g.selFlag f)
      (ts.map fun t => (moDest t o, BitVec.ofNat 64 (leNat ((at_ t).keys.map fun k =>
        if (at_ t).glob then s.seen k else s.byte k)))) (OnlyCaches s)

/-- Generic and global stores (14 R302, R304, 05 R98, R103). -/
def Obligations.GenericStores : Prop :=
  ∀ (s : State) (z : Size) (o : MOpnd) (d : Sys2Proof.Disp) (gl : Bool) (c x : Nat),
    s.g.unit = .core c x → s.homeQ = [] → s.sys.allUp = true → s.MayAccess o (dispMask d) →
    let ts := moThreads s.g (dispMask d) o
    let ea (t : Nat) : W64 := moBase s.g t o + dispVal z d
    let acc (t : Nat) : Except Fail Acc :=
      if gl then globalAcc s s.who .store (ea t) (zBytes z)
      else genericAcc s s.who t .store (ea t) (zBytes z) (zBytes z)
    ∀ at_ : Nat → Acc, (∀ t ∈ ts, acc t = .ok (at_ t)) →
    let managed := ts.filter fun t => (at_ t).glob
    let others := ts.filter fun t => !(at_ t).glob
    ∃ u, exec (if gl then .stg z o d else .st z o d) s = .next u ∧ Retired (dispWords d) s.g u.g ∧
      u = { s with g := u.g, tlb := u.tlb, cores := u.cores, own := u.own } ∧
      u.own = { s.own with peers := u.own.peers } ∧
      (∀ n, { (tblGet {} u.own.peers n) with part := 0 } = { (tblGet {} s.own.peers n) with part := 0 }) ∧
      u.g = { s.g with priv := u.g.priv, pc := u.g.pc, retired := u.g.retired, block := u.g.block } ∧
      (∀ d, u.core d = if d = c then { s.core c with bankQ := (s.core c).bankQ ++ others.map fun t =>
          { keys := (at_ t).keys, data := moData s.g t o, gid := s.g.gid, after := s.g.unread } }
        else s.core d) ∧
      (∀ k, (∀ t ∈ managed, k ∉ (at_ t).keys) → u.g.own k = s.g.own k) ∧
      (∀ t ∈ managed, ∀ j, j < zBytes z → (at_ t).keys.Nodup → (at_ t).keys.length = zBytes z →
        (∀ t' ∈ managed, t < t' → (at_ t).keys.getD j 0 ∉ (at_ t').keys) →
        ∃ p, u.g.own ((at_ t).keys.getD j 0) = some ((moData s.g t o).extractLsb' (8 * j) 8, p))

/-- Failing accesses (02 R32, R35, R36, 14 R304). -/
def Obligations.AccessTraps : Prop :=
  (∀ (s : State) (z : Size) (a b : SReg) (d : Sys2Proof.Disp) (f : Bool) (sp : Space) (i : Instr), s.MayTrap →
    s.Readable [useS a, useS b] → s.g.Room f →
    let ea := s.g.sGet b + dispVal z d
    let S := spaceSize s s.who sp
    let trap (c : Nat) (x : W64) : TrapV := { cause := c, addr := ea, info := x, pc := s.g.pc }
    (sp, i) ∈ [(Space.core, Instr.lds z (.u a b) d f), (.cluster, .ldc z (.u a b) d f), (.lane, .ldl z (.u a b) d f),
      (.chip, .ldx z (.u a b) d f), (.core, .sts z (.u a b) d), (.cluster, .stc z (.u a b) d),
      (.lane, .stl z (.u a b) d), (.chip, .stx z (.u a b) d)] →
    (S < ea.toNat + zBytes z → Takes s s.g (exec i s) (trap 0x0C (BitVec.ofNat 64 S))) ∧
    (ea.toNat + zBytes z ≤ S → ea.toNat % zBytes z ≠ 0 →
      Takes s s.g (exec i s) (trap 0x05 (BitVec.ofNat 64 (zBytes z))))) ∧
  (∀ (s : State) (z : Size) (a b : SReg) (d : Sys2Proof.Disp) (f : Bool) (e : Fail), s.MayTrap →
    s.Readable [useS a, useS b] → s.g.Room f →
    let ea := s.g.sGet b + dispVal z d
    let trap : TrapV := { cause := e.cause, addr := e.addr, info := e.info, pc := s.g.pc }
    (genericAcc s s.who 0 .load ea (zBytes z) (zBytes z) = .error e → Takes s s.g (exec (.ld z (.u a b) d f) s) trap) ∧
    (genericAcc s s.who 0 .store ea (zBytes z) (zBytes z) = .error e → Takes s s.g (exec (.st z (.u a b) d) s) trap) ∧
    (2 ^ 63 ≤ ea.toNat → e = ⟨0x0C, ea, 0x8000000000000000⟩ →
      Takes s s.g (exec (.ldg z (.u a b) d f) s) trap ∧ Takes s s.g (exec (.stg z (.u a b) d) s) trap)) ∧
  (∀ (s : State) (z : Size) (a b : VReg) (d : Sys2Proof.Disp) (th : Nat), s.MayTrap →
    s.MayVector (dispMask d) [a, b] [] →
    let ea (t : Nat) : W64 := s.g.vGet b t + dispVal z d
    let bad (t : Nat) : Prop := spaceSize s s.who .core < (ea t).toNat + zBytes z ∨ (ea t).toNat % zBytes z ≠ 0
    let active (t : Nat) : Prop := t < 32 ∧ (s.g.govern (dispMask d)).getLsbD t = true
    active th → (ea th).toNat + zBytes z ≤ spaceSize s s.who .core → (ea th).toNat % zBytes z ≠ 0 →
    (∀ t, t < th → active t → ¬ bad t) →
    ∃ fm : W32, (∀ t, t < 32 → (fm.getLsbD t = true ↔ active t ∧ bad t)) ∧
      Takes s s.g (exec (.sts z (.v a b) d) s)
        { cause := 0x05, addr := ea th, info := BitVec.ofNat 64 (zBytes z), thread := th, fmask := fm, pc := s.g.pc }) ∧
  (∀ (s : State) (z : Size) (a b : SReg) (d : Sys2Proof.Disp) (f : Bool), s.MayTrap → s.Quiet →
    s.Readable [useS a, useS b] → s.g.selFlag f = none →
    let ea := s.g.sGet b + dispVal z d
    ea.toNat + zBytes z ≤ spaceSize s s.who .core → ea.toNat % zBytes z = 0 →
    (∃ k ∈ spaceKeys s s.who 0 .core ea.toNat (zBytes z), s.psn k = true) →
    Takes s s.g (exec (.lds z (.u a b) d f) s) { cause := 0x30, addr := ea, pc := s.g.pc })

/-- STQ (14 R307, R308), for runs in the core scratchpad. `at_` gives the view row and columns of a thread. -/
def Obligations.QuantisedStores : Prop :=
  ∀ (s : State) (m : MReg) (a b dd : VReg) (cs : SReg) (v : W32) (crd : Bool) (c x : Nat),
    s.g.unit = .core c x → s.Quiet →
    s.MayVector (if crd then m else 0) [a, b, dd] [useS cs] →
    let i : Instr := if crd then .stqCoord m a b cs dd v else .stq a b cs
    let ts := activeOf (s.g.govern (if crd then m else 0))
    let cw := s.g.sGet cs
    let bf := cw.getLsbD 20
    let n := if bf then 4 else 2
    let off : Nat := cw.toNat % 2 ^ 20
    let fr := frameAt s c off
    let S := spaceSize s s.who .core
    let row (t : Nat) : Nat := if crd then (s.g.vGet dd t).toNat % 2 ^ 32 else 0
    let col (t e : Nat) : Nat := if crd then (s.g.vGet dd t).toNat / 2 ^ 32 + e else n * t + e
    let len := qRunBytes (frFmt fr) n
    let ea (t : Nat) : W64 := s.g.vGet b t + if crd then v.signExtend 64 else 0
    let val (t e : Nat) : Fp := if bf then bf16.dec (sub_ 16 (s.g.vGet a t) e) else fp32.dec (sub_ 32 (s.g.vGet a t) e)
    let code (t e : Nat) : Int := quantise (frFmt fr) (frameScaleByte s c fr (row t) (col t e)).toNat
      (s.frameD c fr (row t) (col t e)) (val t e)
    frameHead s.g.pc S (BitVec.ofNat 64 off) 0 fr = .ok () → (bf = false → frFmt fr ≠ 1) →
    (∀ k, s.psn k = false) →
    (∀ t ∈ ts, frameRowBad S fr (row t) = false ∧ (∀ e, e < n → frameScaleBad S fr (row t) (col t e) = false) ∧
      genericAcc s s.who t .store (ea t) len (stqAlign len) = .ok ⟨false, spaceKeys s s.who t .core (offsetOf .core (ea t)) len⟩) →
    Accepts s (exec i s) (if crd then 3 else 1) (ts.map fun t =>
      (spaceKeys s s.who t .core (offsetOf .core (ea t)) len,
        BitVec.ofNat 64 (leNat (qPack (frFmt fr) ((List.range n).map (code t))))))

/-- Prefetch and address tests (14 R310, R311). -/
def Obligations.AddressTests : Prop :=
  ∀ (s : State) (o : MOpnd) (f : VForm) (sp : Space) (po : POpnd) (df : DForm),
    (s.MayAccess (poMo po) (dMask df) →
      ∀ i ∈ [Instr.pfg po df, .pfgLlc po df], ∃ t, exec i s = .next t ∧ Retired (dWords df) s.g t.g ∧
        t.g = { s.g with pc := t.g.pc, retired := t.g.retired, block := t.g.block } ∧
        (∀ k, t.byte k = s.byte k ∧ t.psn k = s.psn k) ∧
        t = { s with g := t.g, walks := t.walks, cores := t.cores, fab := t.fab, own := t.own } ∧
        t.own = { s.own with cache := t.own.cache }) ∧
    (s.MayAccess o (vMask f) →
      ∀ e ∈ [(Instr.sptest o f, fun a => sptestOf s s.who a), (.spcastG o f sp, fun a => spcastGOf s.who sp a),
        (.spcastS o f sp, fun a => spcastSOf s.who sp a)],
      Gives s (exec e.1 s) (vWords f) none
        ((moThreads s.g (vMask f) o).map fun t => (moDest t o, e.2 (moBase s.g t o))) (OnlyGroupId s))

/-- The atomics in uniform form (14 R312 to R314). -/
def Obligations.UniformAtomics : Prop :=
  ∀ (s : State) (a b c d : SReg) (t : AtomAttr) (f : Bool) (acc : Acc), s.g.OnCore → s.g.live = true → s.Quiet →
    s.Alone → s.g.pend = [] → s.g.priv = [] → s.g.fences = [] → s.g.selFlag f = none → s.RoomForTag →
    (∀ d ∈ s.disp.deliveries, d.gid = s.g.gid → d.val ≠ none) →
    let n := asizeBytes t.size
    let w := 8 * n
    atomAcc s t.size (s.g.sGet b + t.imm.signExtend 64) = .ok acc → let ks := span acc.place.key n
    (∀ k ∈ ks, isPeerKey k = false ∧ s.psn k = false) →
    let old := leNat (ks.map s.byte)
    let v := (s.g.sGet c).toNat % 2 ^ w
    let v2 := (s.g.sGet d).toNat % 2 ^ w
    let o : AOpnd := .u a b c
    ∀ e ∈ [(Instr.atomAdd o t f, (old + v) % 2 ^ w), (.atomAnd o t f, Nat.land old v), (.atomOr o t f, Nat.lor old v),
        (.atomXor o t f, Nat.xor old v), (.atomMin o t f, if toInt w v < toInt w old then v else old),
        (.atomMax o t f, if toInt w old < toInt w v then v else old), (.atomXchg o t f, v),
        (.atomIncwrap o t f, if v ≤ old then 0 else old + 1), (.atomFadd o t f, fadd32 old v),
        (.acas (.u a b c d) t f, if old = v then v2 else old)],
      ∃ u, exec e.1 s = .next u ∧ Retired 3 s.g u.g ∧
        (∀ r, u.g.sGet r = if r = a ∧ a ≠ 0 then BitVec.ofNat 64 old else s.g.sGet r) ∧
        (∀ j, j < n → u.byte (acc.place.key + j) = BitVec.ofNat 8 (e.2 / 2 ^ (8 * j))) ∧
        (∀ k, k ∉ ks → u.byte k = s.byte k) ∧ (∀ k, u.psn k = s.psn k) ∧ (∀ c, u.core c = s.core c) ∧
        s.g.gts ≤ u.g.gts ∧ (ordAcq t.ord = true → u.pclk ≤ u.g.gts) ∧
        u.g = { s.g with
          s := u.g.s, gts := u.g.gts, pc := u.g.pc, retired := u.g.retired, block := u.g.block } ∧
        u = { s with
          g := u.g, mem := u.mem, poison := u.poison, wts := u.wts, pclk := u.pclk, tlb := u.tlb, cores := u.cores
          nextId := u.nextId, fab := { s.fab with seqn := u.fab.seqn, filter := u.fab.filter } }

/-- Atomics that complete later (14 R312 to R314, 05 R116). -/
def Obligations.QueuedAtomics : Prop :=
  ∀ (s : State) (o : AOpnd) (co : CasOpnd) (ro : ROpnd) (t : AtomAttr) (f : Bool) (j : Nat), s.Quiet → s.Alone →
    s.syncPend = none → (∀ p ∈ s.g.pend, p.id < s.nextId) → s.g.priv = [] → s.g.fences = [] →
    t.ord = .rlx → s.g.selFlag f = some j → s.g.fGet j < 15 →
    let runs (x : AtomIns) : Prop :=
      (if x.regs.uni then s.Readable x.regs.named else s.MayVector t.mask x.regs.vregs []) ∧
      ∀ th ∈ (if x.regs.uni then [0] else activeOf (s.g.govern t.mask)), ∃ acc,
        atomAcc s t.size (x.ea s.g th) = .ok acc ∧ ∀ k ∈ acc.keys, isPeerKey k = false
    let ts (x : AtomIns) : List Nat := if x.regs.uni then [0] else activeOf (s.g.govern t.mask)
    let place (x : AtomIns) (th : Nat) : Place := (accD (atomAcc s t.size (x.ea s.g th))).place
    let port (x : AtomIns) (th : Nat) : Bool := !s.g.isSection && !(place x th).glob
    let sends (x : AtomIns) (u : State) (pend : Option Nat) (dest : Nat → Option Dest) : Prop :=
      let sent (h : HomeOp) := ((h.act, h.place, h.addr, h.gid, h.red), h.pend, h.dest, h.after)
      let want (th : Nat) :=
        ((HomeAct.rmw x.op t.size (x.regs.val s.g x.regs.opnd th) (x.regs.val s.g x.regs.new_ th), place x th,
          x.ea s.g th, s.g.gid, !x.ret), pend, dest th, s.g.unread)
      u.homeQ.map sent = ((ts x).filter fun th => !port x th).map want ∧
      (∀ c y, s.g.unit = .core c y →
        (u.core c).bankQ.map (fun a => (a.op.map sent, a.load)) =
          ((ts x).filter (port x)).map fun th => (some (want th), none)) ∧
      (∀ d, { u.core d with bankQ := [] } = { s.core d with bankQ := [] }) ∧
      (∀ d, (∀ y, s.g.unit ≠ .core d y) → u.core d = s.core d) ∧ Retired 3 s.g u.g ∧
      u = { s with
        g := u.g, homeQ := u.homeQ, tlb := u.tlb, cores := u.cores, nextId := u.nextId
        fab := { s.fab with seqn := u.fab.seqn } }
    (∀ e ∈ [(Instr.atomAdd o t f, atomIns .add o t), (.atomAnd o t f, atomIns .and o t), (.atomOr o t f, atomIns .or o t),
        (.atomXor o t f, atomIns .xor o t), (.atomMin o t f, atomIns .min o t), (.atomMax o t f, atomIns .max o t),
        (.atomXchg o t f, atomIns .xchg o t), (.atomIncwrap o t f, atomIns .incwrap o t),
        (.atomFadd o t f, atomIns .fadd o t), (.acas co t f, ⟨.cas, casRegs co, t, true⟩)],
      runs e.2 → ∃ u p, exec e.1 s = .next u ∧ sends e.2 u (some s.nextId) (fun th => some (e.2.regs.target th)) ∧
        p.id = s.nextId ∧ p.flag = some j ∧ p.writes = (ts e.2).map (fun th => (e.2.regs.target th, none)) ∧
        u.g = { s.g with
          f := (s.g.fInc j).f, pend := s.g.pend ++ [p], pc := u.g.pc, retired := u.g.retired, block := u.g.block }) ∧
    (∀ e ∈ [(Instr.redAdd ro t, redIns .add ro t), (.redFadd ro t, redIns .fadd ro t), (.redMin ro t, redIns .min ro t),
        (.redMax ro t, redIns .max ro t)],
      runs e.2 → ∃ u, exec e.1 s = .next u ∧ sends e.2 u none (fun _ => none) ∧
        u.g = { s.g with pc := u.g.pc, retired := u.g.retired, block := u.g.block })

/-- Release and acquire (05 R99, R100, R102, R104), FENCE and FWAIT (05 R107, R108). -/
def Obligations.ReleaseAcquireFence : Prop :=
  (∀ (s : State) (sc : Scope) (c x : Nat), s.g.unit = .core c x → s.Quiet → s.Alone → s.g.pend = [] → s.g.fences = [] →
    tblWf none s.g.priv = true → (∀ k, isPeerKey k = true → s.g.own k = none) →
    let held (k : Nat) : Prop := s.g.own k ≠ none
    let touched (l : Nat) : Prop := ∃ k, held k ∧ lineOf k = l
    let wide := sc ≠ .grp ∧ sc ≠ .core
    let released (u : State) : Prop :=
      u.g.priv = [] ∧ Retired 1 s.g u.g ∧ s.g.gts ≤ u.g.gts ∧ (∀ k, ¬ held k → u.byte k = s.byte k) ∧
      u.g = { s.g with
        priv := [], gts := u.g.gts, pc := u.g.pc, retired := u.g.retired, block := u.g.block } ∧
      u = { s with
        g := u.g, mem := u.mem, poison := u.poison, wts := u.wts, pclk := u.pclk, cores := u.cores
        own := { s.own with holders := u.own.holders } } ∧
      (wide → u.own = s.own ∧ (∀ k b p, s.g.own k = some (b, p) → u.byte k = b) ∧ (∀ c, u.core c = s.core c) ∧
        (∀ l, ¬ touched l → u.wtsOf l = s.wtsOf l) ∧
        ∃ p, (∀ l, touched l → u.wtsOf l = p ∧ s.wtsOf l < p ∧ s.rtsOf l < p ∧ s.g.gts < p ∧ p ≤ u.g.gts ∧ p ≤ u.pclk)) ∧
      (¬ wide → (∀ k, u.byte k = s.byte k) ∧ u.pclk = s.pclk ∧ (∀ d, d ≠ c → u.core d = s.core d) ∧
        (u.core c) = { s.core c with narrow := (u.core c).narrow, nown := (u.core c).nown } ∧
        (∀ k, tblGet none (u.core c).narrow k = s.g.own k) ∧
        (∀ k, held k → tblGet 0 (u.core c).nown k = s.g.gid + 1) ∧
        ∀ l, tblGet [] u.own.holders l = if (s.g.priv.any fun e => lineOf e.1 == l) then [c] else [])
    (∃ u, exec (.rel sc) s = .next u ∧ released u ∧ (s.g.priv = [] → u.g.gts = s.g.gts)) ∧
    (∃ u, exec (.phase sc) s = .next u ∧ released u ∧ u.pclk ≤ u.g.gts) ∧
    (∃ u, exec (.acq sc) s = .next u ∧ OnlyGroup s u ∧ Retired 1 s.g u.g ∧ u.g.gts = max s.g.gts s.pclk ∧
      u.g = { s.g with gts := u.g.gts, pc := u.g.pc, retired := u.g.retired, block := u.g.block })) ∧
  (∀ (s : State) (sc : Scope) (k : KReg) (c x : Nat), s.g.unit = .core c x → s.Quiet → s.Alone → s.g.pend = [] →
    ((s.g.kGet k.val).pending = false →
      (∃ u, exec (.fence sc k) s = .next u ∧ OnlyGroup s u ∧ Retired 1 s.g u.g ∧
        (∀ r, u.g.kGet r = if r = k.val then { kind := .fence, pending := true, scope := sc } else s.g.kGet r) ∧
        u.g.fences = s.g.fences ++ [{ k := k.val, scope := sc, cover := s.g.priv, published := false, waits := [] }] ∧
        u.g = { s.g with
          k := u.g.k, fences := u.g.fences, priv := [], pc := u.g.pc, retired := u.g.retired, block := u.g.block }) ∧
      (s.g.fences = [] → ∃ u, exec (.fwait k) s = .next u ∧ OnlyGroup s u ∧ Retired 1 s.g u.g ∧
        u.g.gts = max s.g.gts s.pclk ∧
        u.g = { s.g with gts := u.g.gts, pc := u.g.pc, retired := u.g.retired, block := u.g.block })) ∧
    (∀ cover, s.g.fences = [{ k := k.val, scope := sc, cover := cover, published := false, waits := [] }] →
      tblWf none cover = true → (∀ j, isPeerKey j = true → tblGet none cover j = none) → sc ≠ .grp → sc ≠ .core →
      (s.g.kGet k.val).pending = true → (s.g.kGet k.val).kind = .fence →
      ∃ u, exec (.fwait k) s = .next u ∧ Retired 1 s.g u.g ∧ u.g.fences = [] ∧ (u.g.kGet k.val).pending = false ∧
        (∀ j b p, tblGet none cover j = some (b, p) → u.byte j = b) ∧
        (∀ j, tblGet none cover j = none → u.byte j = s.byte j) ∧ u.pclk ≤ u.g.gts ∧ u.g.priv = s.g.priv ∧
        (∀ r, r ≠ k.val → u.g.kGet r = s.g.kGet r) ∧ u.g.s = s.g.s ∧ u.g.v = s.g.v ∧ u.g.m = s.g.m))

/-- Barrier instructions (14 R317 to R321). -/
def Obligations.BarrierInstructions : Prop :=
  ∀ (s : State) (sc : Scope) (a b cc : SReg) (f : DForm) (tr : Bool) (acc : Acc), s.g.OnCore → s.Quiet → s.Alone →
    s.g.pend = [] → s.g.priv = [] → s.g.fences = [] → s.RoomForTag →
    let ea := s.g.sGet b + dDisp f
    barAcc s s.who ea = .ok acc → s.barPsn acc.place.key = false →
    let key := acc.place.key
    let B := barOf (s.barNum key)
    let p := (s.g.sGet a).getLsbD 0
    let bit (k : Nat) (x : Bool) : Nat := if x then 2 ^ k else 0
    let status : W64 := BitVec.ofNat 64
      (bit 0 (B.round != p) + bit 1 B.overrun + bit 2 B.error + bit 3 B.posted + bit 4 B.round + 2 ^ 16 * B.ecode)
    let tests (o : Out) : Prop := ∃ u, o = .next u ∧ OnlyGroup s u ∧ Retired (dWords f) s.g u.g ∧
      (∀ r, u.g.sGet r = if r = a ∧ a ≠ 0 then status else s.g.sGet r) ∧
      u.g.gts = (if B.round != p then max s.g.gts s.pclk else s.g.gts) ∧
      u.g = { s.g with
        s := u.g.s, gts := u.g.gts, pc := u.g.pc, retired := u.g.retired, block := u.g.block }
    (∀ e ∈ [(Instr.bararv sc a b f, ArrKind.plain), (.bararvDrop sc a b f, .drop), (.bararvJoin sc a b f, .join)],
      ∃ u, exec e.1 s = .next u ∧ Retired (dWords f) s.g u.g ∧
        (∀ r, u.g.sGet r = if r = a ∧ a ≠ 0 then (if B.round then 1 else 0) else s.g.sGet r) ∧
        u.barNum key = (B.arrive e.2).num ∧ (∀ k, k ∉ span key 16 → u.byte k = s.byte k) ∧
        (∀ d, u.core d = s.core d) ∧
        u.g = { s.g with s := u.g.s, pc := u.g.pc, retired := u.g.retired, block := u.g.block } ∧
        u = { s with
          g := u.g, mem := u.mem, cores := u.cores
          fab := { s.fab with seqn := u.fab.seqn, filter := u.fab.filter } }) ∧
    (∃ u h q, exec (.bararvFz sc a b f) s = .next u ∧ Retired (dWords f) s.g u.g ∧
      u.g.fences = [{ k := 16, scope := sc, cover := [], published := false, waits := [], arv := some h }] ∧
      h.act = .arrive .plain ∧ h.place = acc.place ∧ h.pend = some s.nextId ∧ h.dest = some (.s a.val) ∧
      h.gid = s.g.gid ∧ u.g.pend = [q] ∧ q.id = s.nextId ∧ q.flag = none ∧ q.writes = [(.s a.val, none)] ∧
      u = { s with g := u.g, nextId := u.nextId, fab := { s.fab with seqn := u.fab.seqn } } ∧
      u.g = { s.g with
        fences := u.g.fences, pend := u.g.pend, pc := u.g.pc, retired := u.g.retired, block := u.g.block }) ∧
    (∃ u h, exec (.barexp b cc f) s = .next u ∧ Retired (dWords f) s.g u.g ∧
      h.act = .expect ((s.g.sGet cc).setWidth 32) ∧ h.place = acc.place ∧ h.pend = none ∧
      (∀ d, u.core d = if s.g.unit = .core d (unitSlot s.g.unit) then
        { s.core d with bankQ := [{ keys := span key 16, data := 0, gid := s.g.gid, op := some h }] } else s.core d) ∧
      u = { s with g := u.g, cores := u.cores, fab := { s.fab with seqn := u.fab.seqn } } ∧
      u.g = { s.g with pc := u.g.pc, retired := u.g.retired, block := u.g.block }) ∧
    tests (exec (.bartest sc a b f) s) ∧
    (B.round ≠ p ∨ (B.overrun = true ∧ tr = false) → tests (exec (.barwait tr sc a b f) s)) ∧
    (B.round = p → B.overrun = false →
      exec (.barwait tr sc a b f) s = .next { s with g := { s.g with block := some (.barrier acc.place p) } }) ∧
    (B.round = p → B.overrun = true → tr = true → s.g.handler = false →
      Takes s s.g (exec (.barwait tr sc a b f) s) { cause := 0x15, addr := ea, info := status, pc := s.g.pc })

/-- Barrier arithmetic (03 R64, R65): `turn` is the end of a round. -/
def Obligations.BarrierRounds : Prop :=
  ∀ (B : Bar) (n : W32) (m : Nat) (code : BitVec 16) (o : Nat),
    let arrived : Bar := if B.pend = 0 then { B with overrun := true } else { B with pend := B.pend - 1 }
    let turns (x y : Bar) : Prop :=
      (x.posted = true ∧ x.pend = 0 ∧ x.bytes = 0 ∧ x.overrun = false →
        y.round = !x.round ∧ y.expect = (x.expect + x.adj) % 2 ^ 16 ∧ y.pend = (x.expect + x.adj) % 2 ^ 16 ∧ y.adj = 0 ∧
        y.posted = x.auto ∧
        y = { x with round := y.round, expect := y.expect, pend := y.pend, adj := y.adj, posted := y.posted }) ∧
      (¬ (x.posted = true ∧ x.pend = 0 ∧ x.bytes = 0 ∧ x.overrun = false) → y = x)
    turns arrived (B.arrive .plain) ∧
    turns { arrived with adj := (B.adj + 2 ^ 16 - 1) % 2 ^ 16 } (B.arrive .drop) ∧
    turns { arrived with adj := (B.adj + 1) % 2 ^ 16 } (B.arrive .join) ∧
    turns { B with bytes := (B.bytes + n.toNat) % 2 ^ 32, posted := true } (B.post n) ∧
    (B.bytes < 2 ^ 32 → m ≤ B.bytes →
      turns { B with bytes := B.bytes - m } (B.count m false 0) ∧
      turns { arrived with bytes := B.bytes - m } (B.count m true 0) ∧
      (code ≠ 0 → B.error = false →
        turns { arrived with bytes := B.bytes - m, error := true, ecode := code.toNat } (B.count m true code))) ∧
    (o < 2 ^ 128 → (barOf o).num = o)

/-- Counters (14 R323). -/
def Obligations.Counters : Prop :=
  ∀ (s : State) (a b c : SReg) (f : DForm) (acc : Acc), s.g.OnCore → s.Quiet → s.Alone → s.g.pend = [] →
    cntAcc s s.who .cntWait (s.g.sGet b + dDisp f) = .ok acc →
    (∀ k ∈ acc.keys, isPeerKey k = false ∧ s.psn k = false ∧ ∀ x p, s.g.own k = some (x, p) → p = false) →
    let v : W64 := BitVec.ofNat 64 (leNat ((acc.keys.take 8).map s.seen))
    let met := (s.g.sGet c).toNat ≤ v.toNat
    let gives (o : Out) (r : W64) : Prop := ∃ u, o = .next u ∧ Retired (dWords f) s.g u.g ∧
      (∀ q, u.g.sGet q = if q = a ∧ a ≠ 0 then r else s.g.sGet q) ∧ s.g.gts ≤ u.g.gts ∧ (met → s.pclk ≤ u.g.gts) ∧
      u.g = { s.g with
        s := u.g.s, gts := u.g.gts, pc := u.g.pc, retired := u.g.retired, block := u.g.block } ∧
      u = { s with g := u.g, tlb := u.tlb }
    (met → gives (exec (.cnttest a b c f) s) 1 ∧ gives (exec (.cntwait a b c f) s) v) ∧
    (¬ met → gives (exec (.cnttest a b c f) s) 0 ∧
      ∃ u, exec (.cntwait a b c f) s = .next u ∧ u.g.block = some (.counter acc.place (s.g.sGet c)) ∧
        u.g = { s.g with gts := u.g.gts, block := u.g.block } ∧ u = { s with g := u.g, tlb := u.tlb })

/-- The end of a group (12 R262, R263; 14 R327). -/
def Obligations.GroupEnds : Prop :=
  ∀ (s : State) (ext : Bool) (c x : Nat), s.g.unit = .core c x → s.Calm →
    let lane (k : Nat) : Prop := keyLane s.g.gid 0 0 ≤ k ∧ k < keyLane (s.g.gid + 1) 0 0
    let holds := c % 2 = 0 ∧ (s.arr (c / 2)).holder = some s.g.gid
    ∀ i ∈ [Instr.exit, .tdone ext],
      (s.taskLaunch = none → s.g.preempting = false → (s.arr (c / 2)).stream = none → (s.arr (c / 2)).conv = none →
        ∃ t, exec i s = .next t ∧ t.g = Group.empty ∧ t.parked = s.parked ∧
          (∀ k, lane k → t.byte k = memDefault) ∧ (∀ k, ¬ lane k → t.byte k = s.byte k) ∧ (∀ c, t.core c = s.core c) ∧
          (∀ p, t.arr p = if p = c / 2 ∧ holds then (s.arr p).left (s.nextHolder s.g.gid c) else s.arr p) ∧
          t = { s with
            g := t.g, mem := t.mem, poison := t.poison, cores := t.cores, arrays := t.arrays }) ∧
      (∀ l slot next nextn, s.taskLaunch = some l → s.g.task = .running slot 0 next nextn →
        (∀ e ∈ s.g.k, e.2.pending = false) →
        ∃ t, exec i s = .next t ∧ Keeps s t ∧ Retired 1 s.g t.g ∧
          t.g = { s.g with task := .idle, pc := t.g.pc, retired := t.g.retired, block := t.g.block } ∧
          t = { s with g := t.g, cores := t.cores })

/-- Task queues and ticket claims (14 R325, R326). -/
def Obligations.SpawnAndClaim : Prop :=
  (∀ (s : State) (f : Bool) (m : VForm) (a b : VReg), s.Calm → s.MayVector (vMask m) [a, b] [] → s.g.Room f →
    let ts := activeOf (s.g.govern (vMask m))
    (∀ t ∈ ts, (s.g.vGet b t).toNat + 64 ≤ spaceSize s s.who .core ∧ (s.g.vGet b t).toNat % 64 = 0) →
    (s.taskLaunch = none → Gives s (exec (.tspawn f m a b) s) (vWords m) (s.g.selFlag f)
      (ts.map fun t => (.v a.val t, 0xFFFFFFFFFFFFFFFF))
      (fun t => Keeps s t ∧ t = { s with g := t.g, nextId := t.nextId, cores := t.cores } ∧ t.g.gts = s.g.gts)) ∧
    (∀ l ks, s.taskLaunch = some l → hwOwn s s.g.ctx .rmw l.tq 64 = .keys ks → ks.Nodup → ks.length = 64 →
      (∀ k ∈ ks, isPeerKey k = false) →
      2 ^ ((s.tqWord ks 8).toNat % 32) < (s.tqWord ks 24 + BitVec.ofNat 64 ts.length - s.tqWord ks 16).toNat →
      Gives s (exec (.tspawn f m a b) s) (vWords m) (s.g.selFlag f) (ts.map fun t => (.v a.val t, 0xFFFFFFFFFFFFFFFF))
        (fun t => t.tqWord ks 40 = s.tqWord ks 40 + 1 ∧ t.g.gts = s.g.gts ∧
          ∀ k, k ∉ (ks.drop 40).take 8 → t.byte k = s.byte k)) ∧
    (∀ l ks slots, s.taskLaunch = some l → hwOwn s s.g.ctx .rmw l.tq 64 = .keys ks → ks.Nodup → ks.length = 64 →
      (∀ k ∈ ks, isPeerKey k = false) →
      let T := s.tqWord ks 24
      (T + BitVec.ofNat 64 ts.length - s.tqWord ks 16).toNat ≤ 2 ^ ((s.tqWord ks 8).toNat % 32) →
      tqSlots s s.g.ctx ks ts.length T = (.keys [], slots) → slots.flatten.Nodup → (∀ l ∈ slots, l.length = 64) →
      (∀ k ∈ slots.flatten, isPeerKey k = false ∧ k ∉ ks) →
      Gives s (exec (.tspawn f m a b) s) (vWords m) (s.g.selFlag f)
        (ts.zipIdx.map fun e => (.v a.val e.1, T + BitVec.ofNat 64 e.2)) (fun t =>
          t.tqWord ks 24 = T + BitVec.ofNat 64 ts.length ∧ t.g.gts = s.g.gts ∧
          (∀ e ∈ slots.zip ts, ∀ i, i < 64 →
            t.byte (e.1.getD i 0) = s.byte (keyCore (unitCoreN s.g.unit) (s.g.vGet b e.2).toNat + i)) ∧
          ∀ k, k ∉ (ks.drop 24).take 8 → k ∉ slots.flatten → t.byte k = s.byte k))) ∧
  (∀ (s : State) (a b : SReg) (d : DForm) (f clu : Bool) (acc : Acc), s.Calm → s.g.selFlag f = none →
    cntAcc s s.who .cntAdd (s.g.sGet b + dDisp d) = .ok acc → s.Clean (span acc.place.key 8) →
    s.disp.deliveries = [] → s.RoomForTag →
    let clus := s.sys.fuse.clusterOf (unitCoreN s.g.unit)
    (clu = true → ∀ g ∈ s.everyGroup, g.claims.length < 8) →
    let old := leNat ((span acc.place.key 8).map s.byte)
    ∃ u, exec (if clu then .tclaimClu f a b d else .tclaim f a b d) s = .next u ∧ Retired (dWords d) s.g u.g ∧
      (∀ r, u.g.sGet r = if r = a ∧ a ≠ 0 then BitVec.ofNat 64 old else s.g.sGet r) ∧
      leNat ((span acc.place.key 8).map u.byte) = (old + 1) % 2 ^ 64 ∧
      (∀ k, k ∉ span acc.place.key 8 → u.byte k = s.byte k) ∧ (∀ c, u.core c = s.core c) ∧ s.g.gts ≤ u.g.gts ∧
      u.disp.deliveries = (if clu then
        [{ launch := s.g.launch, clus := clus, gids := (s.recipients s.g.launch clus).map (·.gid), gid := s.g.gid
           pend := s.nextId, val := some (BitVec.ofNat 64 old) }] else []) ∧
      u.g = { s.g with
        s := u.g.s, gts := u.g.gts, pc := u.g.pc, retired := u.g.retired, block := u.g.block }) ∧
  (∀ (s : State) (a : SReg) (f ext : Bool) (v : W64) (r : List W64), s.g.OnCore → s.Readable [useS a] → s.g.Room f →
    s.disp.deliveries = [] →
    (s.g.claims = v :: r → Gives { s with g := { s.g with claims := r } } (exec (.tclaimw f a ext) s) (extWords ext)
      (s.g.selFlag f) [(.s a.val, v)] (OnlyGroupId s)) ∧
    (s.g.claims = [] → exec (.tclaimw f a ext) s = .next { s with g := { s.g with block := some .claim } }))

/-- LAUNCH and EVSET (14 R327, 09 R210). -/
def Obligations.LaunchAndEvents : Prop :=
  ∀ (s : State) (b c : SReg) (d : DForm) (ext : Bool) (core x : Nat), s.g.unit = .core core x → s.Calm → s.FreshL1 core →
    let ea := s.g.sGet b + dDisp d
    let q := (s.g.sGet b).toNat % 4
    let C := s.ctx s.g.ctx
    (∀ acc, windowAcc s s.who .load bulkWindow ea 256 256 = .ok acc → s.Clean acc.keys → C.dead = false →
      let bs := acc.keys.map fun k => if acc.glob then s.seen k else s.byte k
      (C.devList.length < 64 → ∃ t, exec (.launch b d) s = .next t ∧ OnlyPcClock (dWords d) 0 s.g t.g ∧
        (∀ n, t.ctx n = if n = s.g.ctx then { C with devList := C.devList ++ [(bs, ea)] } else s.ctx n) ∧
        (∀ k, t.byte k = s.byte k ∧ t.psn k = s.psn k) ∧
        t = { s with
          g := t.g, tlb := t.tlb, cores := t.cores, rts := t.rts, draws := t.draws, ctxs := t.ctxs }) ∧
      (64 ≤ C.devList.length → ∃ t, exec (.launch b d) s = .next t ∧ t.g.block = some .launchFull ∧ t.ctxs = s.ctxs ∧
        t.g.pc = s.g.pc ∧ t.g.s = s.g.s ∧ ∀ k, t.byte k = s.byte k)) ∧
    (∃ t, exec (.evset b c ext) s = .next t ∧ OnlyPc (extWords ext) s.g t.g ∧ Keeps s t ∧
      (∀ n, t.ctx n = if n = s.g.ctx then { C with ev := (t.ctx n).ev } else s.ctx n) ∧
      (∀ j, j < 256 → (t.ctx s.g.ctx).ev.getLsbD j =
        (C.ev.getLsbD j || (decide (j / 64 = q) && (s.g.sGet c).getLsbD (j % 64)))) ∧
      t = { s with g := t.g, cores := t.cores, ctxs := t.ctxs })

/-- System instructions (18 R412, R413). -/
def Obligations.SystemInstructions : Prop :=
  ∀ (s : State) (b c : SReg) (v : W32) (im : Bool) (tag : BitVec 12) (tag8 : BitVec 8) (core x : Nat),
    s.g.unit = .core core x →
    (s.Settled → s.fab.reqs = [] → (∀ e ∈ s.cores, e.2.missQ = []) → (∀ g ∈ s.everyGroup, g.loads = []) →
      s.Readable [useS b, useS c] →
      let lo := (s.g.sGet b).toNat % 2 ^ 53
      let len := if im then v.toNat else (s.g.sGet c).toNat
      ∃ t, exec (.tlbinv b (if im then .imm v else .reg c)) s = .next t ∧ OnlyPc (if im then 3 else 1) s.g t.g ∧
        (∀ e, e ∈ t.tlb ↔ e ∈ s.tlb ∧ ¬ (e.ctx = s.g.ctx ∧
          (len = 0 ∨ (e.page < lo + len ∧ lo < e.page + if e.big then 2 ^ 21 else 2 ^ 16)))) ∧
        t = { s with g := t.g, tlb := t.tlb }) ∧
    (let N := (s.core core).narrow
     s.Alone → s.sys.allUp = true → tblWf none N = true → (∀ k, isPeerKey k = true → tblGet none N k = none) →
      ∃ t, exec .l1wb s = .next t ∧ OnlyPc 1 s.g t.g ∧ (t.core core).narrow = [] ∧
        (∀ k y p, tblGet none N k = some (y, p) → t.byte k = y) ∧ (∀ k, tblGet none N k = none → t.byte k = s.byte k) ∧
        (∀ d, d ≠ core → t.core d = s.core d) ∧
        t = { s with
          g := t.g, mem := t.mem, poison := t.poison, wts := t.wts, pclk := t.pclk, cores := t.cores }) ∧
    (∃ t, exec .l1inv s = .next t ∧ OnlyPc 1 s.g t.g ∧
      (∀ e, e ∈ (t.core core).l1 ↔ e ∈ (s.core core).l1 ∧ ((∃ n ∈ (s.core core).narrow, lineOf n.1 = e.line) ∨
        ∃ g ∈ s.residents core, ∃ p ∈ g.allPriv, lineOf p.1 = e.line)) ∧
      t = { s with g := t.g, cores := t.cores } ∧
      ∀ d, { t.core d with l1 := [] } = { s.core d with l1 := [] } ∧ (d ≠ core → t.core d = s.core d)) ∧
    (∃ t, exec (.pmark tag) s = .next t ∧ OnlyPc 1 s.g t.g ∧ t = { s with g := t.g, cores := t.cores } ∧
      ∀ d, t.core d = if d = core then { s.core d with mark := tag, markCycle := s.sys.cycle } else s.core d) ∧
    (∃ t, exec (.snaptrig tag8) s = .next t ∧ OnlyPc 1 s.g t.g ∧
      (s.sys.snapCtl.getLsbD 1 = false → t.sys = s.sys) ∧
      (s.sys.snapCtl.getLsbD 1 = true → s.sys.snapCtl.getLsbD 0 = true →
        (s.sys.snapPend = [] →
          t.sys = { s.sys with snapPend := [(s.sys.cycle, 2, some (tag8.setWidth 12))] }) ∧
        (∀ m tg, s.sys.snapPend = [(s.sys.cycle, m, tg)] →
          t.sys = { s.sys with snapPend := [(s.sys.cycle, m ||| 2, tg <|> some (tag8.setWidth 12))] })) ∧
      (s.sys.snapCtl.getLsbD 1 = true → s.sys.snapCtl.getLsbD 0 = false → s.sys.snapMissed ≠ 0xFFFFFFFF →
        t.sys = { s.sys with snapMissed := s.sys.snapMissed + 1 }) ∧
      t = { s with g := t.g, sys := t.sys })

/-- Instructions that are not for sections (16 R373), in uniform form. -/
def Obligations.SectionsRefuse : Prop :=
  ∀ (s : State) (z : Size) (a b c : SReg) (d : Sys2Proof.Disp) (df : DForm) (f e : Bool) (tc : TC) (num : BitVec 15) (p : PBlock)
    (acc : AccReg) (co : Compl) (dm x : Nat), s.g.unit = .damper dm x → s.g.pend = [] → s.Settled →
    ∀ i ∈ [Instr.lds z (.u a b) d f, .sts z (.u a b) d, .ldc z (.u a b) d f, .stc z (.u a b) d, .ldl z (.u a b) d f,
        .stl z (.u a b) d, .exit, .tdone e, .tclaimClu f a b df, .tclaimw f a e, .launch b df, .evset b c e, .mma p,
        .mzero acc e, .mdrain f a b c df, .mloadc b c df, .mstat f a e, .mstatIdle f a e, .mfreeze e, .mthaw e, .kick b,
        .equiesce, .gather b co f p, .scatter b co f p, .scatadd b co f p, .mcst b co p, .tlbinv b tc, .l1wb, .l1inv,
        .csrwr a num] ++ (if num.toNat < 0x400 then [Instr.csrrd a num] else []),
      ∃ t w0, exec i s = .next t ∧ t.g.suspended = some s.nextId ∧ t.nextId = s.nextId + 1 ∧
        t.g.trapCause = 0xFF17 ∧ t.g.trapPc = s.g.pc ∧ t.g.trapAddr = 0 ∧ t.g.trapInfo = 0 ∧ t.g.pc = s.g.pc ∧
        t.hif.records = s.hif.records ++
          [{ words := [w0, s.g.pc, 0, 0], log := some (.mk 0 1 0x17 true s.g.gid s.g.ctx) }] ∧
        t.g.s = s.g.s ∧ t.g.v = s.g.v ∧ t.g.m = s.g.m ∧ t.g.retired = s.g.retired ∧
        (∀ k, t.byte k = s.byte k ∧ t.psn k = s.psn k)

/-- Matrix control (15 R329, R339, R343, R344). -/
def Obligations.MatrixControl : Prop :=
  ∀ (s : State) (n : AccReg) (a : SReg) (f ext : Bool) (c x : Nat), s.g.unit = .core c x → s.Readable [useS a] →
    let p := c / 2
    let A := s.arr p
    let w := extWords ext
    let bit (k : Nat) (b : Bool) : Nat := if b then 2 ^ k else 0
    let rest := s.runArray p
    let onlyArray (r t : State) : Prop := OnlyPc w s.g t.g ∧ (∀ q, q ≠ p → t.arr q = r.arr q) ∧
      t = { r with g := t.g, arrays := t.arrays }
    let gives (i : Instr) (r : State) : Prop := s.g.Room f →
      let B := r.arr p
      Gives s (exec i s) w (s.g.selFlag f)
        [(.s a.val, BitVec.ofNat 64 (B.kdone + bit 9 B.frozen + bit 10 B.manual + bit 11 B.conv.isSome +
          (match B.stream with
           | none => 0
           | some m => 4096 * m.acc + 8192 * m.mode) + bit 15 B.stream.isSome))]
        (fun t => t = { r with g := t.g, nextId := t.nextId } ∧ t.g.gts = s.g.gts)
    (A.stream = none → A.conv = none → rest = s) ∧
    (s.isMatrix = true →
      (∃ t, exec (.mzero n ext) s = .next t ∧ onlyArray rest t ∧
        (∀ k, tblGet 0 (t.arr p).acc k = if k / 32768 = n.val then 0 else tblGet 0 (rest.arr p).acc k) ∧
        (∀ k, tblGet false (t.arr p).accPsn k = if k / 32768 = n.val then false else tblGet false (rest.arr p).accPsn k) ∧
        t.arr p = { rest.arr p with acc := (t.arr p).acc, accPsn := (t.arr p).accPsn }) ∧
      gives (.mstatIdle f a ext) rest ∧ gives (.mstat f a ext) s ∧
      (∃ t, exec (.mfreeze ext) s = .next t ∧ onlyArray s t ∧
        t.arr p = if A.stream.isSome ∧ A.frozen = false then { A with freezing := true }
          else if A.frozen = true ∧ s.g.handler = true then { A with manual := true } else A) ∧
      (∀ m, A.stream = some m → A.freezing = true → A.frozen = false →
        ∃ t, exec (.arrayFreeze p) s = .next t ∧
          (m.K ≤ A.kdone + m.step → (t.arr p).frozen = false ∧ (t.arr p).freezing = false) ∧
          (A.kdone + m.step < m.K → ∃ m' r, t.arr p = { A with
              stream := some m', kdone := A.kdone + m.step, frozen := true, manual := true, freezing := false, res := r } ∧
            m'.p = m.p ∧ m'.aframe = m.aframe ∧ m'.bframe = m.bframe) ∧
          (∀ q, q ≠ p → t.arr q = s.arr q) ∧ t = { s with arrays := t.arrays }) ∧
      (∃ t, exec (.mthaw ext) s = .next t ∧ onlyArray s t ∧
        t.arr p = if A.frozen = true ∧ A.manual = true then { A with manual := false, frozen := s.g.handler } else A)) ∧
    (s.isMatrix = false → s.MayTrap →
      ∀ i ∈ [Instr.mzero n ext, .mstat f a ext, .mstatIdle f a ext, .mfreeze ext, .mthaw ext],
        Takes s s.g (exec i s) { cause := 0x03, addr := 0, info := 2, pc := s.g.pc })

/-- MMA's issue (15 R332 to R336). -/
def Obligations.MmaIssue : Prop :=
  ∀ (s : State) (p : PBlock) (c x : Nat), s.g.unit = .core c x → s.Calm → s.isMatrix = true →
    let A := s.arr (c / 2)
    let X := mmaFrames s c (pbVals s.g p)
    let fits := pbFits s.g p && wfMma (pbLit s.g p)
    A.stream = none → A.conv = none →
    (fits = false → Takes s s.g (exec (.mma p) s) { cause := 0x01, addr := 0, info := 0, pc := s.g.pc }) ∧
    (∀ e, fits = true → mmaCheck s.g.pc (spaceSize s s.who .core) X = .error e →
      Takes s s.g (exec (.mma p) s) { cause := e.cause, addr := e.addr, info := e.info, pc := s.g.pc }) ∧
    (fits = true → mmaCheck s.g.pc (spaceSize s s.who .core) X = .ok () → (∀ k, s.psn k = false) →
      ∃ t m, exec (.mma p) s = .next t ∧ OnlyPc 5 s.g t.g ∧
        (∀ q, t.arr q = if q = c / 2 then { A with stream := some m, kdone := 0, res := [] } else s.arr q) ∧
        t = { s with g := t.g, arrays := t.arrays } ∧
        m.p = pbVals s.g p ∧ m.aframe = frameAt s c X.aoffFrame ∧ m.bframe = frameAt s c X.boffFrame ∧
        (∀ i, i < X.rows → m.ascale.getD i 0 = s.byte (keyCore c (frScaleAt X.aframe i 0))) ∧
        (∀ n, X.cols.1 ≤ n → n < X.cols.1 + X.cols.2 → n < 256 →
          m.bscale.getD n 0 = s.byte (keyB (c + n / 128) (n % 128) (61440 + frScale X.bframe))))

/-- The residue array's result is that of exact arithmetic (07 R159 to R163, 15 R335). -/
def Obligations.MatrixExact : Prop :=
  (∀ P : Int, P.natAbs ≤ 4294966271 → crt (residues P).1 (residues P).2.1 (residues P).2.2 = P) ∧
  (∀ (s : State) (p : Nat) (m : Mma), (s.arr p).stream = some m → (s.arr p).conv = none → (s.arr p).frozen = false →
    (s.arr p).freezing = false → (s.arr p).kdone = 0 → (s.arr p).res = [] → m.acc < 2 →
    let A := s.arr p
    let lead := 2 * p
    let dot (r n : Nat) : Int := (List.range m.K).foldl (fun acc k => acc + m.aPort s lead r k * m.bPort s lead k n) 0
    ∃ t u, exec (.mmaStreamEnd p) s = .next t ∧ exec (.mmaConversionEnd p) t = .next u ∧
      (u.arr p).stream = none ∧ (u.arr p).conv = none ∧ (∀ q, q ≠ p → u.arr q = s.arr q) ∧
      (∀ k, u.byte k = s.byte k) ∧ u.g = s.g ∧
      (∀ r n, r < 128 → n < 256 → m.computes r n = true → (dot r n).natAbs ≤ 4294966271 →
        let k := 32768 * m.acc + 256 * r + n
        tblGet 0 (u.arr p).acc k = accUpdate m.mode (tblGet 0 A.acc k) (dot r n) (m.ascale.getD r 0).toNat
          (m.bscale.getD n 0).toNat ((if frDith m.aframe then 1 else 0) + if frDith m.bframe then 1 else 0)) ∧
      (∀ a r n, a < 2 → r < 128 → n < 256 → (a ≠ m.acc ∨ m.computes r n = false) →
        tblGet 0 (u.arr p).acc (32768 * a + 256 * r + n) = tblGet 0 A.acc (32768 * a + 256 * r + n)))

/-- Accumulator images (15 R340 to R342): IMG 0 or 1; element j of the region is at row row0 + j / ncol and column
col0 + j % ncol, four bytes each. -/
def Obligations.AccumulatorImages : Prop :=
  ∀ (s : State) (f : Bool) (a b c : SReg) (d : DForm) (core x : Nat) (acc : Acc), s.g.unit = .core core x → s.Calm →
    s.isMatrix = true → s.g.Room f →
    let p := core / 2
    let A := s.arr p
    let m := mselOf (s.g.sGet c)
    let ea := s.g.sGet b + dDisp d
    let at_ (j : Nat) : Nat := 32768 * m.img + 256 * (m.row0 + j / m.ncol) + m.col0 + j % m.ncol
    let count := m.nrow * m.ncol
    A.stream = none → A.conv = none → A.accPsn = [] → m.img < 2 → (∀ k, s.psn k = false) →
    acc.glob = false → acc.keys.Nodup → acc.keys.length = 4 * count →
    (windowAcc s s.who .store bulkWindow ea (4 * count) 8 = .ok acc →
      Gives s (exec (.mdrain f a b c d) s) (dWords d) (s.g.selFlag f) [(.s a.val, BitVec.ofNat 64 (4 * count))] (fun t =>
        (∀ j i, j < count → i < 4 → t.byte (acc.keys.getD (4 * j + i) 0) = (tblGet 0 A.acc (at_ j)).extractLsb' (8 * i) 8) ∧
        (∀ k, k ∉ acc.keys → t.byte k = s.byte k) ∧ t.g.gts = s.g.gts ∧ t.arrays = s.arrays)) ∧
    (windowAcc s s.who .load bulkWindow ea (4 * count) 8 = .ok acc →
      ∃ t, exec (.mloadc b c d) s = .next t ∧ OnlyPc (dWords d) s.g t.g ∧
        (∀ j i, j < count → i < 4 →
          (tblGet 0 (t.arr p).acc (at_ j)).extractLsb' (8 * i) 8 = s.byte (acc.keys.getD (4 * j + i) 0)) ∧
        (∀ k, (∀ j, j < count → k ≠ at_ j) → tblGet 0 (t.arr p).acc k = tblGet 0 A.acc k) ∧
        (t.arr p).accPsn = [] ∧ (∀ q, q ≠ p → t.arr q = s.arr q) ∧ t = { s with g := t.g, arrays := t.arrays })

/-- KICK and EQUIESCE (16 R355 to R357). -/
def Obligations.EngineInstructions : Prop :=
  ∀ (s : State) (b : SReg) (c x : Nat), s.g.unit = .core c x → s.Calm →
    let off := s.g.sGet b
    let S := spaceSize s s.who .core
    let rcd := s.words (keyCore c off.toNat) 16
    let frames := readFrames s c rcd
    let Q := (s.core c).engQ
    let trap (cause : Nat) (addr info : W64) : TrapV := { cause := cause, addr := addr, info := info, pc := s.g.pc }
    (s.g.producer = some s.g.localNum → off.toNat + 64 ≤ S → off.toNat % 64 = 0 →
      (∀ k ∈ span (keyCore c off.toNat) 64, s.psn k = false) →
      (crCheck s s.who rcd frames = none → Q.length < 16 →
        ∃ t op, exec (.kick b) s = .next t ∧ OnlyPc 1 s.g t.g ∧ op.id = s.nextId ∧ op.rcd = rcd ∧ op.frame = frames ∧
          op.by_ = issuerOf s.g ∧ op.wrote = false ∧ t.nextId = s.nextId + 1 ∧
          (∀ d, t.core d = if d = c then { s.core c with engQ := Q ++ [op] } else s.core d) ∧
          (∀ l, s.launchOf s.g.launch = some l → t.launchOf s.g.launch = some { l with ops := l.ops + 1 }) ∧
          t = { s with g := t.g, nextId := t.nextId, cores := t.cores, disp := t.disp }) ∧
      (crCheck s s.who rcd frames = none → 16 ≤ Q.length →
        exec (.kick b) s = .next { s with g := { s.g with block := some .engineFull } }) ∧
      (∀ r n, crCheck s s.who rcd frames = some (r, n) →
        Takes s s.g (exec (.kick b) s) (trap 0x1C off (BitVec.ofNat 64 (r + 256 * n))))) ∧
    (s.g.producer ≠ some s.g.localNum → Takes s s.g (exec (.kick b) s) (trap 0x14 0 s.producerNum)) ∧
    (let quiet := Q = [] ∧ (∀ o ∈ (s.core c).engRun, EngOp.parked o = true) ∧ ∀ r ∈ s.riddle, r.core ≠ c
     (quiet → ∃ t, exec .equiesce s = .next t ∧ OnlyPcClock 1 s.pclk s.g t.g ∧ t = { s with g := t.g }) ∧
     (¬ quiet → exec .equiesce s = .next { s with g := { s.g with block := some .quiesce } }))

/-- The Riddle instructions (16 R358 to R365). -/
def Obligations.RiddleInstructions : Prop :=
  ∀ (s : State) (base : SReg) (co : Compl) (tr : Bool) (p : PBlock) (c x : Nat), s.g.unit = .core c x → s.Calm →
    let op (k : RidKind) : RidOp :=
      { id := s.nextId, kind := k, by_ := issuerOf s.g, core := c, base := s.g.sGet base, p := pbVals s.g p
        doneAddr := complAddr s.g co
        done := (match co with
          | .tok k => .tok k.val
          | .bar _ => .bar (field ((pbVals s.g p).getD 1 0).toNat 18 1 == 1)
          | .cnt _ => .cnt) }
    ∀ e ∈ [(Instr.gather base co tr p, RidKind.gather, tr, wfRid co false), (.scatter base co tr p, .scatter, tr, wfRid co false),
        (.scatadd base co tr p, .scatadd, tr, wfRid co true), (.mcst base co p, .mcst, false, wfMcst co)],
      let o : RidOp := { op e.2.1 with todo := List.range ((op e.2.1).count * (op e.2.1).perElem) }
      let fits := pbFits s.g p && e.2.2.2 (pbLit s.g p)
      (fits = false → Takes s s.g (exec e.1 s) { cause := 0x01, addr := 0, info := 0, pc := s.g.pc }) ∧
      (∀ y, fits = true → ridFail s o co = some y →
        Takes s s.g (exec e.1 s) { cause := y.cause, addr := y.addr, info := y.info, pc := s.g.pc }) ∧
      (fits = true → ridFail s o co = none → (e.2.2.1 = true → ridProbe s o = none) →
        (∀ k, co = .tok k → (s.g.kGet k.val).pending = false) →
        ∃ t, exec e.1 s = .next t ∧ Retired 5 s.g t.g ∧ Keeps s t ∧ t.riddle = s.riddle ++ [o] ∧ t.nextId = s.nextId + 1 ∧
          (∀ r, t.g.kGet r = if ∃ k, co = .tok k ∧ k.val = r then
              { kind := if e.2.1 = .mcst then .mcast else .engine, pending := true } else s.g.kGet r) ∧
          (∀ l, s.launchOf s.g.launch = some l → t.launchOf s.g.launch = some { l with ops := l.ops + 1 }) ∧
          t.g = { s.g with k := t.g.k, pc := t.g.pc, retired := t.g.retired, block := t.g.block } ∧
          t = { s with g := t.g, riddle := t.riddle, nextId := t.nextId, disp := t.disp, cores := t.cores })

/-- SHIP, WAITTOK, TOKTEST and SRET (16 R366 to R372). SHIP's clause is for a group
with one active thread. -/
def Obligations.SectionInstructions : Prop :=
  (∀ (s : State) (ent : SReg) (kt : KReg) (narg : Fin 7) (nres : Fin 5) (p : PBlock) (c x th : Nat),
    s.g.unit = .core c x → s.Calm → s.MayVector 0 [] [] → activeOf (s.g.govern 0) = [th] →
    let r := shipRegs s.g narg.val nres.val p
    let e := s.g.sGet ent
    let lock := s.g.vGet r.lock th
    let d := s.homeDamper (lockHash lock)
    let D := s.damper d
    (pbFits s.g p && wfShip narg nres (pbLit s.g p)) = true → s.g.Has r.all →
    (∀ v ∈ shipLits s.g narg.val nres.val p, v.val < s.g.nv) → e.toNat % 4 = 0 →
    e.toNat < 2 ^ 63 → lockFail s lock = none → lockHere s lock = true → (s.g.kGet kt.val).pending = false →
    D.isClosed lock = false → D.queue.length < 4096 → D.refusal = [] →
    ∃ t q, exec (.ship ent kt narg nres p) s = .next t ∧ Retired 5 s.g t.g ∧ Keeps s t ∧
      (∀ j, t.damper j = if j = d then { D with queue := D.queue ++ [q] } else s.damper j) ∧
      q.entry = e ∧ q.lock = lock ∧ q.args = r.args.map (fun v => s.g.vGet v th) ∧ q.nres = r.res.length ∧
      q.sender = { dev := s.myId, gid := s.g.gid, launch := s.g.launch, gidx := s.g.gidx, thread := th, ctx := s.g.ctx,
                   k := kt.val, pend := s.nextId, tag := BitVec.ofNat 64 (unitCode s.g.unit) } ∧
      (∀ n, t.g.kGet n = if n = kt.val then { kind := .sect, pending := true, left := 1 } else s.g.kGet n) ∧
      (r.res = [] → t.g.pend = []) ∧
      (r.res ≠ [] → ∃ y, t.g.pend = [y] ∧ y.id = s.nextId ∧ y.flag = none ∧ y.sect = true ∧
        y.writes = r.res.map fun v => (.v v.val th, none)) ∧
      t.g = { s.g with
        k := t.g.k, pend := t.g.pend, pc := t.g.pc, retired := t.g.retired, block := t.g.block }) ∧
  (∀ (s : State) (k : KReg) (a : SReg), s.Calm →
    let T := s.g.kGet k.val
    let code (x : TokKind) : Nat := match x with
      | .none => 0
      | .fence => 1
      | .engine => 2
      | .sect => 3
      | .mcast => 4
    (T.pending = false → (∃ t, exec (.waittok k) s = .next t ∧ OnlyPcClock 1 s.pclk s.g t.g ∧ t = { s with g := t.g }) ∧
      ∃ t, exec (.toktest a k) s = .next t ∧ OnlyGroup s t ∧ Retired 1 s.g t.g ∧ s.pclk ≤ t.g.gts ∧
        (∀ r, t.g.sGet r = if r = a ∧ a ≠ 0 then BitVec.ofNat 64 (1 + 2 * code T.kind + 2 ^ 8 * T.cause.toNat +
          2 ^ 16 * T.code.toNat + 2 ^ 32 * T.count.toNat) else s.g.sGet r) ∧
        t.g = { s.g with
          s := t.g.s, gts := t.g.gts, pc := t.g.pc, retired := t.g.retired, block := t.g.block }) ∧
    (T.pending = true → exec (.waittok k) s = .next { s with g := { s.g with block := some (.token k.val) } } ∧
      SetsS s (exec (.toktest a k) s) 1 a 0)) ∧
  (∀ (s : State) (r : SecReq) (dm x : Nat), s.g.unit = .damper dm x → s.g.sec = some r → s.Quiet → s.Alone → s.g.pend = [] →
    s.g.priv = [] → s.g.fences = [] → (∀ e ∈ s.g.k, e.2.pending = false) → r.far = false → r.sender.dev = s.myId → r.sender.gid ≠ s.g.gid →
    ∀ G, s.findGid r.sender.gid = some G →
      (G.kGet r.sender.k).pending = true → (G.kGet r.sender.k).kind = .sect →
      ∃ t H, exec .sret s = .next t ∧ t.g = Group.empty ∧ t.findGid r.sender.gid = some H ∧
        (∀ k, t.byte k = s.byte k) ∧ (H.kGet r.sender.k).left = (G.kGet r.sender.k).left - 1 ∧
        ((H.kGet r.sender.k).pending = true ↔ 1 < (G.kGet r.sender.k).left) ∧
        (∀ y, G.pend = [y] → y.id = r.sender.pend → (∀ w ∈ y.writes, w.2 = none) → (y.writes.map (·.1)).Nodup →
          y.writes.length = r.nres → ∃ z, H.pend = [z] ∧ z.writes = y.writes.zipIdx.map fun w =>
            (w.1.1, some (s.g.vGet (Fin.ofNat 1024 (w.2 + 1)) 0, false))) ∧
        H.s = G.s ∧ H.v = G.v ∧ H.pc = G.pc) ∧
  (∀ (s : State), s.MayTrap → s.g.sec = none →
    Takes s s.g (exec .sret s) { cause := 0x17, addr := 0, info := 1, pc := s.g.pc })

/-- Events of groups (11 R244, 10 R226, R231, R232, R460, 08 R191 to R193, 05 R99, R107, 06 R133, R135). The clauses
are about the group that the state holds as its current one; the second part carries them over to other units. The
fence, quantum and restore clauses are about one fence, a domain of one group, and one saved core with no load map. -/
def Obligations.GroupEvents : Prop :=
  (∀ (s : State) (u : UnitId), s.g.live = true → s.g.unit = u →
    (∀ i p, s.Settled → s.g.pend[i]? = some p → p.ready = true → p.poisoned = false → p.sync = false →
      ∃ t, exec (.resultWriteback u i) s = .next t ∧ OnlyGroup s t ∧
        t.g.pend = dropFirst (fun q => q.id == p.id) s.g.pend ∧
        (∀ j, t.g.fGet j = if p.flag = some j then s.g.fGet j - 1 else s.g.fGet j) ∧
        t.g = { (s.g.writeAll p.values) with pend := t.g.pend, f := t.g.f }) ∧
    (∀ p, s.g.pend = [p] → p.ready = true → p.poisoned = true → p.sync = false → s.g.OnCore → s.g.handler = false →
      s.Settled → s.g.suspended = none →
      Takes s (s.g.retirePend p) (exec (.deferredPoisonTrap u) s)
        { cause := 0x30, addr := p.addr, info := (p.ipc &&& ~~~3#64) ||| 1, thread := p.psnThread, pc := s.g.pc }) ∧
    (∀ b, s.g.block = some b → s.Settled → s.g.fences = [] → s.waitOver b = true →
      exec (.blockedWaitWake u) s = .next { s with g := { s.g with block := none } }) ∧
    (∀ b, s.g.block = some b → b ∈ [Block.engineFull, .launchFull, .array, .room, .replay] →
      exec (.refusedRequestRetry u) s = .next { s with g := { s.g with block := none } }) ∧
    exec (.gtsPeriodicRaise u) s = .next { s with
      g := { s.g with gts := if s.g.det.isSome then s.g.gts else max s.g.gts s.pclk } } ∧
    (s.g.preempting = true → s.MayTrap → s.g.suspended = none → s.g.block = none → s.g.det = none →
      Takes s s.g (exec (.preemptTrap u) s) { cause := 0x20, addr := 0, info := 0, pc := s.g.pc }) ∧
    (∀ (k : Fin 16) sc cover, s.Quiet → s.Alone → s.g.OnCore →
      s.g.fences = [{ k := k.val, scope := sc, cover := cover, published := false, waits := [] }] →
      tblWf none cover = true → (∀ j, isPeerKey j = true → tblGet none cover j = none) → sc ≠ .grp → sc ≠ .core →
      let done (v : State) : Prop :=
        (∀ j b p, tblGet none cover j = some (b, p) → v.byte j = b) ∧
        (∀ j, tblGet none cover j = none → v.byte j = s.byte j) ∧ s.pclk ≤ v.pclk ∧ v.g.priv = s.g.priv ∧
        v.g.s = s.g.s ∧ v.g.v = s.g.v ∧ v.g.m = s.g.m ∧ v.g.pc = s.g.pc
      (∃ v, exec (.publication u k) s = .next v ∧ done v ∧ v.g.k = s.g.k ∧
        v.g.fences = [{ k := k.val, scope := sc, cover := [], published := true, waits := [] }]) ∧
      (∃ v, exec (.fenceTokenComplete u k) s = .next v ∧ done v ∧ v.g.fences = [] ∧
        ∀ r, v.g.kGet r = if r = k.val then { (s.g.kGet r) with pending := false } else s.g.kGet r))) ∧
  (∀ (s : State) (u : UnitId) (g : Group) (t : State) (k : Fin 16) (i : Nat),
    ∀ e ∈ [Instr.resultWriteback u i, .deferredPoisonTrap u, .blockedWaitWake u, .refusedRequestRetry u,
        .gtsPeriodicRaise u, .publication u k, .fenceTokenComplete u k, .preemptTrap u],
      s.findUnit u = some g → (s.swapTo g.gid).g = g → exec e (s.swapTo g.gid) = .next t → t.g.gid = g.gid →
      exec e s = .next (t.swapTo s.g.gid)) ∧
  (∀ (s : State) (ctx : Nat) (pairs : List Nat),
    ∃ t, exec (.preemptSignal ctx pairs) s = .next t ∧ t = { s with g := t.g, parked := t.parked } ∧
      t.groups = s.groups.map fun g =>
        if g.ctx == ctx && pairs.any (fun q => (unitCore g.unit).map (· / 2) == some q) then { g with preempting := true }
        else g) ∧
  (∀ (s : State) (d : Delivery) (r : List Delivery) (v : W64), s.disp.deliveries = d :: r → d.val = some v →
    (s.everyGroup.map Group.gid).Nodup → d.gids.Nodup →
    ∃ t, exec .tclaimDelivery s = .next t ∧
      t = { s with g := t.g, parked := t.parked, ctxs := t.ctxs, disp := { s.disp with deliveries := r } } ∧
      t.everyGroup = s.everyGroup.map fun g =>
        if g.gid ∈ d.gids then { g with claims := g.claims ++ [v] } else g) ∧
  (∀ (s : State) (launch : Nat) (d : Det), s.g.live = true → s.g.launch = launch → s.g.det = some d →
    (s.g.block = some .turn → s.turnHeld launch = false → s.shipsOut launch = false →
      s.smallest launch (s.g.retired.toNat, s.g.gidx.toNat) = true →
      exec (.detTurnGrant launch) s =
        .next { s with g := { s.g with block := none, det := some { d with turn := true } } }) ∧
    (∀ x, s.everyGroup = [s.g] → d.atEnd = true → d.leaving = false → s.Quiet → s.own = {} → s.fab.reqs = [] →
      s.g.fences = [] → tblWf none s.g.priv = true → (∀ j, isPeerKey j = true → tblGet none s.g.priv j = none) →
      s.disp.doms = [x] → x.launch = launch →
      ∃ t, exec (.quantumEnd launch) s = .next t ∧
        (∀ j b p, tblGet none s.g.priv j = some (b, p) → t.byte j = b) ∧
        (∀ j, tblGet none s.g.priv j = none → t.byte j = s.byte j) ∧ s.pclk ≤ t.pclk ∧ t.g.priv = [] ∧
        t.g.gts = t.pclk ∧ t.g.det = some { d with atEnd := false } ∧
        t.g.block = (if s.g.block = some .quantum then none else s.g.block) ∧
        t.disp.doms = [{ x with snap := [], late := [] }] ∧ t.g.s = s.g.s ∧ t.g.v = s.g.v ∧ t.g.m = s.g.m ∧ t.g.pc = s.g.pc)) ∧
  (∀ (s : State) (ctx c d : Nat) (cores : List (Nat × Nat)) (e : SavedCore),
    (s.ctx ctx).savedCores = [e] → e.core = c → e.loadMap = [] → destOf cores c = some d →
    (∀ g ∈ (s.ctx ctx).saved, g.ctx = ctx ∧ unitCore g.unit = some c) → s.restoreFits ctx cores = true →
    (s.core d).bankQ = [] → tblWf 0 e.scratch = true → e.scratchPsn = [] → (∀ x ∈ e.scratch, x.1 < 786432) →
    ∃ t, exec (.contextRestore ctx cores) s = .next t ∧ (t.ctx ctx).saved = [] ∧ (t.ctx ctx).savedCores = [] ∧
      (∀ a, a < 786432 → t.byte (keyCore d a) = tblGet 0 e.scratch a) ∧ (t.core d).loadMap = [] ∧
      t.parked = s.parked ++ (s.ctx ctx).saved.map fun g =>
        { g with
          unit := .core d (unitSlot g.unit), handler := true, pc := s.sys.tvec, restored := true
          preempting := false, gts := s.pclk, block := none, saveBase := (s.ctx ctx).saveBase })

/-- Events of memory (03 R54, R59, R65, R67, 05 R103, R106, R116, 04 R74, R75, 17 R388), on a quiet device that no peer
concerns. -/
def Obligations.MemoryEvents : Prop :=
  (∀ (s : State) (c : Nat) (m : Miss) (r : List Miss), (s.core c).missQ = m :: r → isPeerKey (64 * m.line) = false →
    s.Quiet → s.own = {} → s.fab.reqs = [] →
    ∃ t e, exec (.l1Miss c) s = .next t ∧ (t.core c).missQ = r ∧ (t.core c).l1.head? = some e ∧ e.line = m.line ∧
      e.data = s.lineData m.line ∧ e.psn = s.linePsn m.line ∧ e.wts = s.wtsOf m.line ∧ s.wtsOf m.line ≤ e.lease ∧
      m.gts ≤ e.lease ∧ t.rtsOf m.line = e.lease ∧ s.rtsOf m.line ≤ t.rtsOf m.line ∧
      t = { s with cores := t.cores, rts := t.rts, draws := t.draws } ∧ ∀ d, d ≠ c → t.core d = s.core d) ∧
  (∀ (s : State) (c : Nat), let N := (s.core c).narrow
    tblWf none N = true → N ≠ [] → (∀ j, isPeerKey j = true → tblGet none N j = none) → s.own = {} → s.disp.doms = [] →
    s.fab.reqs = [] → s.sys.allUp = true →
    ∃ t, exec (.forcedPublish c) s = .next t ∧
      t.core c = { s.core c with
        narrow := [], nown := [], l1 := (s.core c).l1.filter fun e => !(N.any fun n => lineOf n.1 == e.line) } ∧
      (∀ k b p, tblGet none N k = some (b, p) →
        let st := t.wtsOf (lineOf k)
        t.byte k = b ∧ s.wtsOf (lineOf k) < st ∧ s.rtsOf (lineOf k) < st ∧ st ≤ t.pclk ∧
          ∀ g ∈ s.groups, tblGet 0 (s.core c).nown k = g.gid + 1 → g.gts < st) ∧
      (∀ k, tblGet none N k = none → t.byte k = s.byte k) ∧ s.pclk ≤ t.pclk ∧
      t = { s with cores := t.cores, mem := t.mem, poison := t.poison, wts := t.wts, pclk := t.pclk } ∧
      ∀ d, d ≠ c → t.core d = s.core d) ∧
  (∀ (s : State) (c : Nat), (s.core c).bankQ ≠ [] →
    (∀ a ∈ (s.core c).bankQ, a.op = none ∧ a.load = none ∧ a.after = [] ∧ ∃ k n, a.keys = span k n ∧ n ≤ 8) →
    ∃ t b a r k n, exec (.bankAccessPerformed c) s = .next t ∧ (s.core c).bankQ = b ++ a :: r ∧
      (∀ x ∈ b, ∀ i ∈ x.keys, ∀ j ∈ a.keys, bankOf i ≠ bankOf j) ∧ t.core c = { s.core c with bankQ := b ++ r } ∧
      a.keys = span k n ∧
      (∀ i, i < n → t.byte (k + i) = (a.data >>> (8 * i)).setWidth 8) ∧
      (∀ j, (j < k ∨ k + n ≤ j) → t.byte j = s.byte j) ∧
      t = { s with cores := t.cores, mem := t.mem, poison := t.poison } ∧ ∀ d, d ≠ c → t.core d = s.core d) ∧
  (∀ (s : State) (h : HomeOp) (q : Nat) (dst : Dest), s.homeQ = [h] → h.gid = s.g.gid → s.g.live = true →
    ({ s with homeQ := [] } : State).Quiet → s.Alone → s.g.priv = [] → s.g.fences = [] → h.pend = some q →
    h.dest = some dst → h.after = [] → h.own = [] → s.RoomForTag → (∀ d ∈ s.disp.deliveries, d.val ≠ none) →
    let key := h.place.key
    let frame (t : State) (n : Nat) : Prop :=
      t.homeQ = [] ∧ (∀ j, (j < key ∨ key + n ≤ j) → t.byte j = s.byte j) ∧ s.g.gts ≤ t.g.gts ∧
        (∀ d, t.core d = s.core d) ∧ t = { s with
          g := t.g, homeQ := [], cores := t.cores, mem := t.mem, poison := t.poison, wts := t.wts, pclk := t.pclk
          fab := { s.fab with filter := t.fab.filter } }
    let gets (t : State) (v : W64) : Prop := t.g = { (s.g.fill q dst v false h.addr) with gts := t.g.gts }
    (∀ op z c d, h.act = .rmw op z c d → (∀ k ∈ span key (asizeBytes z), s.psn k = false) →
      (∀ k ∈ span key (asizeBytes z), isPeerKey k = false) →
      let n := asizeBytes z
      let old := s.num (span key n)
      ∃ t, exec .atomicAtHome s = .next t ∧ frame t n ∧ gets t (BitVec.ofNat 64 old) ∧
        t.num (span key n) =
          (rmwNew op z old (c.toNat % 2 ^ (8 * n)) (d.toNat % 2 ^ (8 * n))).getD old % 2 ^ (8 * n)) ∧
    (∀ f : Bar → Bar, h.place.glob = false → (∀ k ∈ span key 16, s.psn k = false) →
      ((∃ k, h.act = .arrive k ∧ f = fun b => b.arrive k) ∨ (∃ n, h.act = .expect n ∧ f = fun b => b.post n) ∨
        ∃ n arv code, h.act = .bytes n arv code ∧ f = fun b => b.count n arv code) →
      let B := barOf (s.barNum key)
      ∃ t, exec .barrierUpdate s = .next t ∧ frame t 16 ∧ gets t (if B.round then 1 else 0) ∧
        t.barNum key = (f B).num % 2 ^ 128)) ∧
  (∀ (s : State) (h : HomeOp) (n : W64) (status : W32) (k : Nat), s.homeQ = [h] → h.act = .count n status →
    h.place.key = k → h.after = [] → (∀ j ∈ span k 16, isPeerKey j = false ∧ s.psn j = false) →
    ({ s with homeQ := [] } : State).Quiet → s.Alone → s.RoomForTag →
    ∃ t, exec .counterAddition s = .next t ∧ t.homeQ = [] ∧
      t.num (span k 8) = (s.num (span k 8) + n.toNat) % 2 ^ 64 ∧
      (status = 0 → t.num (span (k + 8) 8) = s.num (span (k + 8) 8)) ∧
      (status ≠ 0 → s.num (span (k + 8) 4) = 0 → t.num (span (k + 8) 4) = status.toNat ∧
        t.num (span (k + 12) 4) = s.num (span (k + 12) 4)) ∧
      (status ≠ 0 → s.num (span (k + 8) 4) ≠ 0 → t.num (span (k + 8) 4) = s.num (span (k + 8) 4) ∧
        t.num (span (k + 12) 4) = min (s.num (span (k + 12) 4) + 1) (2 ^ 32 - 1)) ∧
      (∀ j, (j < k ∨ k + 16 ≤ j) → t.byte j = s.byte j) ∧
      t = { s with
        homeQ := [], mem := t.mem, poison := t.poison, wts := t.wts, pclk := t.pclk
        fab := { s.fab with filter := t.fab.filter } }) ∧
  (∀ (s : State) (w : Walk), s.walks = [w] →
    let x := exec (.tlbWalk (4 + w.off / 2 ^ 21 % 8)) s
    (∀ e ∈ s.tlb, ∀ n ∈ w.tlbs, e.hits n w.ctx w.off = false) →
    ((∃ e, walk s w.ctx w.off = .error e) → x = .next { s with walks := [] }) ∧
    (∀ l, walk s w.ctx w.off = .ok l → w.tlbs ≠ [] →
      ∃ t, x = .next t ∧ t = { s with walks := [], tlb := t.tlb } ∧
        lookup t w.tlbs w.ctx w.off = .ok ⟨(BitVec.ofNat 64 l.e).toNat, l.big⟩)) ∧
  (∀ (s : State) (i : Inval) (r : List Inval), s.invals = i :: r → s.homeQ = [] → s.invalWaits i.ctx i.lo i.len = false →
    ∃ t, exec .tlbInvalidationDone s = .next t ∧ t.invals = r ∧
      (∀ e, e ∈ t.tlb ↔ e ∈ s.tlb ∧ ¬ (e.ctx = i.ctx ∧
        (i.len = 0 ∨ (e.page < i.lo + i.len ∧ i.lo < e.page + if e.big then 2 ^ 21 else 2 ^ 16)))) ∧
      t = { s with invals := r, tlb := t.tlb, hif := t.hif } ∧
      t.hif = (if i.mbox then
        { s.hif with
          busy := false, status := 0, count := s.hif.count + 1
          msix := tblSet 0 s.hif.msix 0 (tblGet 0 s.hif.msix 0 + 1) }
        else s.hif)) ∧
  (∀ (s : State) (w : Window) (r : List Window) (p : Packet) (n : Nat), s.fab.combine = w :: r → w.sent = none →
    w.answers = [] → s.fab.heldTx = [] → s.Leaves p n →
    (w.parts = [p] → ∃ t, exec .combineWindow s = .next t ∧ t.fab.combine = r ∧ Left s t p n) ∧
    (∀ l, l ≠ [] → w.parts = p :: l → p.hop = 0 →
      ∃ t q, exec .combineWindow s = .next t ∧ Left s t q n ∧ t.fab.combine = { w with sent := some (tagOf q) } :: r ∧
        t.fab.reqs = s.fab.reqs ++ [{ tag := tagOf q, pkt := q, use := .none }] ∧ q.src.toNat = s.myId % 1024 ∧
        q.seqn = s.fab.seqn ∧ q.addr = p.addr ∧ q.typ = p.typ ∧ q.dst = p.dst ∧
        q.opnd.toNat % 2 ^ 64 = ((p :: l).map fun x => x.opnd.toNat).sum % 2 ^ 64))

/-- Events of engines, Riddle units, Dampers, arrays and core power (16 R346 to R371, 09 R214, R215, 10 R227). The copy
clauses are about pieces that cross no page, of locations that belong to this device. -/
def Obligations.EngineEvents : Prop :=
  (∀ (s : State) (c : Nat) (o : EngOp) (r : List EngOp), (s.core c).engQ = o :: r →
    let running := ((s.core c).engRun.filter fun y => y.of_.isNone).length
    let T := bsCore o.rcd c
    let kept := (s.core T).loadMap.filter fun e => !(e.within (bsEntry o))
    let full := 64 ≤ kept.length + s.bsRunning T
    let n := crW o.rcd 14
    let first := if crType o.rcd = 2 then min n (crW o.rcd 13) else 0
    let ops : List EngOp :=
      if crType o.rcd = 2 then
        { o with nexts := (List.range n).map fun st => st + n } ::
          (List.range first).map fun i => o.iteration (s.nextId + i) i o.clock
      else if crType o.rcd = 3 ∧ full then [{ o with code := 0x0012 }]
      else [o]
    (4 ≤ running → exec (.engineRecordStart c) s = .next s) ∧
    (running < 4 → ∃ t, exec (.engineRecordStart c) s = .next t ∧
      t = { s with cores := t.cores, nextId := s.nextId + first } ∧
      ∀ d, t.core d = { s.core d with
        engQ := if d = c then r else (s.core d).engQ
        engRun := if d = c then (s.core c).engRun ++ ops else (s.core d).engRun
        loadMap := if d = T ∧ crType o.rcd = 3 ∧ ¬ full then kept else (s.core d).loadMap })) ∧
  (∀ (s : State) (id c k k' : Nat) (o : EngOp) (gl gl' : Bool),
    let n := crW o.rcd 8
    let ks := span k n
    let kd := span k' n
    s.runOf id = some (c, o) → o.id = id → o.plan = none → o.wrote = false → o.code = 0 → crType o.rcd = 0 →
    (crCkind o.rcd ≠ 1 ∨ n ≤ lineLeft (crDst o.rcd).toNat) → s.Quiet → s.Alone → (s.core c).engRun = [o] → 0 < n →
    n ≤ pageLeft (crSrc o.rcd) → n ≤ pageLeft (crDst o.rcd) →
    engAcc s o.by_ .load (crSrc o.rcd) n = .ok ⟨gl, ks⟩ → engAcc s o.by_ .store (crDst o.rcd) n = .ok ⟨gl', kd⟩ →
    (∀ x ∈ ks ++ kd, isPeerKey x = false) → (∀ x ∈ ks, s.psn x = false) → o.framePsn = [] →
    ∃ t lo hi p, exec (.engineWritePerformed id) s = .next t ∧ lo < hi ∧ hi ≤ n ∧ hi ≤ lo + 64 ∧
      (∀ i, lo ≤ i → i < hi → t.byte (k' + i) = s.byte (k + i)) ∧
      (∀ x, (x < k' + lo ∨ k' + hi ≤ x) → t.byte x = s.byte x) ∧
      (t.core c).engRun = [{ o with plan := p, moved := o.moved + (hi - lo), wrote := decide (hi - lo = n) }] ∧
      t = { s with cores := t.cores, mem := t.mem, poison := t.poison, wts := t.wts, pclk := t.pclk } ∧
      ∀ d, { t.core d with engRun := [] } = { s.core d with engRun := [] }) ∧
  (∀ (s : State) (id m x l k k' : Nat) (o : RidOp), let i := m / o.perElem
    s.runOf id = none → s.riddle = [o] → o.id = id → o.kind = .gather →
    o.todo = [m] → o.pages = [] → s.Quiet → s.Alone → o.page s (o.elemAddr s i) = none →
    o.elem s i = .ok (span k o.esz) → (o.pieces (o.elemAddr s i))[m % o.perElem]? = some (x, l) → x + l ≤ o.esz →
    o.locKeys s (i * o.esz + x) l = span k' l →
    (∀ y ∈ span k o.esz ++ span k' l, isPeerKey y = false) → (∀ y ∈ span k o.esz, s.psn y = false) →
    ∃ t, exec (.engineWritePerformed id) s = .next t ∧ (∀ j, j < l → t.byte (k' + j) = s.byte (k + x + j)) ∧
      (∀ y, y ∉ span k' l → t.byte y = s.byte y) ∧ t.riddle = [{ (o.latch s i) with todo := [], wrote := true }] ∧
      t = { s with mem := t.mem, poison := t.poison, riddle := t.riddle }) ∧
  (∀ (s : State) (id c : Nat) (o : EngOp) (L : Launch), (s.core c).engRun = [o] → o.id = id → o.wrote = true →
    o.sent = false → o.clock = none → o.of_ = none → s.fab.reqs = [] → (∀ h ∈ s.homeQ, h.op ≠ id) →
    s.launchOf o.by_.launch = some L → crType o.rcd ≠ 2 → crType o.rcd ≠ 3 →
    let left (t : State) : Prop :=
      (∀ d, t.core d = if d = c then { s.core c with engRun := [] } else s.core d) ∧
        t.launchOf o.by_.launch = some { L with ops := L.ops - 1 }
    (crCkind o.rcd = 0 → ∃ t, exec (.engineOpComplete c id) s = .next t ∧ left t ∧
      t = { s with cores := t.cores, disp := t.disp }) ∧
    (∀ acc, crCkind o.rcd = 2 → o.code = 0 → s.Quiet → s.Alone → s.RoomForTag →
      cntAcc s (hwWho o.by_.ctx) .cntAdd (crDone o.rcd) = .ok acc →
      let k := acc.place.key
      let n := if crCadd o.rcd = 0 then crBytes o.rcd o.frame else crCadd o.rcd
      (∀ j ∈ span k 16, isPeerKey j = false ∧ s.psn j = false) →
      ∃ t, exec (.engineOpComplete c id) s = .next t ∧ left t ∧
        t.num (span k 8) = (s.num (span k 8) + n % 2 ^ 64) % 2 ^ 64 ∧ (∀ j, j ∉ span k 8 → t.byte j = s.byte j) ∧
        t = { s with
          cores := t.cores, disp := t.disp, mem := t.mem, poison := t.poison, wts := t.wts, pclk := t.pclk
          fab := { s.fab with seqn := t.fab.seqn, filter := t.fab.filter } })) ∧
  (∀ (s : State) (id c : Nat) (o : EngOp), (s.core c).engRun = [o] → o.id = id → crType o.rcd = 2 → o.of_ = none →
    let N := crW o.rcd 13
    let flips (st : Nat) (b : Bool) : Prop :=
      st < o.nexts.length ∧ o.nexts.getD st N < N ∧ s.emptyRound o st = some b ∧ b ≠ o.rounds.getD st false
    ((∀ st b, ¬ flips st b) → exec (.loopRefill c id) s = .next s) ∧
    (∀ st b, flips st b → (∀ st' b', flips st' b' → st' = st) → ∃ t, exec (.loopRefill c id) s = .next t ∧
      t = { s with cores := t.cores, nextId := s.nextId + 1 } ∧
      ∀ d, t.core d = if d = c then
          { s.core c with engRun := [
              { o with rounds := o.rounds.set st b, nexts := o.nexts.set st (o.nexts.getD st N + crW o.rcd 14) },
              o.iteration s.nextId (o.nexts.getD st N) o.clock] }
        else s.core d)) ∧
  (∀ (s : State) (id k : Nat) (o : RidOp) (L : Launch), s.riddle = [o] → o.id = id → o.wrote = true → o.clock = none →
    o.sent = false → (∀ h ∈ s.homeQ, h.op ≠ id) → s.fab.reqs = [] → o.kind ≠ .mcst → o.nobm = true → o.done = .tok k → s.g.live = true → o.by_.gid = s.g.gid →
    s.launchOf o.by_.launch = some L →
    ∃ t, exec (.riddleOpComplete id) s = .next t ∧ t.riddle = [] ∧
      t.launchOf o.by_.launch = some { L with ops := L.ops - 1 } ∧
      t = { s with g := t.g, riddle := [], disp := t.disp } ∧ t.g = { s.g with k := t.g.k } ∧
      (∀ j, j ≠ k → t.g.kGet j = s.g.kGet j) ∧ (t.g.kGet k).pending = false ∧
      (t.g.kGet k).kind = (s.g.kGet k).kind ∧
      (t.g.kGet k).code = (if o.faults ≠ [] then 0x13 else if o.psn then 0x11 else 0) ∧
      (t.g.kGet k).count = BitVec.ofNat 32 o.faults.length) ∧
  (∀ (s : State) (d x : Nat) (r : SecReq) (l : List SecReq), (s.damper d).queue = r :: l → (s.damper d).refusal = [] →
    (s.damper d).retry = [] → s.freeContext d = some x → s.lockHeld d r.lock = false → r.args.length ≤ 6 →
    ((s.ctx r.sender.ctx).exists_ = false → r.far = false → s.g.live = true → s.g.gid = r.sender.gid → s.g.pend = [] →
      let T := s.g.kGet r.sender.k
      T.pending = true → T.kind = .sect →
      ∃ t, exec (.sectionStart d) s = .next t ∧ t.parked = s.parked ∧ (t.damper d).queue = l ∧
        t = { s with g := t.g, dampers := t.dampers, disp := t.disp } ∧
        t.g.kGet r.sender.k = { T with
          left := T.left - 1, pending := decide (1 < T.left), code := 0x15, count := T.count + 1 }) ∧
    ((s.ctx r.sender.ctx).exists_ = true → ∃ t g, exec (.sectionStart d) s = .next t ∧ t.parked = s.parked ++ [g] ∧ (t.damper d).queue = l ∧
      t = { s with parked := t.parked, dampers := t.dampers, nextId := s.nextId + 1 } ∧
      g.unit = .damper d x ∧ g.gid = s.nextId ∧ g.live = true ∧ g.ctx = r.sender.ctx ∧ g.n0 = 1 ∧ g.pc = r.entry ∧
      g.atEntry = true ∧ g.gts = s.pclk ∧ g.sec = some r ∧ (∀ m, g.mGet m = if m = 0 then 1 else 0) ∧
      (∀ v, g.vGet v 0 = if v = 0 then r.lock else if v.val ≤ r.args.length then r.args.getD (v.val - 1) 0 else 0) ∧
      (∀ a, g.sGet a = if a = 1 then r.sender.gidx.setWidth 64 else if a = 2 then BitVec.ofNat 64 r.sender.thread
        else if a = 3 then BitVec.ofNat 64 r.sender.dev else 0))) ∧
  (∀ (s : State) (p : Nat), let A := s.arr p
    A.freezing = false →
    (s.pairSignalled p = false ∨ A.stream = none → exec (.arrayFreeze p) s = .next s) ∧
    (∀ m, s.pairSignalled p = true → A.stream = some m →
      ∃ t, exec (.arrayFreeze p) s = .next t ∧ t = { s with arrays := t.arrays } ∧ (∀ q, q ≠ p → t.arr q = s.arr q) ∧
        (A.frozen = true ∨ m.K ≤ A.kdone → t.arr p = A) ∧
        (A.frozen = false → A.kdone < m.K → m.K ≤ A.kdone + m.step → (t.arr p).frozen = false ∧ (t.arr p).kdone = m.K) ∧
        (A.frozen = false → A.kdone + m.step < m.K → ∃ m' r,
          t.arr p = { A with
            stream := some m', kdone := A.kdone + m.step, frozen := true, manual := A.manual, freezing := false, res := r } ∧
          m'.p = m.p ∧ m'.aframe = m.aframe ∧ m'.bframe = m.bframe))) ∧
  (∀ (s : State) (c : Nat), let X := s.core c
    let A := s.arr (c / 2)
    let turns (t : State) (y : Core) : Prop := ∀ d, t.core d = if d = c then y else s.core d
    let puts (i : Instr) (y : Core) : Prop := ∃ t, exec i s = .next t ∧ t = { s with cores := t.cores } ∧ turns t y
    (X.power = .active → s.residents c = [] → X.engQ = [] → X.engRun = [] → (∀ r ∈ s.riddle, r.core ≠ c) →
      A.stream = none → A.conv = none → X.narrow = [] → puts (.powerGateEntry c) { X with power := .entering }) ∧
    (X.power = .entering →
      (∃ t, exec (.powerGateOff c) s = .next t ∧ turns t { X with power := .gated, l1 := [], missQ := [] } ∧
        t = { s with cores := t.cores, arrays := t.arrays, draws := s.draws + 1 } ∧
        (∀ q, q ≠ c / 2 → t.arr q = s.arr q) ∧
        ∀ k, k < 65536 → if k % 256 / 128 = c % 2 then tblGet false (t.arr (c / 2)).accPsn k = false
          else tblGet 0 (t.arr (c / 2)).acc k = tblGet 0 A.acc k ∧
            tblGet false (t.arr (c / 2)).accPsn k = tblGet false A.accPsn k) ∧
      puts (.coreWake c) { X with power := .active }) ∧
    (X.power = .gated → puts (.coreWake c) { X with power := .waking }) ∧
    (X.power = .waking → puts (.wakeExitDone c) { X with power := .active }))

/-- The dispatcher's events (09 R197 to R211, 08 R185 to R189), on a quiet device that no peer concerns. The decision is
stated for one valid slot and no reservation (no packet marked); the task clauses for one idle group of the launch. -/
def Obligations.DispatchEvents : Prop :=
  (∀ (s : State) (j : Nat) (h : Head), s.Quiet → s.Alone → s.slotOrder = [j] → s.disp.marks = [] →
    s.slotHead [] j = .head h → h.devl = false → s.headWants h = none →
    let X := s.slot j
    let moves (t : State) : Prop := t.rqRptr X.qdesc = h.index + 1 ∧ t.slot j = X ∧
      t.disp.slotPtr = (j + 1) % 64 ∧ t.g = s.g ∧ t.hif.hostMem = s.hif.hostMem
    (∀ code detail, s.headCheck h = some (code, detail) → (∀ b, h.b = some b → pkDone b = 0) →
      ∃ t r, exec .dispatchDecision s = .next t ∧ moves t ∧ t.hif.records = s.hif.records ++ [r] ∧
        r.words.getD 2 0 = BitVec.ofNat 64 code ∧ r.words.getD 1 0 = h.index ∧ t.disp.launches = s.disp.launches ∧
        t.ctxs = s.ctxs) ∧
    (∀ b, h.b = some b → s.headCheck h = none →
      (pk b 0 1 = 2 → pkDone b = 0 → ∃ t, exec .dispatchDecision s = .next t ∧ moves t ∧
        t.hif = s.hif ∧ t.disp.launches = s.disp.launches ∧
        ∀ c, t.ctx c = if c = h.ctx then { s.ctx c with ev := ((s.ctx c).ev &&& ~~~(pkClr b)) ||| pkSet b }
          else s.ctx c) ∧
      (pk b 0 1 = 1 → s.headFits h b = false → (s.ctx h.ctx).devList = [] →
        let add (l : List (Bool × Nat)) := if l.contains (false, h.queue) then l else l ++ [(false, h.queue)]
        exec .dispatchDecision s = .next { s with disp := { s.disp with
          judged := add s.disp.judged, skips := add s.disp.skips, slotPtr := (j + 1) % 64 } }) ∧
      (pk b 0 1 = 1 → s.headFits h b = true →
        ∃ t L gs, exec .dispatchDecision s = .next t ∧ moves t ∧ t.disp.launches = s.disp.launches ++ [L] ∧
          L.id = s.nextId ∧ L.ctx = h.ctx ∧ L.done = pkDone b ∧ L.set = pkSet b ∧ L.ops = 0 ∧ t.parked = s.parked ++ gs ∧
          gs.length = (spotsOf s.sys.fuse (s.shareOf b) ((pkLevels b).getD [])).length ∧
          ∀ g ∈ gs, g.live = true ∧ g.launch = s.nextId ∧ g.ctx = h.ctx ∧ g.pc = BitVec.ofNat 64 (pk b 8 8) ∧
            g.atEntry = true ∧ g.nv = pkNv b ∧ g.handler = false ∧ g.retired = 0 ∧ g.gts = s.pclk ∧
            (∀ r, g.sGet r = if r = 1 then BitVec.ofNat 64 (pk b 16 8) else 0) ∧
            (∀ r, g.mGet r = if r = 0 then g.present else 0) ∧ (∀ r th, g.vGet r th = 0)))) ∧
  (∀ (s : State) (j : Nat), let X := s.slot j
    let freed := s.setSlot j { X with valid := false, unacked := true }
    let gone (n : Bool × Nat) : Bool :=
      n == (false, X.queue.toNat) || (n == (true, X.ctx.toNat) && (freed.bestSlot X.ctx.toNat).isNone)
    let unbound : State := { freed with disp := { freed.disp with
      skips := s.disp.skips.filter (fun n => !gone n), marks := s.disp.marks.filter (fun n => !gone n) } }
    (∀ a n b, s.disp.skips = a ++ n :: b → n ∉ s.disp.marks → s.nameSlot n = some j →
      (∀ m ∈ a, m ∈ s.disp.marks ∨ s.nameSlot m ≠ some j) →
      exec (.packetReservation j) s = .next { s with disp := { s.disp with marks := s.disp.marks ++ [n] } }) ∧
    ((∀ m ∈ s.disp.skips, m ∈ s.disp.marks ∨ s.nameSlot m ≠ some j) → exec (.packetReservation j) s = .next s) ∧
    (X.valid = true → exec (.slotUnbind j) s = .next unbound) ∧
    (X.valid = false → exec (.slotUnbind j) s = .next s) ∧
    exec (.unbindAck j) s = .next (s.setSlot j { X with unacked := false }) ∧
    (X.valid = true → X.slice ≠ 0 → (∃ q ∈ s.readyQueues, X.prio.toNat ≤ s.queuePrio q) →
      exec (.sliceExpiry j) s = .next unbound) ∧
    (X.valid = false ∨ X.slice = 0 ∨ (∀ q ∈ s.readyQueues, s.queuePrio q < X.prio.toNat) →
      exec (.sliceExpiry j) s = .next s) ∧
    (X.valid = true → s.queueBusy X.queue.toNat = false → exec (.queueIdleTimeout j) s = .next unbound) ∧
    (X.valid = false ∨ s.queueBusy X.queue.toNat = true → exec (.queueIdleTimeout j) s = .next s) ∧
    (∀ q d, s.nextQueue = some q → s.queueDesc q = some d → j < 64 → X.valid = false → X.unacked = false →
      ∃ t, exec (.slotBind j) s = .next t ∧ (∀ i, i ≠ j → t.slot i = s.slot i) ∧
        (let Y := t.slot j
         let c := s.queueCtx q
         Y.valid = true ∧ Y.queue = BitVec.ofNat 14 q ∧ Y.ctx = BitVec.ofNat 10 c ∧ Y.qdesc = d ∧
           Y.prio = BitVec.ofNat 2 (s.queuePrio q) ∧ Y.ptroot = (s.ctx c).ptroot) ∧
        t.disp.queuePtr = (q + 1) % 16384 ∧ t = { s with disp := t.disp, ctxs := t.ctxs, draws := t.draws })) ∧
  (∀ (s : State) (q : Nat), ∃ t, exec (.stokerReadyClear q) s = .next t ∧
    (∀ i, tblGet false t.disp.ready i = if i = q then s.queueBusy q else tblGet false s.disp.ready i) ∧
    t = { s with disp := { s.disp with ready := t.disp.ready } }) ∧
  (∀ (s : State) (c : Nat) (h : Head) (b : List Byte), s.nextLaunch s.slotOrder = some (h, b) →
    (takenCores s.sys.fuse (pkShared b)
      (launchCores s.sys.fuse (spotsOf s.sys.fuse (s.shareOf b) ((pkLevels b).getD [])))).contains c = true →
    s.residents c = [] →
    ((s.core c).ctx = some h.ctx → exec (.contextSwitchClear c) s = .next s) ∧
    ((s.core c).ctx ≠ some h.ctx → ∃ t, exec (.contextSwitchClear c) s = .next t ∧
      (∀ o, o < 786432 → t.byte (keyCore c o) = memDefault ∧ t.psn (keyCore c o) = false) ∧
      (∀ k, k < keyCore 0 0 → t.byte k = s.byte k) ∧
      (∀ d, t.core d = if d = c then { s.core c with ctx := some h.ctx, bankQ := [], loadMap := [] } else s.core d) ∧
      t = { s with mem := t.mem, poison := t.poison, cores := t.cores })) ∧
  (∀ (s : State) (n : Nat) (L : Launch), s.launchOf n = some L → s.homeQ = [] → L.done = 0 →
    (s.launchOver L = false → exec (.launchComplete n) s = .next s) ∧
    (s.launchOver L = true → ∃ t, exec (.launchComplete n) s = .next t ∧
      t.disp.launches = dropFirst (fun l => l.id == n) s.disp.launches ∧
      (∀ c, t.ctx c = if c = L.ctx then { s.ctx c with ev := (s.ctx c).ev ||| L.set } else s.ctx c) ∧
      t = { s with ctxs := t.ctxs, disp := t.disp })) ∧
  (∀ (s : State) (c : Nat), s.homeQ = [] →
    ((s.ctx c).busy = false → exec (.contextMarkDead c) s = .next s) ∧
    ((s.ctx c).busy = true → s.disp.queues = [] → (s.ctx c).devList = [] → (∀ l ∈ s.disp.launches, l.ctx ≠ c) →
      s.sectionsOf c = [] → ∃ t, exec (.contextMarkDead c) s = .next t ∧ (∀ d, t.ctx d = if d = c then {} else s.ctx d) ∧
        (∀ e ∈ t.tlb, e.ctx ≠ c) ∧ (∀ e ∈ t.walks, e.ctx ≠ c) ∧ t.hif.busy = false ∧ t.hif.status = 0 ∧
        (∀ d, t.core d = if (s.core d).ctx = some c then { s.core d with ctx := none } else s.core d) ∧
        t = { s with ctxs := t.ctxs, cores := t.cores, tlb := t.tlb, walks := t.walks, hif := t.hif })) ∧
  (∀ (s : State) (n : Nat) (L : Launch) (ks : List Nat) (k : Nat), s.launchOf n = some L → L.task = true → s.Quiet →
    s.Alone → s.launchTq L = .keys ks → ks = span k 64 → isPeerKey k = false → isPeerKey (k + 63) = false →
    (∀ rk r, s.idlers n = [s.g] → s.g.live = true → s.g.handler = false →
      (s.tqWord ks 16).toNat < (s.tqWord ks 32).toNat →
      hwKeys s L.ctx .load (s.tqSlot ks (s.tqWord ks 16)) 64 = some rk → (∀ x ∈ rk, isPeerKey x = false) →
      (∀ x ∈ rk, s.psn x = false) → r = s.bytes rk → taskFail r = none →
      let w (o : Nat) : W64 := BitVec.ofNat 64 (pk r o 8)
      ∃ t, exec (.taskDispatch n) s = .next t ∧ t.tqWord ks 16 = s.tqWord ks 16 + 1 ∧
        t.g.task = .running (s.tqSlot ks (s.tqWord ks 16)) (w 24) (w 32) (w 40) ∧ t.g.pc = w 0 ∧ t.g.atEntry = true ∧
        t.g.sGet 1 = w 8 ∧ t.g.sGet 3 = s.tqSlot ks (s.tqWord ks 16) ∧ t.g.mGet 0 = s.g.present ∧
        (∀ a, a ≠ 1 → a ≠ 2 → a ≠ 3 → t.g.sGet a = s.g.sGet a) ∧
        (∀ v th, t.g.vGet v th = if pk r 48 1 % 2 = 1 then 0 else s.g.vGet v th) ∧ (∀ f, t.g.fGet f = 0)) ∧
    (∀ m, findFirst (fun e : W64 × W64 => decide (e.1 = s.tqWord ks 32)) L.commits = some (s.tqWord ks 32, m) →
      ∃ t, exec (.taskCommit n) s = .next t ∧ t.tqWord ks 32 = s.tqWord ks 32 + m ∧ t.g = s.g ∧
        (∀ x, (x < k + 32 ∨ k + 40 ≤ x) → t.byte x = s.byte x) ∧
        (t.launchOf n).map (·.commits) =
          some (dropFirst (fun e => decide (e = (s.tqWord ks 32, m))) L.commits)) ∧
    (L.ended = false → L.commits = [] → s.everyGroup = [s.g] → s.g.launch = n → s.g.task = .idle → s.g.preempting = false →
      (∀ p, (s.arr p).holder ≠ some s.g.gid) → s.tqWord ks 16 = s.tqWord ks 32 → s.tqWord ks 24 = s.tqWord ks 32 →
      ∃ t, exec (.taskLaunchEnd n) s = .next t ∧ (t.launchOf n).map (·.ended) = some true ∧ t.everyGroup = [] ∧
        ∀ x, x < regionBase 1 → t.byte x = s.byte x))

/-- Mailbox commands (17 R396 and the rules of each command). `arg` reads the submitted command's bytes. The clauses of
RESOLVE are about the group that the state holds as its current one. -/
def Obligations.MailboxCommands : Prop :=
  (∀ s : State, ∀ e ∈ [(0x01, Instr.setId), (0x02, .ctxCreate), (0x03, .ctxTeardown), (0x04, .queueReg), (0x05, .queueUnreg),
      (0x06, .shootdown), (0x07, .resolveResume), (0x07, .resolveSkip), (0x07, .resolveTerminate), (0x07, .resolveAbort),
      (0x08, .migrate), (0x09, .routeWrite), (0x0A, .groupWrite), (0x0B, .hcopyToHost), (0x0B, .hcopyToDevice),
      (0x0C, .stubFree), (0x0D, .nbrRead), (0x0E, .migAbort), (0x0F, .linkRetrain), (0x10, .groupDrain)],
    ¬ s.HasCommand e.1 → exec e.2 s = .next s) ∧
  (∀ s : State, ¬ (1 ≤ s.hif.code ∧ s.hif.code ≤ 0x10) → s.HasCommand s.hif.code →
    s.EndsAs (exec .mboxBadCode s) 1) ∧
  (∀ s : State,
    let arg (off n : Nat) : Nat := s.hif.arg off n
    let ok (t : State) : Prop := t.hif = s.hif.ended 0
    let begun : Hif := { s.hif with pending := false }
    (s.HasCommand 0x01 → (s.fab.trained = true → s.EndsAs (exec .setId s) 2) ∧
      (s.fab.trained = false → exec .setId s =
        .next { s with fab := { s.fab with devId := some (arg 8 2 % 1024) }, hif := s.hif.ended 0 })) ∧
    (s.HasCommand 0x02 → let c := arg 8 2 % 1024
      let base := field (arg 24 4) 0 10
      let size := field (arg 24 4) 16 10
      let bad : Prop := s.hif.ringOk = false ∨ 512 < base + size ∨ ∃ e ∈ s.ctxs, e.2.exists_ = true ∧ 0 < size ∧
        0 < e.2.gsize ∧ base < e.2.gbase + e.2.gsize ∧ e.2.gbase < base + size
      ((s.ctx c).busy = true → s.EndsAs (exec .ctxCreate s) 2) ∧
      ((s.ctx c).busy = false → (s.ctx c).exists_ = true → s.EndsAs (exec .ctxCreate s) 1) ∧
      ((s.ctx c).busy = false → (s.ctx c).exists_ = false → bad → s.EndsAs (exec .ctxCreate s) 3) ∧
      ((s.ctx c).busy = false → (s.ctx c).exists_ = false → ¬ bad → ∃ t, exec .ctxCreate s = .next t ∧ ok t ∧
        (∀ d, t.ctx d = if d = c then
            { exists_ := true, ptroot := BitVec.ofNat 64 (arg 16 8), gbase := base, gsize := size }
          else s.ctx d) ∧
        t = { s with ctxs := t.ctxs, hif := t.hif })) ∧
    (s.HasCommand 0x03 → let c := arg 8 2 % 1024
      ((s.ctx c).exists_ = false → s.EndsAs (exec .ctxTeardown s) 1) ∧
      ((s.ctx c).exists_ = true → (s.ctx c).busy = true → s.EndsAs (exec .ctxTeardown s) 2) ∧
      ((s.ctx c).exists_ = true → (s.ctx c).busy = false → (∀ e ∈ s.cores, e.2.engRun = [] ∧ e.2.engQ = []) →
        s.riddle = [] → s.dampers = [] → s.homeQ = [] → (∀ g ∈ s.groups, g.OnCore) → (s.ctx c).savedCores = [] →
        (s.everyGroup.map Group.gid).Nodup →
        ∃ t, exec .ctxTeardown s = .next t ∧ t.hif.busy = true ∧ t.hif.pending = false ∧ (t.ctx c).busy = true ∧
          (∀ g ∈ t.everyGroup, g.ctx ≠ c ∨ ∃ d, d ≠ c ∧ g ∈ (s.ctx d).saved) ∧ (t.ctx c).saved = [] ∧
          (∀ g ∈ s.groups, g.ctx ≠ c → g ∈ t.groups) ∧
          ∀ j, j < 64 → (t.slot j).valid = true → (t.slot j).ctx.toNat ≠ c)) ∧
    (s.HasCommand 0x04 → let q := arg 8 2 % 16384
      let d : W64 := BitVec.ofNat 64 (arg 16 8)
      ((s.queueDesc q).isSome = true ∨ s.queueBad d = true → s.EndsAs (exec .queueReg s) 1) ∧
      (s.queueDesc q = none → s.queueBad d = false → ∃ t, exec .queueReg s = .next t ∧ ok t ∧
        (∀ i, t.queueDesc i = if i = q then some d else s.queueDesc i) ∧
        t = { s with disp := { s.disp with queues := t.disp.queues }, hif := t.hif })) ∧
    (s.HasCommand 0x05 → let q := arg 8 2 % 16384
      (s.queueDesc q = none → s.EndsAs (exec .queueUnreg s) 1) ∧
      (∀ d, s.queueDesc q = some d → ∃ t, exec .queueUnreg s = .next t ∧ ok t ∧ t.queueDesc q = none ∧
        tblGet false t.disp.ready q = false ∧ t = { s with disp := t.disp, hif := t.hif } ∧
        ∀ j, j < 64 → t.slot j = if (s.slot j).valid = true ∧ (s.slot j).queue.toNat = q then
            { s.slot j with valid := false, unacked := true }
          else s.slot j)) ∧
    (s.HasCommand 0x06 → let c := arg 8 2 % 1024
      ((s.ctx c).exists_ = false → s.EndsAs (exec .shootdown s) 1) ∧
      ((s.ctx c).exists_ = true → exec .shootdown s = .next { s with
        hif := begun
        invals := s.invals ++ [{ ctx := c, lo := arg 16 8 % 2 ^ 53, len := arg 24 8, mbox := true }] })) ∧
    (s.HasCommand 0x07 → s.g.live = true → ∀ r, s.recOf (arg 8 8) = some r → r.gid = s.g.gid → s.g.suspended.isSome = true →
      let resumed (o : Out) : Prop := ∃ t, o = .next t ∧ t.g.suspended = none ∧ t.g.pc = s.g.trapPc ∧
        (s.g.OnCore → t.g.handler = false ∧ t.g.ufwd = (s.g.handler && s.g.ufwd) ∧
          ∀ m, t.g.mGet m = if m = 0 then s.g.trapMask.setWidth 32 &&& s.g.present else s.g.mGet m) ∧
        t.hif = { s.hif.ended 0 with log := s.hif.log.filter fun x => x.index != r.index } ∧
        t = { s with g := t.g, hif := t.hif } ∧ t.g.s = s.g.s ∧ t.g.v = s.g.v
      (arg 16 1 % 4 = 0 → (r.resumable = true → resumed (exec .resolveResume s)) ∧
        (r.resumable = false → s.EndsAs (exec .resolveResume s) 1)) ∧
      (arg 16 1 % 4 = 1 → (r.src = 0 → r.isNext = true → resumed (exec .resolveSkip s)) ∧
        (r.src ≠ 0 ∨ r.isNext = false → s.EndsAs (exec .resolveSkip s) 1)) ∧
      (arg 16 1 % 4 = 2 → (s.ctx r.ctx).exists_ = true → (s.ctx r.ctx).busy = false →
        ∃ t, exec .resolveTerminate s = .next t ∧ (t.ctx r.ctx).busy = true ∧ t.hif.busy = true ∧ t.hif.pending = false) ∧
      (arg 16 1 % 4 = 3 → (r.src ≠ 1 → s.EndsAs (exec .resolveAbort s) 1) ∧
        (∀ x, r.src = 1 → s.g.isSection = true → (∀ h ∈ s.parked, h.gid ≠ s.g.gid) →
          s.g.sec = some x → x.far = true → s.Quiet → s.Alone → s.g.priv = [] → s.g.fences = [] →
          ∃ t, exec .resolveAbort s = .next t ∧ t.findGid s.g.gid = none ∧ t.hif.busy = false ∧ t.hif.status = 0))) ∧
    (s.HasCommand 0x08 → let c := arg 8 2 % 1024
      let a : W64 := BitVec.ofNat 64 (arg 16 8)
      let owner := arg 24 2 % 1024
      (s.migStatus c a owner ≠ 0 → s.EndsAs (exec .migrate s) (s.migStatus c a owner)) ∧
      (∀ e l, s.migStatus c a owner = 0 → walkEntry s 4 0 (s.ctx c).ptroot.toNat (a.toNat % 2 ^ 53) = some (e, l) →
        ∃ t m, exec .migrate s = .next t ∧ t.own.migs = s.own.migs ++ [m] ∧ m.page = pageName a l.big ∧ m.ctx = c ∧
          m.owner = owner ∧ m.frame = BitVec.ofNat 64 (arg 32 8) ∧ m.step = 0 ∧ 0 < m.waiting ∧
          t.hif = begun ∧ (∀ k, t.byte k = s.byte k) ∧ t.g = s.g)) ∧
    (s.HasCommand 0x09 → let d := arg 8 2 % 1024
      let e := arg 12 4
      (s.routeBad d e = true → s.EndsAs (exec .routeWrite s) 1) ∧
      (s.routeBad d e = false → ∃ t, exec .routeWrite s = .next t ∧ ok t ∧ t = { s with fab := t.fab, hif := t.hif } ∧
        ∀ i, t.routeOf i = if i = d then
            { port := BitVec.ofNat 4 e, hops := BitVec.ofNat 3 (e / 16), v := e / 128 % 2 == 1 }
          else s.routeOf i)) ∧
    (s.HasCommand 0x0A → let n := arg 8 2 % 4096
      let b := (from_ 16 32).map fun k => tblGet 0 s.hif.sub k
      let o := s.mgroup n
      let e := mgroupOf b
      (s.groupStatus n b ≠ 0 → s.EndsAs (exec .groupWrite s) (s.groupStatus n b)) ∧
      (s.groupStatus n b = 0 → ∃ t, exec .groupWrite s = .next t ∧ ok t ∧
        t = { s with fab := { s.fab with groups := t.fab.groups }, hif := t.hif } ∧
        ∀ i, t.mgroup i = if i ≠ n then s.mgroup i
          else if o.v = true ∧ e.v = true ∧ e.ver ≠ o.ver then
            { e with ov := true, oldVer := o.ver, oports := o.ports, oloc := o.loc }
          else e)) ∧
    (∀ toHost : Bool, s.HasCommand 0x0B → arg 32 1 % 2 = (if toHost then 1 else 0) →
      let x := exec (if toHost then .hcopyToHost else .hcopyToDevice) s
      let dev : W64 := BitVec.ofNat 64 (arg 16 8)
      let cx := s.hostCtx (if toHost then .load else .store) dev (arg 24 8)
      (cx = none → s.EndsAs x 1) ∧
      (∀ c, cx = some c → x = .next { s with hif := { s.hif.ended 0 with
        hcopies := s.hif.hcopies ++
          [{ host := BitVec.ofNat 64 (arg 8 8), dev := dev, len := arg 24 8, toHost := toHost
             counter := BitVec.ofNat 64 (arg 40 8), ctx := c }] } })) ∧
    (s.HasCommand 0x0C → let a : W64 := BitVec.ofNat 64 (arg 8 8)
      ((∀ x ∈ s.own.stubs, onPage x.page a = false) → s.EndsAs (exec .stubFree s) 1) ∧
      ((∃ x ∈ s.own.stubs, onPage x.page a = true) → exec .stubFree s = .next { s with
        own := { s.own with stubs := s.own.stubs.filter fun x => !onPage x.page a }, hif := s.hif.ended 0 })) ∧
    (s.HasCommand 0x0D → ∃ t, exec .nbrRead s = .next t ∧ t = { s with hif := t.hif } ∧
      t.hif = { s.hif.ended 0 with hostMem := t.hif.hostMem } ∧
      (∀ n, n < 12 → leNat ((span (arg 8 8 + 4 * n) 4).map (tblGet 0 t.hif.hostMem)) =
        (match (s.flink n).nbr with
         | some e => e.1 % 1024 + 2 ^ 10 * (e.2 % 16) + 2 ^ 15
         | none => 0)) ∧
      ∀ k, (k < arg 8 8 ∨ arg 8 8 + 48 ≤ k) → tblGet 0 t.hif.hostMem k = tblGet 0 s.hif.hostMem k) ∧
    (s.HasCommand 0x0E → let c := arg 8 2 % 1024
      let a : W64 := BitVec.ofNat 64 (arg 16 8)
      let found := findFirst (fun m : Mig => m.ctx == c && onPage m.page a) s.own.migs
      (found = none → s.EndsAs (exec .migAbort s) 1) ∧
      (∀ m, found = some m → 3 ≤ m.step → s.EndsAs (exec .migAbort s) 0x18) ∧
      (∀ m, found = some m → m.step < 3 → s.own.held = [] → s.dampers = [] → ∃ t, exec .migAbort s = .next t ∧
        t.own.migs = dropFirst (fun x => decide (x.page = m.page)) s.own.migs ∧ t.hif.busy = false ∧ t.hif.status = 0)) ∧
    (s.HasCommand 0x0F → let n := arg 8 1 % 16
      (12 ≤ n ∨ (s.flink n).st = .absent → s.EndsAs (exec .linkRetrain s) 1) ∧
      (n < 12 → (s.flink n).st ≠ .absent → ∃ t, exec .linkRetrain s = .next t ∧ t.hif = begun ∧
        (t.flink n).retraining = true ∧ (t.flink n).byHost = true ∧ (∀ i, i ≠ n → t.flink i = s.flink i) ∧
        ((s.flink n).up = false ∨ (s.flink n).nbr = none →
          t = { s with fab := { s.fab with links := t.fab.links }, hif := t.hif } ∧
          t.flink n = { s.flink n with retraining := true, byHost := true }) ∧
        (∀ e, (s.flink n).up = true → (s.flink n).nbr = some e → ∃ r : Req, t.fab.reqs = s.fab.reqs ++ [r] ∧
          r.use = .mgmt 10 0 ∧ r.pkt.typ = 0x30 ∧ r.pkt.dst = BitVec.ofNat 10 e.1 ∧
          t = { s with fab := { s.fab with links := t.fab.links, seqn := s.fab.seqn + 1, reqs := t.fab.reqs }
                       hif := t.hif }))) ∧
    (s.HasCommand 0x10 → let n := arg 8 2 % 4096
      let e := s.mgroup n
      let out := s.fab.mcasts.any fun m => m.group == n && decide (m.ver = e.oldVer)
      (e.v = false ∨ e.root.toNat ≠ s.myId → s.EndsAs (exec .groupDrain s) 1) ∧
      (e.v = true → e.root.toNat = s.myId → e.ov = false ∨ out = false → s.EndsAs (exec .groupDrain s) 0) ∧
      (e.v = true → e.root.toNat = s.myId → e.ov = true → out = true → exec .groupDrain s = .next s))) ∧
  (∀ (s : State) (i k : Nat) (x : HCopy), s.hif.hcopies[i]? = some x → x.counter = 0 → s.Quiet → s.Alone →
    hwKeys s x.ctx (if x.toHost then .load else .store) x.dev x.len = some (span k x.len) →
    (∀ y ∈ span k x.len, isPeerKey y = false ∧ s.psn y = false) →
    ∃ t, exec (.hcopyDone i) s = .next t ∧ t.hif = { s.hif with
        hcopies := s.hif.hcopies.eraseIdx i, hostMem := t.hif.hostMem } ∧
      (∀ j, j < x.len → if x.toHost then tblGet 0 t.hif.hostMem (x.host.toNat + j) = s.byte (k + j)
        else t.byte (k + j) = tblGet 0 s.hif.hostMem (x.host.toNat + j)) ∧
      (x.toHost = true → ∀ y, t.byte y = s.byte y) ∧
      (x.toHost = false → t.hif.hostMem = s.hif.hostMem ∧ ∀ y, y ∉ span k x.len → t.byte y = s.byte y))

/-- Events of the fabric (03 R58, 04 R80 to R91, 06 R126 to R130, 16 R369 to R372, 17 R377 to R390, 23 R446). -/
def Obligations.FabricEvents : Prop :=
  (∀ (s : State) (p : Packet), ∀ i ∈ [Instr.read p, .readx p, .write p, .atomicRequest p, .remoteWrite p],
    s.own.refused = [] → (∀ l, s.ownLeaf p.addr = some l → l.mig = true → s.own.held.length < 1024 →
      ∃ t, exec i s = .next t ∧ t.own.held = s.own.held ++ [p] ∧ t.fab = (s.take p).fab ∧
        t = { s with own := t.own, fab := t.fab }) ∧
    (s.ownLeaf p.addr = none → anchorOf p.addr ≠ s.myId → s.own.stubs = [] →
      ∃ t, exec i s = .next t ∧ Answers s t p (fun r => r.typ = 0x23 ∧ r.aux = 2) ∧ t = { s with fab := t.fab } ∧
        t.fab = { s.fab with outbox := t.fab.outbox })) ∧
  (∀ (s : State) (p : Packet) (l : Leaf), s.AtOwner p l →
    let line := lineKeys l p.addr
    let n := lineOf (line.headD 0)
    let odd := Config.freeSize (tagOf p) p.addr
    let isLine (r : Packet) : Prop := r.typ = 0x21 ∧ r.redir = p.relayed ∧ r.data = s.bytes line ∧
      r.psn = psnMarks 0 (line.map fun k => odd || s.psn k)
    (∃ u t, exec (.read p) s = .next t ∧ Answers s t p isLine ∧ OnlyAnswers s u ∧ AtSize u t p ∧ u.pclk = s.pclk ∧
      u.own = { s.own with reqSets := u.own.reqSets, sharers := tblSet [] [] n [(p.src.toNat, p.addr)] }) ∧
    (∃ u t, exec (.readx p) s = .next t ∧ Answers s t p isLine ∧ OnlyAnswers s u ∧ AtSize u t p ∧
      u.pclk = max s.pclk (s.rtsOf n + 1) ∧ u.own = { s.own with reqSets := u.own.reqSets, excl := [(n, (p.src.toNat, p.addr))] }) ∧
    (let k := leafKey l p.addr
    let byte (j : Nat) : Byte := p.data.getD j 0
    (∀ j, j < p.data.length → isPeerKey (k + j) = false) →
    (∃ u t, exec (.write p) s = .next t ∧ Answers s t p (fun r => r.typ = 0x22 ∧ r.redir = p.relayed) ∧ AtSize u t p ∧
      Stored s u k p.data.length fun j => if p.opnd.getLsbD j then byte j else s.byte (k + j)) ∧
    (∃ u t, exec (.remoteWrite p) s = .next t ∧ Answers s t p (fun r => r.typ = 0x22 ∧ r.redir = p.relayed) ∧
      AtSize u t p ∧ Stored s u k p.data.length byte)) ∧
    (let m := 64 * lineOf (line.headD 0);
      (∀ j, j < 64 → isPeerKey (m + j) = false) → (∀ g ∈ s.groups, ∀ x, g.block ≠ some (.peer x)) →
      ∃ u t, exec (.writeback p) s = .next t ∧ Answers s t p (fun r => r.typ = 0x22 ∧ r.redir = p.relayed) ∧ AtSize u t p ∧
        Stored s u m 64 fun j => if leNat (p.data.drop 64) / 2 ^ j % 2 = 1 then p.data.getD j 0 else s.byte (m + j)) ∧
    ((∀ v : FiltEnt, findFirst (fun e : FiltEnt => decide (e.tag = tagOf p)) s.fab.filter = some v →
        ∃ u t, exec (.atomicRequest p) s = .next t ∧ AtSize u t p ∧ OnlyAnswers s u ∧ u.pclk = s.pclk ∧
          Answers s t p (fun r => r.typ = 0x21 ∧ r.data = leBytes 8 v.val.toNat ∧ r.psn = if v.psn then 1 else 0)) ∧
      ((∀ e ∈ s.fab.filter, e.tag ≠ tagOf p) → s.filterFull (aluOf (leafKey l p.addr)) = false → p.data.getD 3 0 = 0 → p.data.getD 2 0 = 0 →
        let z : ASize := if p.data.getD 1 0 = 1 then .d else .w
        let n := asizeBytes z
        let ks := span (leafKey l p.addr) n
        let w := 2 ^ (8 * n)
        let old := s.num ks
        (∀ x ∈ ks, isPeerKey x = false ∧ s.psn x = false) →
        ∃ u t, exec (.atomicRequest p) s = .next t ∧ AtSize u t p ∧
          Answers s t p (fun r => r.typ = 0x21 ∧
            if odd then r.data = leBytes 8 0 ∧ r.psn = 1 else r.data = leBytes 8 old ∧ r.psn = 0) ∧
          u.fab.filter = s.fab.filter ++ [{ alu := aluOf (leafKey l p.addr), tag := tagOf p
                                            val := if odd then 0 else BitVec.ofNat 64 old, psn := odd }] ∧
          u.num ks = (if odd then old else (rmwNew (atomOfCode (p.data.getD 0 0).toNat) z old (p.opnd.toNat % w)
            ((p.opnd >>> 64).toNat % w)).getD old % w) ∧
          ∀ x, x ∉ ks → u.byte x = s.byte x))) ∧
  (∀ (s : State) (p : Packet),
    (isMarked p = true → s.own.held.length < 1024 → let d := markedOwner p
      ∃ t, exec (.inval p) s = .next t ∧ t.own.held = s.own.held ++ [p] ∧ t.fab = (s.take p).fab ∧
        (∀ e, e ∈ t.own.cache ↔ e ∈ s.own.cache ∧ ¬ (e.2.1 = p.addr ∧ e.2.2 = d)) ∧
        t = { s with own := t.own, fab := t.fab }) ∧
    (isMarked p = false → let n := p.addr.toNat / 64
      let l := tblGet {} s.own.peers n
      (l.wb = true → s.own.held.length < 1024 → ∃ t, exec (.inval p) s = .next t ∧ t.own.held = s.own.held ++ [p] ∧
        t.fab = (s.take p).fab ∧ t = { s with own := t.own, fab := t.fab }) ∧
      (l.wb = false → l.excl = false → ∃ t, exec (.inval p) s = .next t ∧
        Answers s t p (fun r => r.typ = 0x22 ∧ r.data = []) ∧
        tblGet {} t.own.peers n = { dirty := l.dirty, part := l.part } ∧
        (l.held = false → t.fab.reqs = s.fab.reqs.map fun r =>
          if r.use = .fill n ∧ r.sent = true then { r with again := true } else r) ∧
        ∀ j, (j < keyPeer (64 * n) ∨ keyPeer (64 * n) + 64 ≤ j) → t.byte j = s.byte j) ∧
      (l.wb = false → l.excl = true → s.own.pubs = [] → (∀ e ∈ s.cores, e.2.narrow = []) →
        ∃ t, exec (.inval p) s = .next t ∧ tblGet {} t.own.peers n = { part := l.part } ∧ Answers s t p fun r =>
          r.typ = 0x22 ∧ r.data = s.bytes (span (keyPeer (64 * n)) 64) ++ leBytes 8 l.dirty.toNat)) ∧
    (anchorOf p.addr ≠ s.myId → ∃ t, exec (.ownerq p) s = .next t ∧
      Answers s t p (fun r => r.typ = 0x23 ∧ r.aux = 2) ∧ t = { s with fab := t.fab }) ∧
    (anchorOf p.addr = s.myId → ∃ t, exec (.ownerq p) s = .next t ∧
      Answers s t p (fun r => r.typ = 0x21 ∧ r.data = leBytes 8 ((pageFind s.own.records p.addr).getD s.myId)) ∧
      t = { s with fab := t.fab }) ∧
    (∀ l, s.ownLeaf p.addr = some l → let d := s.homeDamper (shipHash p)
      let x := s.damper d
      s.own.refused = [] → x.closed = [] → x.queue.length < 4096 → x.refusal = [] →
      ∃ t, exec (.shipRequest p) s = .next t ∧ t = { s with dampers := t.dampers, own := t.own, fab := (s.take p).fab } ∧
        t.damper d = { x with queue := x.queue ++ [shipOf p] } ∧ ∀ e, e ≠ d → t.damper e = s.damper e) ∧
    (let e := s.mgroup (mcGroup p)
      ∀ k, e.root.toNat = s.myId ∨ p.aux = e.ver → s.fab.mcasts = [] → e.v = true → e.ports = 0 → e.loc = true →
      s.mcKeys e p = some (span k p.data.length) → (∀ j, j < p.data.length → isPeerKey (k + j) = false) → s.Quiet →
      s.Alone →
      ∃ t, exec (.mcast p) s = .next t ∧ (∀ j, j < p.data.length → t.byte (k + j) = p.data.getD j 0) ∧
        (∀ j, (j < k ∨ k + p.data.length ≤ j) → t.byte j = s.byte j) ∧ t.fab.mcasts = [] ∧
        Answers s t p fun r => r.typ = 0x24 ∧
          r.data = leBytes 16 (1 + 2 ^ 32 * 0xFFFF + 2 ^ 64 * e.ver.toNat))) ∧
  (∀ (s : State) (p : Packet),
    exec (.held p) s = .next (s.take p) ∧
    (s.reqOf (replyTag p) = none → ∀ i ∈ [Instr.data p, .migrationChain p, .notOwner p, .retry p, .unreachable p,
      .mack p, .sectionResult p], exec i s = .next (s.take p)) ∧
    (isAtomAck p = false → s.reqOf (replyTag p) = none → exec (.ack p) s = .next (s.take p)) ∧
    (isAtomAck p = true → s.fab.combine = [] → exec (.ack p) s = .next
      { s with fab := { (s.take p).fab with filter := s.fab.filter.filter fun e => decide (e.tag ≠ tagOf p) } }) ∧
    (∀ r, s.fab.reqs = [r] → r.tag = replyTag p → s.fab.combine = [] →
      (∀ page, r.use = .owner page → p.redir = false → s.pageBase page = page → r.pkt.typ = 7 → anchorOf page ≠ s.myId →
        let o := leNat (p.data.take 8) % 1024
        ∃ t, exec (.data p) s = .next t ∧ t.fab.reqs = [] ∧ (∀ x ∈ t.own.cache, x ∈ s.own.cache ∨ x.2 = (page, o)) ∧
          (∀ i d, i < 8 → ((i, (page, d)) ∈ t.own.cache ↔ d = o)) ∧ t.own = { s.own with cache := t.own.cache } ∧ t = { s with own := t.own, fab := t.fab }) ∧
      (∀ line, r.use = .fill line → p.redir = false → r.pkt.typ.toNat ≤ 2 → r.again = false → s.own.held = [] →
        let k := keyPeer (64 * line)
        let D := (tblGet {} s.own.peers line).dirty
        ∃ t, exec (.data p) s = .next t ∧ t.fab.reqs = [] ∧ t.fab.outbox = (s.take p).fab.outbox ∧
          tblGet {} t.own.peers line = { held := true, excl := decide (r.pkt.typ = 2), dirty := D, part := (tblGet {} s.own.peers line).part } ∧
          (∀ j, j < 64 → t.byte (k + j) = if D.getLsbD j then s.byte (k + j) else p.data.getD j 0) ∧
          (∀ x, (x < k ∨ k + 64 ≤ x) → t.byte x = s.byte x) ∧ s.rtsOf (lineOf k) < t.wtsOf (lineOf k) ∧
          t.wtsOf (lineOf k) ≤ t.pclk) ∧
      (∀ line, r.use = .fill line → p.redir = false → r.pkt.typ.toNat ≤ 2 → r.again = true →
        ∃ t q, exec (.data p) s = .next t ∧ t.fab.reqs = [q] ∧ q.use = .fill line ∧ q.again = false ∧
          t.fab.outbox = (s.take p).fab.outbox ++ [q.pkt] ∧ t.own = { s.own with cache := t.own.cache } ∧
          t = { s with own := t.own, fab := t.fab }) ∧
      (∀ line, isAtomAck p = false → p.redir = false → r.use = .inval line → s.own.pubs = [] →
        (∀ g ∈ s.groups, g.block ≠ some (.peer waitPage) ∧ g.block ≠ some (.peer (shareLine + line))) →
        ∃ t, exec (.ack p) s = .next t ∧ t.fab.reqs = [] ∧ t.fab.outbox = s.own.held ++ (s.take p).fab.outbox ∧
          t.own = { s.own with held := [] } ∧ t = { s with own := t.own, fab := t.fab }) ∧
      (anchorOf r.pkt.addr ≠ s.myId → (∀ page, r.use ≠ .owner page) → r.asked = false →
        ∀ e ∈ [(0, Instr.migrationChain p), (1, .notOwner p)],
        ∃ t q, exec e.2 s = .next t ∧ t.fab.outbox = (s.take p).fab.outbox ++ [q] ∧ q.typ = 7 ∧ q.cls = 0 ∧
          q.addr = s.pageBase r.pkt.addr ∧ q.dst = BitVec.ofNat 10 (anchorOf r.pkt.addr) ∧
          t.fab.reqs = [{ r with wait := true, notOwner := false }, { tag := tagOf q, pkt := q, use := .owner q.addr }] ∧
          (∀ n, tblGet 0 t.sys.migCnt n = tblGet 0 s.sys.migCnt n + if n = e.1 then 1 else 0) ∧
          t = { s with sys := { s.sys with migCnt := t.sys.migCnt }, fab := t.fab }) ∧
      ((∀ q, r.use ≠ .ship q) → exec (.retry p) s = .next { s with fab := { s.fab with
        reqs := [{ r with redir := true }], outbox := (s.take p).fab.outbox ++ [{ r.pkt with hop := 0 }] } }) ∧
      (∀ q, r.use = .ship q → exec (.retry p) s = .next { s with fab := { (s.take p).fab with
        reqs := [{ r with redir := true, again := true }] } }) ∧
      (∀ line, r.use = .fill line → r.pkt.typ = 2 → r.pkt.cls = 0 → isMarked r.pkt = false →
        ∃ t x, exec (.unreachable p) s = .next t ∧ t.fab.reqs = [] ∧ tblGet {} t.own.peers line = { part := (tblGet {} s.own.peers line).part } ∧
          t.hif.records = s.hif.records ++ [x] ∧ (x.words.getD 0 0).toNat % 2 ^ 40 = 5 + 2 ^ 8 * 3 + 2 ^ 32 * 0xFF ∧
          x.words.getD 1 0 = r.pkt.addr ∧ x.words.getD 2 0 = tagOf r.pkt) ∧
      (∀ m port M, r.use = .mcast m port → s.fab.mcasts = [M] → M.id = m → let n := leNat (p.data.take 16)
        let ok := M.ok + field n 0 16
        let bad := M.fail + field n 16 16
        let first := if field n 16 16 = 0 then M.first else min M.first (field n 32 16)
        (∀ q, M.ports = [port] → M.parent = some q → ∃ t a, exec (.mack p) s = .next t ∧ t.fab.reqs = [] ∧
          t.fab.mcasts = [] ∧ t.fab.outbox = (s.take p).fab.outbox ++ [a] ∧ a.typ = 0x24 ∧ a.dst = q.src ∧
          a.seqn = q.seqn ∧ a.data = leBytes 16 (ok + 2 ^ 16 * bad + 2 ^ 32 * first + 2 ^ 64 * M.ver.toNat) ∧
          t = { s with fab := t.fab }) ∧
        (∀ x, M.ports.filter (fun y => y != port) = x → x ≠ [] → ∃ t, exec (.mack p) s = .next t ∧
          t.fab.mcasts = [{ M with ports := x, ok := ok, fail := bad, first := first }] ∧ t = { s with fab := t.fab })) ∧
      (∀ q, r.use = .ship q → p.redir = false → q.nres = 0 → q.sender.gid = s.g.gid → s.g.live = true →
        (∀ x ∈ s.g.pend, x.id ≠ q.sender.pend) → let T := s.g.kGet q.sender.k
        T.pending = true → T.kind = .sect →
        ∃ t, exec (.sectionResult p) s = .next t ∧ t.fab.reqs = [] ∧
          t.g.kGet q.sender.k = { T with
            left := T.left - 1, pending := decide (1 < T.left), code := if p.data.getD 0 0 ≠ 0 then 0x15 else T.code
            count := if p.data.getD 0 0 ≠ 0 then T.count + 1 else T.count } ∧
          (∀ j, j ≠ q.sender.k → t.g.kGet j = s.g.kGet j) ∧ t.g = { s.g with k := t.g.k }))) ∧
  (∀ (s : State) (p : Packet), p.typ = 0x30 → p.cls = 2 → mgmtAnswer p = false →
    let m := msgOf p
    let answered (t : State) (code : Nat) : Prop := t.fab.outbox = (s.take p).fab.outbox ++ [{ p with
      hop := 0, dst := p.src, src := BitVec.ofNat 10 s.myId, data := mgmtMark (256 + code), ndata := 1, len := 8
      psn := 0 }]
    (m.op = 3 → ∃ t, exec (.stokerMessage p) s = .next t ∧ answered t 0 ∧
      (∀ e, e ∈ t.own.records ↔
        (e ∈ s.own.records ∧ e.1 ≠ p.addr) ∨ (e = (p.addr, m.a.toNat) ∧ m.a.toNat ≠ s.myId)) ∧
      t = { s with own := { s.own with records := t.own.records }, fab := t.fab }) ∧
    (m.op = 5 → ∃ t, exec (.stokerMessage p) s = .next t ∧ answered t 0 ∧
      t.own.stubs = s.own.stubs.filter (fun x => decide (x.page ≠ p.addr)) ∧
      t = { s with own := { s.own with stubs := t.own.stubs }, fab := t.fab }) ∧
    (∀ l, m.op = 10 → l = s.flink m.a.toNat → ∃ t, exec (.stokerMessage p) s = .next t ∧ answered t 0 ∧
      t = { s with fab := t.fab } ∧ (∀ i, i ≠ m.a.toNat → t.flink i = s.flink i) ∧
      t.flink m.a.toNat = if l.up then { l with retraining := true } else l) ∧
    (10 < m.op → ∃ t, exec (.stokerMessage p) s = .next t ∧ answered t 1 ∧ t = { s with fab := t.fab })) ∧
  (∀ (s : State) (p : Packet),
    (exec (.routeMarker p) s = .next { s with fab := { s.fab with outbox := (s.take p).fab.outbox ++
      [{ p with hop := 0, dst := p.src, src := BitVec.ofNat 10 s.myId, data := mgmtMark 1, ndata := 1, len := 8, psn := 0 }] } }) ∧
    (s.fab.heldTx = [] → exec (.routeMarkerReturn p) s = .next { s with fab := { (s.take p).fab with
      markers := s.fab.markers.filter fun m => m != p.addr.toNat } }) ∧
    (∀ q n, s.fab.heldTx = [q] → s.fab.combine = [] → combinable q = false → q.dst.toNat = p.addr.toNat → ({ s with fab := { s.fab with markers := [] } } : State).Leaves q n →
      ∃ t, exec (.routeMarkerReturn p) s = .next t ∧ Left s t q n ∧ t.fab.heldTx = [] ∧
        t.fab.markers.contains p.addr.toNat = false) ∧
    (∀ n, p ∈ s.fab.outbox → s.fab.combine = [] → (∀ q ∈ s.fab.heldTx, sameStream p q = false) → combinable p = false → s.Leaves p n →
      ∃ t, exec (.packetForward p) s = .next t ∧ Left s t p n ∧ t.fab.outbox = (s.take p).fab.outbox ∧
        t = { s with fab := t.fab }) ∧
    (p ∉ s.fab.outbox → p ∈ s.fab.relay → s.fab.combine = [] → (∀ q ∈ s.fab.heldTx, sameStream p q = false) → combinable p = false → p.hop = 7 → p.cls = 0 →
      ∃ t, exec (.packetForward p) s = .next t ∧ Answers s t p (fun r => r.typ = 0x23 ∧ r.aux = 4) ∧
        t.fab.relay = dropFirst (fun q => decide (q = p)) s.fab.relay)) ∧
  (∀ (s : State) (page : W64) (m : Mig) (a : Nat) (l : Leaf), s.own.migs = [m] → m.page = page → m.waiting = 0 →
    s.entryOf m.ctx page = some (a, l) →
    let tells (t : State) (d op : Nat) (x : W64) : Prop := ∃ q, t.fab.outbox = s.fab.outbox ++ [q] ∧ q.typ = 0x30 ∧
      q.cls = 2 ∧ q.dst = BitVec.ofNat 10 d ∧ q.addr = page ∧ (msgOf q).op = op ∧ (msgOf q).a = x ∧
      t.fab.reqs = s.fab.reqs ++ [{ tag := tagOf q, pkt := q, use := .mgmt op page }] ∧
      t.own = { s.own with migs := [{ m with step := m.step + 1, waiting := 1 }] } ∧
      t = { s with own := t.own, fab := t.fab }
    (m.step = 0 → exec (.migrationStep page) s = .next s) ∧
    (m.step = 1 → (∃ r ∈ s.fab.reqs, pageReq r.pkt = true ∧ onPage page r.pkt.addr = true) →
      exec (.migrationStep page) s = .next s) ∧
    (m.step = 1 → (∀ r ∈ s.fab.reqs, ¬ (pageReq r.pkt = true ∧ onPage page r.pkt.addr = true)) → s.own.sharers = [] →
      s.own.excl = [] → s.own.invq = [] → (∀ e ∈ s.cores, e.2.narrow = []) →
      exec (.migrationStep page) s = .next { s with own := { s.own with migs := [{ m with step := 2 }] } }) ∧
    (m.step = 3 → m.owner ≠ s.myId → ∃ t, exec (.migrationStep page) s = .next t ∧ tells t m.owner 2 m.frame) ∧
    (m.step = 4 → anchorOf page ≠ s.myId →
      ∃ t, exec (.migrationStep page) s = .next t ∧ tells t (anchorOf page) 3 (BitVec.ofNat 64 m.owner))) ∧
  (∀ (s : State) (page : W64) (r : Reclaim), s.own.reclaims = [r] → r.page = page →
    (r.started = false → ∃ t ps, exec (.stubReclaimStart page) s = .next t ∧ t.fab.outbox = s.fab.outbox ++ ps ∧
      ps.map (·.dst) = r.members.map (BitVec.ofNat 10) ∧
      (∀ q ∈ ps, q.typ = 6 ∧ q.cls = 0 ∧ q.addr = page ∧ isMarked q = true ∧ markedOwner q = r.old % 1024) ∧
      t.fab.reqs = s.fab.reqs ++ ps.map (fun q => { tag := tagOf q, pkt := q, use := .none }) ∧
      t.own = { s.own with reclaims := [{ r with started := true, waiting := r.members }] } ∧
      t = { s with own := t.own, fab := t.fab }) ∧
    (r.started = true → r.waiting = [] →
      (r.failed = none → r.old ≠ s.myId → ∃ t q, exec (.stubReclaimResult page none) s = .next t ∧
        t.own = { s.own with reclaims := [] } ∧ t.fab.outbox = s.fab.outbox ++ [q] ∧ q.typ = 0x30 ∧
        q.dst = BitVec.ofNat 10 r.old ∧ q.addr = page ∧ (msgOf q).op = 5) ∧
      (∀ d, r.failed = some d → ∃ t x, exec (.stubReclaimResult page (some d)) s = .next t ∧
        t.own = { s.own with reclaims := [] } ∧ t.fab = s.fab ∧ t.hif.records = s.hif.records ++ [x] ∧
        (x.words.getD 0 0).toNat % 2 ^ 12 = 9 + 2 ^ 8 * 5 ∧ x.words.getD 1 0 = pageAddr page ∧
        x.words.getD 2 0 = BitVec.ofNat 64 d))) ∧
  (∀ (s : State) (page : W64) (old : Nat) (p : Packet),
    (findFirst (isCond page old) s.fab.outbox = some p → s.own.held.length < 1024 →
      ∃ t, exec (.stubCondInval page old) s = .next t ∧ t.own.held = s.own.held ++ [p] ∧ t.fab = (s.take p).fab ∧
        (∀ e, e ∈ t.own.cache ↔ e ∈ s.own.cache ∧ ¬ (e.2.1 = page ∧ e.2.2 = old)) ∧
        t = { s with own := t.own, fab := t.fab }) ∧
    (findFirst (isCond page old) s.own.held = some p →
      let busy : Prop := ∃ r ∈ s.fab.reqs, pageReq r.pkt = true ∧ r.sent = true ∧ r.pkt.dst.toNat = old ∧
        onPage page r.pkt.addr = true
      (busy → exec (.stubInvalAck page old) s = .next s) ∧
      (¬ busy → ∃ t a, exec (.stubInvalAck page old) s = .next t ∧ t.fab.outbox = s.fab.outbox ++ [a] ∧ a.typ = 0x22 ∧
        a.cls = 1 ∧ a.dst = p.src ∧ a.seqn = p.seqn ∧ t.own = { s.own with held := dropFirst (isCond page old) s.own.held } ∧
        t = { s with own := t.own, fab := t.fab })))

/-- Events of the links (01 R16, R25, 17 R374, R375, R380, R384 to R387, R396, R461). The clauses that put flits on the
wire are about a link with nothing else waiting. -/
def Obligations.LinkEvents : Prop :=
  (∀ (s : State) (n : Nat) (bytes : List Byte), let l := s.flink n
    let puts (x : FLink) (t : State) : Prop := (∀ m, t.flink m = if m = n then x else s.flink m) ∧
      t = { s with fab := { s.fab with links := t.fab.links, outbox := t.fab.outbox } }
    let e := leNat ((bytes.drop 64).take 5)
    let good : Prop := bytes.length = 72 ∧ crc24 (bytes.take 69) = leNat (bytes.drop 69)
    let bit (k : Nat) : Bool := e / 2 ^ k % 2 == 1
    (l.up = false ∨ l.retraining = true → exec (.flitReceive n bytes) s = .next s) ∧
    (l.up = true → l.retraining = false → ¬ good →
      ∃ t, exec (.flitReceive n bytes) s = .next t ∧ puts { l with rxFlits := [], nak := true } t ∧
        t.fab.outbox = s.fab.outbox) ∧
    (l.up = true → l.retraining = false → good → l.txq = [] → bit 20 = false → bit 21 = false → field e 16 3 < 5 →
      let seq : BitVec 16 := BitVec.ofNat 16 e
      (∀ p, seq = l.rxExp → l.rxFlits = [] → field e 16 3 = 0 → bit 19 = true → packetFrom [bytes.take 64] = some p →
        l.unacked < 31 → ∃ t, exec (.flitReceive n bytes) s = .next t ∧
          puts { l with rxFlits := [], rxExp := l.rxExp + 1, ackDue := true, unacked := l.unacked + 1 } t ∧
          t.fab.outbox = s.fab.outbox ++
            [if p.typ = 0x32 then { p with dst := BitVec.ofNat 10 s.myId, unit := BitVec.ofNat 16 n } else p]) ∧
      (seq = l.rxExp → l.rxFlits.length = field e 16 3 → field e 16 3 < 4 → bit 19 = false →
        ∃ t, exec (.flitReceive n bytes) s = .next t ∧ puts { l with rxFlits := l.rxFlits ++ [bytes.take 64] } t ∧
          t.fab.outbox = s.fab.outbox) ∧
      (1 ≤ (l.rxExp - seq).toNat → (l.rxExp - seq).toNat ≤ 1024 →
        ∃ t, exec (.flitReceive n bytes) s = .next t ∧ puts l t ∧ t.fab.outbox = s.fab.outbox) ∧
      (1024 < (l.rxExp - seq).toNat → ∃ t, exec (.flitReceive n bytes) s = .next t ∧
        puts { l with rxFlits := [], nak := true } t ∧ t.fab.outbox = s.fab.outbox)) ∧
    (l.up = true → l.retraining = false → good → l.txq = [] → field e 16 3 = 7 → bit 20 = true → bit 21 = false →
      ∃ t, exec (.flitReceive n bytes) s = .next t ∧ t.fab.outbox = s.fab.outbox ∧ puts { l with
        replay := l.replay.filter fun x => !decide ((BitVec.ofNat 16 (e / 2 ^ 24) - x.1).toNat < 1024) } t) ∧
    (l.up = true → l.retraining = false → l.replay ≠ [] → ∃ t, exec (.replayTimeout n) s = .next t ∧
      t.fab.outbox = s.fab.outbox ∧ puts { l with
        wire := l.wire ++ l.replay.flatMap fun x => l.flits x.1 x.2, ackDue := false, nak := false } t) ∧
    (l.up = false ∨ l.retraining = true ∨ l.replay = [] → exec (.replayTimeout n) s = .next s) ∧
    (l.up = true → l.retraining = false →
      ∃ t, exec (.ackTimer n) s = .next t ∧ t.fab.outbox = s.fab.outbox ∧ puts { l with
        wire := l.wire ++ [flitBytes [] 0 7 false true l.nak l.ackNum], ackDue := false, nak := false
        unacked := 0 } t) ∧
    (l.up = false ∨ l.retraining = true → exec (.ackTimer n) s = .next s)) ∧
  (∀ (s : State) (tag : W64),
    (s.reqOf tag = none → exec (.requestTimeout tag) s = .next s) ∧
    (∀ r, s.fab.reqs = [r] → r.tag = tag → s.fab.combine = [] →
      ((∀ op page, r.use ≠ .mgmt op page) → r.sent = false ∨ r.wait = true →
        exec (.requestTimeout tag) s = .next s) ∧
      (∀ op page, r.use = .mgmt op page → op ≠ 0 → op ≠ 8 → op ≠ 10 → exec (.requestTimeout tag) s = .next { s with
        fab := { s.fab with outbox := s.fab.outbox ++ [{ r.pkt with hop := 0 }] } }) ∧
      (∀ line, r.use = .fill line → r.pkt.typ = 2 → r.pkt.cls = 0 → isMarked r.pkt = false → r.sent = true →
        r.wait = false →
        ∃ t x, exec (.requestTimeout tag) s = .next t ∧ t.fab.reqs = [] ∧ tblGet {} t.own.peers line = { part := (tblGet {} s.own.peers line).part } ∧
          t.hif.records = s.hif.records ++ [x] ∧ (x.words.getD 0 0).toNat % 2 ^ 40 = 5 + 2 ^ 8 * 3 + 2 ^ 32 * 0xFF ∧
          x.words.getD 1 0 = r.pkt.addr ∧ x.words.getD 2 0 = tagOf r.pkt))) ∧
  (∀ (s : State) (i : Nat),
    (s.heldList[i]? = none → exec (.heldTimer i) s = .next s) ∧
    (∀ p, s.heldList[i]? = some p → p.cls = 0 →
      ∃ t a, exec (.heldTimer i) s = .next t ∧ t.fab.outbox = s.fab.outbox ++ [a] ∧ a.typ = 0x23 ∧ a.aux = 5 ∧
        a.dst = p.src ∧ a.seqn = p.seqn ∧ a.unit = p.unit ∧ t = { s with fab := { s.fab with outbox := t.fab.outbox } })) ∧
  (∀ (s : State) (n : Nat) (m : Mcast), s.fab.mcasts = [m] →
    (m.ports.contains n = false → exec (.mcastChildTimeout 0 n) s = .next s) ∧
    (∀ q, m.ports = [n] → m.parent = some q →
      ∃ t a, exec (.mcastChildTimeout 0 n) s = .next t ∧ t.fab.mcasts = [] ∧
        (∀ r, r ∈ t.fab.reqs ↔ r ∈ s.fab.reqs ∧ r.use ≠ ReqFor.mcast m.id n) ∧
        t.fab.outbox = s.fab.outbox ++ [a] ∧ a.typ = 0x24 ∧ a.dst = q.src ∧ a.seqn = q.seqn ∧ a.data = leBytes 16
          (m.ok + 2 ^ 16 * (m.fail + 1) + 2 ^ 32 * min m.first s.myId + 2 ^ 64 * m.ver.toNat) ∧
        t = { s with fab := t.fab })) ∧
  (∀ (s : State) (n d p : Nat) (bad : BitVec 16), let l := s.flink n
    (12 ≤ n ∨ s.fab.devId = none ∨ l.st = .absent ∨ (l.up = true ∧ l.retraining = false) →
      ∀ far, exec (.fabricLinkTrained n bad far) s = .next s) ∧
    (n < 12 → s.fab.devId ≠ none → l.st = .down → l.byHost = false → l.txq = [] → l.replay = [] →
      let low : Prop := bad.toNat % 256 = 0
      let high : Prop := bad.toNat / 256 = 0
      (∀ far : Option (Nat × Nat), (∀ e, far = some e → s.nbrConflict n e.1 = false) → low ∨ high →
        ∃ t x q, exec (.fabricLinkTrained n bad far) s = .next t ∧
          (∀ m, t.flink m = if m = n then x else s.flink m) ∧
          (low ∧ high → x.st = .up16 ∧ x.half = false) ∧ (¬ low → x.st = .up8 ∧ x.half = true) ∧
          (¬ high → x.st = .up8 ∧ x.half = false) ∧ x.nbr = far ∧ x.failed = bad ∧ x.rxExp = 0 ∧
          x.txSeq = 1 ∧ x.replay = [(0, q)] ∧ q.typ = 0x32 ∧ q.cls = 2 ∧ q.data = leBytes 8 (s.myId + 2 ^ 16 * n) ∧
          q.src = BitVec.ofNat 10 s.myId ∧
          x.retraining = false ∧ t.sys.enumGen = s.sys.enumGen + 1 ∧ t.fab.trained = true ∧
          t = { s with
            fab := { s.fab with links := t.fab.links, trained := true }
            sys := { s.sys with enumGen := t.sys.enumGen } }) ∧
      (∀ far : Option (Nat × Nat), (∀ e, far = some e → s.nbrConflict n e.1 = false) → ¬ low → ¬ high →
        ∃ t, exec (.fabricLinkTrained n bad far) s = .next t ∧ (t.flink n).st = .down ∧
          t = { s with fab := { s.fab with links := t.fab.links } }) ∧
      (s.nbrConflict n d = true → ∃ t x, exec (.fabricLinkTrained n bad (some (d, p))) s = .next t ∧
        (t.flink n).st = .down ∧ t.hif.records = s.hif.records ++ [x] ∧
        (x.words.getD 0 0).toNat = 10 + 2 ^ 8 * 5 + 2 ^ 32 * (n / 3) + 2 ^ 40 * n ∧
        x.words.getD 2 0 = BitVec.ofNat 64 d))) ∧
  (∀ (s : State) (q : Packet), q.typ = 0x32 → let v := leNat (q.data.take 8)
    let n := q.unit.toNat
    let d := field v 0 10
    (s.nbrConflict n d = false → ∃ t, exec (.stokerMessage q) s = .next t ∧ t.fab.outbox = (s.take q).fab.outbox ∧
      (∀ m, t.flink m = if m = n then { s.flink n with nbr := some (d, field v 16 4) } else s.flink m) ∧
      t = { s with fab := t.fab }) ∧
    (s.nbrConflict n d = true → (s.flink n).up = true → (s.flink n).replay = [] → (s.flink n).txq = [] →
      ∃ t x, exec (.stokerMessage q) s = .next t ∧ (t.flink n).st = .down ∧ (∀ m, m ≠ n → t.flink m = s.flink m) ∧
        t.sys.enumGen = s.sys.enumGen + 1 ∧ t.hif.records = s.hif.records ++ [x] ∧
        (x.words.getD 0 0).toNat % 2 ^ 12 = 10 + 2 ^ 8 * 5 ∧ x.words.getD 2 0 = BitVec.ofNat 64 d)) ∧
  (∀ (s : State) (n lane : Nat), let l := s.flink n
    let down (t : State) : Prop := (t.flink n).st = .down ∧ (t.flink n).replay = [] ∧ (t.flink n).txq = [] ∧
      t.sys.enumGen = s.sys.enumGen + 1 ∧ ∀ m, m ≠ n → t.flink m = s.flink m
    (16 ≤ lane ∨ l.laneLive lane = false → exec (.fabricLaneFail n lane) s = .next s) ∧
    (lane < 16 → l.st = .up16 → s.sys.errThresh ≠ tblGet 0 s.sys.errcnt 3 + 1 → tblGet 0 s.sys.errcnt 3 ≠ 0xFFFFFFFF →
      ∃ t x, exec (.fabricLaneFail n lane) s = .next t ∧ (∀ m, t.flink m = if m = n then x else s.flink m) ∧
        x.st = .up8 ∧ x.half = decide (lane < 8) ∧ (∀ j, j < 16 → x.failed.getLsbD j = (l.failed.getLsbD j || j == lane)) ∧
        x.replay = l.replay ∧ x.rxFlits = [] ∧ t.sys.enumGen = s.sys.enumGen + 1 ∧
        (∀ k, tblGet 0 t.sys.errcnt k = tblGet 0 s.sys.errcnt k + if k = 3 then 1 else 0) ∧ t.hif = s.hif) ∧
    (lane < 16 → l.st = .up8 → l.half = decide (8 ≤ lane) → l.byHost = false →
      (l.replay = [] → l.txq = [] →
        ∃ t x, exec (.fabricLaneFail n lane) s = .next t ∧ down t ∧ t.fab.outbox = s.fab.outbox ∧
          t.hif.records = s.hif.records ++ [x] ∧ (x.words.getD 0 0).toNat % 2 ^ 12 = 3 + 2 ^ 8 * 3) ∧
      (∀ q p, l.replay = [(q, p)] → l.txq = [] → p.cls = 0 → p.typ ≠ 0x32 →
        ∃ t a, exec (.fabricLaneFail n lane) s = .next t ∧ down t ∧ t.fab.outbox = s.fab.outbox ++ [a] ∧
          a.typ = 0x23 ∧ a.aux = 4 ∧ a.dst = p.src ∧ a.seqn = p.seqn)) ∧
    (l.retraining = false → exec (.linkRetrainTimeout n) s = .next s) ∧
    (l.retraining = true → l.up = true → l.replay = [] → l.txq = [] →
      (l.byHost = false → ∃ t, exec (.linkRetrainTimeout n) s = .next t ∧ down t ∧ t.hif = s.hif) ∧
      (l.byHost = true → ∃ t, exec (.linkRetrainTimeout n) s = .next t ∧ down t ∧ t.hif.busy = false ∧
        t.hif.status = 0x1A ∧ t.hif.count = s.hif.count + 1)) ∧
    (l.retraining = true → l.up = false → l.byHost = false →
      ∃ t, exec (.linkRetrainTimeout n) s = .next t ∧ t.flink n = { l with retraining := false } ∧
        t = { s with fab := { s.fab with links := t.fab.links } })) ∧
  (∀ (s : State) (k lane : Nat), let l := s.sys.dlink k
    (20 ≤ k ∨ 16 ≤ lane ∨ l.1 = .down ∨ (l.1 = .half ∧ l.2 ≠ decide (8 ≤ lane)) →
      exec (.dieLinkLaneFail k lane) s = .next s) ∧
    (k < 20 → lane < 16 → l.1 = .full → s.sys.errThresh ≠ tblGet 0 s.sys.errcnt 2 + 1 →
      tblGet 0 s.sys.errcnt 2 ≠ 0xFFFFFFFF →
      ∃ t, exec (.dieLinkLaneFail k lane) s = .next t ∧
        (∀ j, t.sys.dlink j = if j = k then (.half, decide (lane < 8)) else s.sys.dlink j) ∧
        t.sys.enumGen = s.sys.enumGen + 1 ∧ tblGet 0 t.sys.errcnt 2 = tblGet 0 s.sys.errcnt 2 + 1 ∧ t.hif = s.hif) ∧
    (k < 20 → lane < 16 → l.1 = .half → l.2 = decide (8 ≤ lane) →
      ∃ t x, exec (.dieLinkLaneFail k lane) s = .next t ∧ (t.sys.dlink k).1 = .down ∧
        (∀ j, j ≠ k → t.sys.dlink j = s.sys.dlink j) ∧ t.sys.enumGen = s.sys.enumGen + 1 ∧
        t.hif.records = s.hif.records ++ [x] ∧ (x.words.getD 0 0).toNat % 2 ^ 12 = 2 + 2 ^ 8 * 3))

/-- Events of the host link and of the system (17 R394, R395, R397, 18 R398 to R411, R416). What a reset keeps besides the
spec's list is the model's own: its counters and schedule, and the host's memory. -/
def Obligations.SystemEvents : Prop :=
  (∀ (s : State) (j : Nat) (v : W32),
    (512 ≤ j → exec (.readySet j v) s = .next s) ∧
    (∀ ks bs, j < 512 → s.hif.hostQ = [.write ks bs] → s.homeQ = [] → s.hostWait true ks = .stay →
      exec (.readySet j v) s = .next { s with hif := { s.hif with hostQ := [.write ks bs, .ready j v] } }) ∧
    (j < 512 → s.hif.hostQ = [] → ∃ t, exec (.readySet j v) s = .next t ∧ t = { s with disp := { s.disp with ready := t.disp.ready } } ∧
      ∀ i, tblGet false t.disp.ready i =
        (tblGet false s.disp.ready i || (decide (i / 32 = j) && v.getLsbD (i % 32))))) ∧
  (∀ (s : State) (off n k : Nat) (bytes : List Byte),
    (s.apKeys off bytes.length = none →
      exec (.apertureWrite off bytes) s = .fault (.notInstalled (s.hif.apbase.toNat + off))) ∧
    (s.apKeys off n = none → exec (.apertureRead off n) s = .fault (.notInstalled (s.hif.apbase.toNat + off))) ∧
    (s.apKeys off bytes.length = some (span k bytes.length) → s.hif.hostQ = [] → s.Quiet → s.Alone →
      ∃ t, exec (.apertureWrite off bytes) s = .next t ∧ Stored s t k bytes.length fun i => bytes.getD i 0) ∧
    (s.apKeys off n = some (span k n) → s.hif.hostQ = [] → s.Quiet → s.Alone →
      ∃ t, exec (.apertureRead off n) s = .next t ∧
        t = { s with hif := { s.hif with apData := t.hif.apData, apPsn := t.hif.apPsn } } ∧
        ((∀ x ∈ span k n, s.psn x = false) → t.hif.apPsn = false ∧ t.hif.apData = s.bytes (span k n)) ∧
        ((∃ x ∈ span k n, s.psn x = true) → t.hif.apPsn = true ∧ t.hif.apData = List.replicate n 0xFF))) ∧
  (∀ (s : State) (v : W64) (w : W32),
    exec (.fringRptr v) s = .next { s with hif := { s.hif with fringRptr := v } } ∧
    exec (.registerWrite 0x218 v) s = .next { s with hif := { s.hif with fringRptr := v } } ∧
    exec (.registerWrite 0x200 v) s =
      .next { s with hif := { s.hif with fringBase := v &&& ~~~0xFFF#64, fringSet := true } } ∧
    exec (.registerWrite 0x220 v) s = .next { s with hif := { s.hif with apbase := v &&& ~~~0xFFFF#64 } } ∧
    exec (.registerWrite 0x2040 v) s = .next { s with sys := { s.sys with errThresh := v.setWidth 32 } } ∧
    (∀ off ∈ [0x150, 0x210, 0x300, 0x428, 0x2048, 0x3010], exec (.registerWrite off v) s = .next s) ∧
    (v.getLsbD 0 = true → s.hif.busy = false → s.sys.boot = .running → exec (.registerWrite 0x140 v) s =
      .next { s with hif := { s.hif with busy := true, pending := true, sub := s.hif.cmd } }) ∧
    (v.getLsbD 0 = true → s.hif.busy = true ∨ s.sys.boot ≠ .running → exec (.registerWrite 0x140 v) s =
      .next { s with hif := { s.hif with drop := true } }) ∧
    (w = 1 → s.sys.attBusy = false → exec (.attDoor w) s = .next { s with sys := { s.sys with attBusy := true } }) ∧
    (w ≠ 1 ∨ s.sys.attBusy = true → exec (.attDoor w) s = .next s) ∧
    (w ≠ 1 → exec (.snapTrig w) s = .next s) ∧
    (s.sys.snapCtl.getLsbD 0 = true →
      let pending (l : List (W64 × BitVec 5 × Option (BitVec 12))) : Prop :=
        exec (.snapTrig 1) s = .next { s with sys := { s.sys with snapPend := l } }
      (s.sys.snapPend = [] → pending [(s.sys.cycle, 1, none)]) ∧
      (∀ src tag, s.sys.snapPend = [(s.sys.cycle, src, tag)] → pending [(s.sys.cycle, src ||| 1, tag)]) ∧
      (∀ c src tag, s.sys.snapPend = [(c, src, tag)] → c ≠ s.sys.cycle →
        pending [(c, src, tag), (s.sys.cycle, 1, none)])) ∧
    (s.sys.snapCtl.getLsbD 0 = false → s.sys.snapMissed ≠ 0xFFFFFFFF →
      exec (.snapTrig 1) s = .next { s with sys := { s.sys with snapMissed := s.sys.snapMissed + 1 } })) ∧
  (∀ (s : State) (r : Record) (l : List Record), s.hif.records = r :: l →
    let h := s.hif
    let room : Prop := h.ringOk = true ∧ (h.fringWptr - h.fringRptr).toNat < 2 ^ h.fringLog.toNat
    (¬ room → exec .faultRecordWrite s = .next s) ∧
    (room → r.words.length = 4 → ∃ t, exec .faultRecordWrite s = .next t ∧ t = { s with hif := t.hif } ∧
      t.hif.records = l ∧ t.hif.fringWptr = h.fringWptr + 1 ∧
      (let a := h.fringBase.toNat + 32 * (h.fringWptr.toNat % 2 ^ h.fringLog.toNat)
       (∀ i, i < 32 → tblGet 0 t.hif.hostMem (a + i) =
          ((r.words.getD (i / 8) 0) >>> (8 * (i % 8))).setWidth 8) ∧
        ∀ x, (x < a ∨ a + 32 ≤ x) → tblGet 0 t.hif.hostMem x = tblGet 0 h.hostMem x) ∧
      ∀ v, tblGet 0 t.hif.msix v = tblGet 0 h.msix v +
        if v = 1 ∨ (v = 2 ∧ field (r.words.getD 0 0).toNat 8 4 = 3) ∨ (v = 3 ∧ field (r.words.getD 0 0).toNat 8 4 = 4)
        then 1 else 0)) ∧
  (∀ s : State,
    (s.sys.attBusy = false → exec .attReportDone s = .next s) ∧
    (s.sys.attBusy = true → ∃ t, exec .attReportDone s = .next t ∧ t.sys.attBusy = false ∧
      (let b (i : Nat) : Byte := tblGet 0 t.sys.attReport i
       let num (i n : Nat) : Nat := leNat ((from_ i n).map b)
       num 0 4 = 1 ∧ num 4 4 = s.sys.bootSvn.toNat ∧ num 8 8 = s.sys.fuse.serial.toNat ∧
        num 16 32 = s.sys.image.hash.toNat ∧ (from_ 48 32).map b = sha256 ((upTo 2048).map (enumByte s)) ∧ num 80 32 = s.sys.attNonce.toNat ∧ num 112 8 = s.sys.cycle.toNat) ∧
      t = { s with draws := s.draws + 1, sys := { s.sys with attReport := t.sys.attReport, attBusy := false } }) ∧
    (s.sys.snapPend = [] → exec .snapshotLatch s = .next s) ∧
    (∀ c src tag r, s.sys.snapPend = (c, src, tag) :: r → ∃ t, exec .snapshotLatch s = .next t ∧ t.sys.snapPend = r ∧
      t.sys.snap.gen = s.sys.snap.gen + 1 ∧ t.sys.snap.src = src ∧ t.sys.snap.tag = tag.getD 0 ∧
      t.sys.snap.cyc = c + 32 ∧ t.sys.snapCtl = s.sys.snapCtl &&& ~~~1#64 ∧
      leNat ((from_ 0 4).map (tblGet 0 t.sys.snap.image)) = (s.sys.snap.gen + 1).toNat ∧
      t = { s with
        draws := s.draws + 1
        sys := { s.sys with snap := t.sys.snap, snapCtl := t.sys.snapCtl, snapPend := r } }) ∧
    (∀ degrees, degrees < 115 ∨ s.sys.alerted = true →
      exec (.thermalThrottle degrees) s = .next { s with sys := { s.sys with throttle := true } }) ∧
    (∀ degrees, 115 ≤ degrees → s.sys.alerted = false → ∃ t x, exec (.thermalThrottle degrees) s = .next t ∧
      t.sys.throttle = true ∧ t.sys.alerted = true ∧ t.hif.records = s.hif.records ++ [x] ∧
      (x.words.getD 0 0).toNat % 2 ^ 12 = 14 + 2 ^ 8 * 3) ∧
    exec .thermalConditionClear s = .next { s with sys := { s.sys with throttle := false, alerted := false } } ∧
    (∀ img, exec (.firmwareImageWrite img) s = .next { s with sys := { s.sys with flash := img } })) ∧
  (∀ s : State,
    let after (d : Nat) (t : State) : Prop := t = { State.reset with
      draws := d, nextId := s.nextId, sched := s.sched, mem := t.mem, poison := t.poison
      hif := { State.reset.hif with hostMem := s.hif.hostMem }
      sys := { State.reset.sys with
        fuse := s.sys.fuse, flash := s.sys.flash, boots := s.sys.boots + 1, cold := t.sys.cold, image := t.sys.image
        powered := t.sys.powered } }
    (∃ t, exec .coldReset s = .next t ∧ after s.draws t ∧ t.sys.cold = true ∧ t.sys.powered = true ∧
      ∀ k, t.byte k = memDefault ∧ t.psn k = false) ∧
    (∃ t, exec .functionReset s = .next t ∧ after (s.draws + 1) t ∧ t.sys.powered = true ∧
      t.sys.cold = (s.sys.cold && s.sys.bootStep == 1 && decide (s.sys.boot = .rom)) ∧ t.sys.image = s.sys.image ∧
      (let lost (k : Nat) : Prop := k / 64 ∈ s.wts.map (·.1) ∧ Config.freeDirty s.draws (k / 64) = true
      ∀ k, k < regionBase 1 → (lost k → t.byte k = Config.freeOld s.draws k ∧ t.psn k = Config.freeOldMark s.draws (k / 8)) ∧
        (¬ lost k → t.byte k = s.byte k ∧ t.psn k = s.psn k)) ∧ ∀ k, regionBase 1 ≤ k → t.byte k = memDefault) ∧
    ∃ t, exec .powerGoodLoss s = .next t ∧ after s.draws t ∧ t.sys.powered = false) ∧
  (∀ s : State, let y := s.sys
    (y.powered = false ∨ y.boot = .running ∨ y.boot = .failed → exec .bootStepComplete s = .next s) ∧
    (y.powered = true → y.boot ≠ .running → y.boot ≠ .failed →
      (y.bootStep = 1 → exec .bootStepComplete s = .next { s with sys := { y with
        bootStep := 2, boot := .verify, image := if y.cold then y.flash else y.image } }) ∧
      (y.bootStep = 2 → y.image.sigOk = false →
        exec .bootStepComplete s = .next { s with sys := { y with boot := .failed, bootReason := 1 } }) ∧
      (y.bootStep = 2 → y.image.sigOk = true → y.image.svn.toNat < y.fuse.minSvn.toNat →
        exec .bootStepComplete s = .next { s with sys := { y with boot := .failed, bootReason := 2 } }) ∧
      (y.bootStep = 2 → y.image.sigOk = true → y.fuse.minSvn.toNat ≤ y.image.svn.toNat →
        exec .bootStepComplete s = .next { s with sys := { y with bootStep := 3, boot := .train } }) ∧
      (y.bootStep = 3 ∨ y.bootStep = 4 →
        exec .bootStepComplete s = .next { s with sys := { y with bootStep := y.bootStep + 1 } }) ∧
      (y.bootStep = 5 → ∃ t, exec .bootStepComplete s = .next t ∧ t.sys.boot = .running ∧
        t.sys.bootSvn = y.image.svn ∧ t.sys.fuse.minSvn.toNat = max y.fuse.minSvn.toNat y.image.svn.toNat ∧
        t = { s with sys := { y with
          boot := .running, tvec := t.sys.tvec, bootSvn := t.sys.bootSvn
          fuse := { y.fuse with minSvn := t.sys.fuse.minSvn } } })))

/-- Error counters (18 R409). The clauses about an error of another kind of event, and about the record of an
uncorrectable one, are 18 R404's. -/
def Obligations.ErrorCounters : Prop :=
  (∀ (s : State) (e : ErrInfo), e.correctable = true → e.kind < 16 →
    let c := tblGet 0#32 s.sys.errcnt e.kind
    let hits : Prop := c ≠ 0xFFFFFFFF ∧ c + 1 = s.sys.errThresh ∧ e.kind ∉ s.sys.reported
    ∃ t, exec (.errorDetected e) s = .next t ∧ t = s.correctable e.kind e.die.toNat e.inst.toNat ∧
      (∀ k, (tblGet 0#32 t.sys.errcnt k).toNat = if k = e.kind then min (c.toNat + 1) 0xFFFFFFFF
        else (tblGet 0#32 s.sys.errcnt k).toNat) ∧
      (hits → (∃ x, t.hif = { s.hif with records := s.hif.records ++ [x] } ∧
        (x.words.getD 0 0).toNat % 2 ^ 12 = e.kind + 2 ^ 8 * 4) ∧ t.sys.reported = e.kind :: s.sys.reported) ∧
      (¬ hits → t.hif = s.hif ∧ t.sys.reported = s.sys.reported) ∧
      t = { s with
        hif := t.hif
        sys := { s.sys with
          errcnt := t.sys.errcnt, reported := t.sys.reported, snapPend := t.sys.snapPend
          snapMissed := t.sys.snapMissed } }) ∧
  (∀ (s : State) (k : Nat) (v : W32), k < 16 → ∃ t, exec (.errcnt k v) s = .next t ∧
    (∀ j, tblGet 0#32 t.sys.errcnt j = if j = k then v else tblGet 0#32 s.sys.errcnt j) ∧
    (∀ j, j ∈ t.sys.reported ↔ j ∈ s.sys.reported ∧ j ≠ k) ∧
    t = { s with sys := { s.sys with errcnt := t.sys.errcnt, reported := t.sys.reported } }) ∧
  (∀ (s : State) (e : ErrInfo), e.correctable = false ∨ 16 ≤ e.kind → e.kind < 256 →
    ∃ t x, exec (.errorDetected e) s = .next t ∧ t.sys.errcnt = s.sys.errcnt ∧
      t.hif = { s.hif with records := s.hif.records ++ [x] } ∧ (x.words.getD 0 0).toNat % 2 ^ 12 = e.kind + 2 ^ 8 * 3 ∧
      x.words.getD 1 0 = e.addr ∧ (∀ w, BadWord.mem w ∈ e.words → t.psn (8 * w) = true) ∧
      (∀ c l w, BadWord.l1 c l w ∈ e.words → w < 8 → ∀ y ∈ (t.core c).l1, y.line = l → y.psn.getLsbD w = true) ∧
      (∀ c w, BadWord.narrow c w ∈ e.words → ∀ y ∈ (t.core c).narrow, y.1 / 8 = w → ∀ b p, y.2 = some (b, p) → p = true) ∧
      (∀ i w q, BadWord.packet i w ∈ e.words → w < 64 → t.fab.outbox[i]? = some q → q.psn.getLsbD w = true))

/-- One step and the instruction at the pc (11 R245). The schedule is the model's own (DESIGN CHOICE, log entry 13). -/
def Obligations.StepRunsDecoded : Prop :=
  (∀ (s : State) (i : Instr) (ws : List Nat) (rest : List Byte), (∀ w ∈ ws, w < 2 ^ 32) →
    (∀ j, j < ws.length → fetchWord s (s.g.pc + BitVec.ofNat 64 (4 * j)) = .word (BitVec.ofNat 32 (ws.getD j 0))) →
    decode (ws.flatMap wordBytes ++ rest) = .ok (i, rest) → s.front = .instr i) ∧
  (∀ (s : State) (r : List Sched), s.sys.powered = true →
    let t : State := ({ s with sched := r } : State).tick
    (s.sched = .unit s.g.unit :: r → s.g.mayIssue = true → s.unitOn s.g.unit = true → s.atFirmware = false →
      s.g.atEntry = false →
      (∀ i, t.front = .instr i → step s = match exec i t with
        | .next u => .next (u.quantumCheck s.g.retired)
        | x => x) ∧
      (t.front = .illegal → step s = exec (.unassignedEncoding 0) t) ∧
      (∀ c a x, t.front = .fault c a x → c ≠ 0x30 → step s = exec (.instructionFetchFault c a x) t)) ∧
    (∀ i, s.sched = .event i :: r → step s = exec i t))
/-- Sanity: a few words (11 R233, R234; the worked fragments of 12 and 18). -/
def Obligations.DecodeWords : Prop :=
  decodeTableWord 32 0x1FE0000C = some (.clause 0 none none false false false) ∧
  decodeTableWord 64 0x08000A55 = some (.movi 5 0) ∧
  decodeTableWord 32 0x00C28A44 = some (.add 5 5 (.r1 6)) ∧
  decodeTableWord 64 0xFFFFFFF800000C1D = some (.loop 6 0xFFFFFFF8) ∧
  decodeTableWord 64 0x0000000C08048A15 = some (.brc .eq 5 9 0x0C) ∧
  decodeTableWord 32 0x00000E24 = some (.trap 7) ∧
  decodeTableWord 32 0x0800001C = some .exit ∧
  decodeTableWord 32 0x008C09E4 = some (.csrrd 4 0x118) ∧
  decodeTableWord 32 0x2000001C = some .nop ∧
  decodeTableWord 32 0x00A201EC = some (.tlbinv 4 (.reg 5)) ∧
  decodeTableWord 32 0x080001EC = some .l1wb ∧
  decodeTableWord 32 0x100001EC = some .l1inv ∧
  decodeTableWord 32 0x180247EC = some (.pmark 0x123) ∧
  decodeTableWord 32 0x20000BEC = some (.snaptrig 5) ∧
  decodeTableWord 32 0x000001FC = none
/-- The round trip of the encoder and the decoder, for all instructions (11 R233 to R248). -/
def Obligations.RoundTrip : Prop :=
  (∀ (i : Instr) (rest : List Byte), wellFormed i = true → encode i ≠ [] →
    decode ((encode i).flatMap wordBytes ++ rest) = .ok (i, rest)) ∧
  ∀ i j : Instr, wellFormed i = true → wellFormed j = true → encode i ≠ [] → encode i = encode j → i = j
/-- Reset (18 R398, R399). Only values that the spec gives are named, besides the canonical form of memory. -/
def Obligations.ResetState : Prop :=
  let s := State.reset
  s.sys.boot = .rom ∧ s.sys.bootStep = 1 ∧ s.groups = [] ∧ (∀ c, (s.ctx c).exists_ = false) ∧
  (∀ q, s.queueDesc q = none ∧ tblGet false s.disp.ready q = false) ∧ s.tlb = [] ∧ s.fab.reqs = [] ∧
  (∀ d, (s.routeOf d).v = false ∧ (s.mgroup d).v = false) ∧ s.fab.devId = none ∧
  (∀ n, n < 12 → (s.flink n).st = .down) ∧ (∀ n, n < 20 → (s.sys.dlink n).1 ≠ .down) ∧
  s.sys.snapCtl = 0 ∧ s.sys.cycle = 0 ∧ s.wf = true ∧
  ∃ t, step s = .next t ∧ t.sys.bootStep = 2 ∧ t.sys.boot = .verify ∧ t.groups = []
/-- The canonical form of memory is an invariant of the whole machine: of every instruction, every event, the firmware's
handlers and the default order. The form is the model's own. -/
def Obligations.StepKeepsWf : Prop :=
  (∀ s t : State, s.wf = true → step s = .next t → t.wf = true) ∧
  ∀ (s t : State) (i : Instr), s.wf = true → exec i s = .next t → t.wf = true
end

