-- ==== Sys2Proof/Laws/Group.lean ====
section
/-!
SUPPORT. What each update of a group leaves in each field: one lemma per field per update.
-/
namespace Sys2Proof.Machine

@[simp] theorem Group.sSet_unit (g : Group) (r : SReg) (v : W64) : (g.sSet r v).unit = g.unit := by unfold Group.sSet; split <;> rfl
@[simp] theorem Group.sSet_gid (g : Group) (r : SReg) (v : W64) : (g.sSet r v).gid = g.gid := by unfold Group.sSet; split <;> rfl
@[simp] theorem Group.sSet_live (g : Group) (r : SReg) (v : W64) : (g.sSet r v).live = g.live := by unfold Group.sSet; split <;> rfl
@[simp] theorem Group.sSet_ctx (g : Group) (r : SReg) (v : W64) : (g.sSet r v).ctx = g.ctx := by unfold Group.sSet; split <;> rfl
@[simp] theorem Group.sSet_launch (g : Group) (r : SReg) (v : W64) : (g.sSet r v).launch = g.launch := by unfold Group.sSet; split <;> rfl
@[simp] theorem Group.sSet_team (g : Group) (r : SReg) (v : W64) : (g.sSet r v).team = g.team := by unfold Group.sSet; split <;> rfl
@[simp] theorem Group.sSet_n0 (g : Group) (r : SReg) (v : W64) : (g.sSet r v).n0 = g.n0 := by unfold Group.sSet; split <;> rfl
@[simp] theorem Group.sSet_nv (g : Group) (r : SReg) (v : W64) : (g.sSet r v).nv = g.nv := by unfold Group.sSet; split <;> rfl
@[simp] theorem Group.sSet_W (g : Group) (r : SReg) (v : W64) : (g.sSet r v).W = g.W := by unfold Group.sSet; split <;> rfl
@[simp] theorem Group.sSet_pc (g : Group) (r : SReg) (v : W64) : (g.sSet r v).pc = g.pc := by unfold Group.sSet; split <;> rfl
@[simp] theorem Group.sSet_hdr (g : Group) (r : SReg) (v : W64) : (g.sSet r v).hdr = g.hdr := by unfold Group.sSet; split <;> rfl
@[simp] theorem Group.sSet_fa (g : Group) (r : SReg) (v : W64) : (g.sSet r v).fa = g.fa := by unfold Group.sSet; split <;> rfl
@[simp] theorem Group.sSet_fb (g : Group) (r : SReg) (v : W64) : (g.sSet r v).fb = g.fb := by unfold Group.sSet; split <;> rfl
@[simp] theorem Group.sSet_v (g : Group) (r : SReg) (v : W64) : (g.sSet r v).v = g.v := by unfold Group.sSet; split <;> rfl
@[simp] theorem Group.sSet_m (g : Group) (r : SReg) (v : W64) : (g.sSet r v).m = g.m := by unfold Group.sSet; split <;> rfl
@[simp] theorem Group.sSet_k (g : Group) (r : SReg) (v : W64) : (g.sSet r v).k = g.k := by unfold Group.sSet; split <;> rfl
@[simp] theorem Group.sSet_f (g : Group) (r : SReg) (v : W64) : (g.sSet r v).f = g.f := by unfold Group.sSet; split <;> rfl
@[simp] theorem Group.sSet_pend (g : Group) (r : SReg) (v : W64) : (g.sSet r v).pend = g.pend := by unfold Group.sSet; split <;> rfl
@[simp] theorem Group.sSet_loads (g : Group) (r : SReg) (v : W64) : (g.sSet r v).loads = g.loads := by unfold Group.sSet; split <;> rfl
@[simp] theorem Group.sSet_fences (g : Group) (r : SReg) (v : W64) : (g.sSet r v).fences = g.fences := by unfold Group.sSet; split <;> rfl
@[simp] theorem Group.sSet_trapCause (g : Group) (r : SReg) (v : W64) : (g.sSet r v).trapCause = g.trapCause := by unfold Group.sSet; split <;> rfl
@[simp] theorem Group.sSet_trapPc (g : Group) (r : SReg) (v : W64) : (g.sSet r v).trapPc = g.trapPc := by unfold Group.sSet; split <;> rfl
@[simp] theorem Group.sSet_trapAddr (g : Group) (r : SReg) (v : W64) : (g.sSet r v).trapAddr = g.trapAddr := by unfold Group.sSet; split <;> rfl
@[simp] theorem Group.sSet_trapInfo (g : Group) (r : SReg) (v : W64) : (g.sSet r v).trapInfo = g.trapInfo := by unfold Group.sSet; split <;> rfl
@[simp] theorem Group.sSet_trapMask (g : Group) (r : SReg) (v : W64) : (g.sSet r v).trapMask = g.trapMask := by unfold Group.sSet; split <;> rfl
@[simp] theorem Group.sSet_trapHdr (g : Group) (r : SReg) (v : W64) : (g.sSet r v).trapHdr = g.trapHdr := by unfold Group.sSet; split <;> rfl
@[simp] theorem Group.sSet_save0 (g : Group) (r : SReg) (v : W64) : (g.sSet r v).save0 = g.save0 := by unfold Group.sSet; split <;> rfl
@[simp] theorem Group.sSet_save1 (g : Group) (r : SReg) (v : W64) : (g.sSet r v).save1 = g.save1 := by unfold Group.sSet; split <;> rfl
@[simp] theorem Group.sSet_utvec (g : Group) (r : SReg) (v : W64) : (g.sSet r v).utvec = g.utvec := by unfold Group.sSet; split <;> rfl
@[simp] theorem Group.sSet_handler (g : Group) (r : SReg) (v : W64) : (g.sSet r v).handler = g.handler := by unfold Group.sSet; split <;> rfl
@[simp] theorem Group.sSet_ufwd (g : Group) (r : SReg) (v : W64) : (g.sSet r v).ufwd = g.ufwd := by unfold Group.sSet; split <;> rfl
@[simp] theorem Group.sSet_saveBase (g : Group) (r : SReg) (v : W64) : (g.sSet r v).saveBase = g.saveBase := by unfold Group.sSet; split <;> rfl
@[simp] theorem Group.sSet_retired (g : Group) (r : SReg) (v : W64) : (g.sSet r v).retired = g.retired := by unfold Group.sSet; split <;> rfl
@[simp] theorem Group.sSet_gts (g : Group) (r : SReg) (v : W64) : (g.sSet r v).gts = g.gts := by unfold Group.sSet; split <;> rfl
@[simp] theorem Group.sSet_priv (g : Group) (r : SReg) (v : W64) : (g.sSet r v).priv = g.priv := by unfold Group.sSet; split <;> rfl
@[simp] theorem Group.sSet_rngKey (g : Group) (r : SReg) (v : W64) : (g.sSet r v).rngKey = g.rngKey := by unfold Group.sSet; split <;> rfl
@[simp] theorem Group.sSet_rngCtr (g : Group) (r : SReg) (v : W64) : (g.sSet r v).rngCtr = g.rngCtr := by unfold Group.sSet; split <;> rfl
@[simp] theorem Group.sSet_claims (g : Group) (r : SReg) (v : W64) : (g.sSet r v).claims = g.claims := by unfold Group.sSet; split <;> rfl
@[simp] theorem Group.sSet_gidx (g : Group) (r : SReg) (v : W64) : (g.sSet r v).gidx = g.gidx := by unfold Group.sSet; split <;> rfl
@[simp] theorem Group.sSet_ngrp (g : Group) (r : SReg) (v : W64) : (g.sSet r v).ngrp = g.ngrp := by unfold Group.sSet; split <;> rfl
@[simp] theorem Group.sSet_localNum (g : Group) (r : SReg) (v : W64) : (g.sSet r v).localNum = g.localNum := by unfold Group.sSet; split <;> rfl
@[simp] theorem Group.sSet_onCore (g : Group) (r : SReg) (v : W64) : (g.sSet r v).onCore = g.onCore := by unfold Group.sSet; split <;> rfl
@[simp] theorem Group.sSet_lvlIdx (g : Group) (r : SReg) (v : W64) : (g.sSet r v).lvlIdx = g.lvlIdx := by unfold Group.sSet; split <;> rfl
@[simp] theorem Group.sSet_lvlCnt (g : Group) (r : SReg) (v : W64) : (g.sSet r v).lvlCnt = g.lvlCnt := by unfold Group.sSet; split <;> rfl
@[simp] theorem Group.sSet_producer (g : Group) (r : SReg) (v : W64) : (g.sSet r v).producer = g.producer := by unfold Group.sSet; split <;> rfl
@[simp] theorem Group.sSet_block (g : Group) (r : SReg) (v : W64) : (g.sSet r v).block = g.block := by unfold Group.sSet; split <;> rfl
@[simp] theorem Group.sSet_atEntry (g : Group) (r : SReg) (v : W64) : (g.sSet r v).atEntry = g.atEntry := by unfold Group.sSet; split <;> rfl
@[simp] theorem Group.sSet_yielded (g : Group) (r : SReg) (v : W64) : (g.sSet r v).yielded = g.yielded := by unfold Group.sSet; split <;> rfl
@[simp] theorem Group.sSet_suspended (g : Group) (r : SReg) (v : W64) : (g.sSet r v).suspended = g.suspended := by unfold Group.sSet; split <;> rfl
@[simp] theorem Group.sSet_preempting (g : Group) (r : SReg) (v : W64) : (g.sSet r v).preempting = g.preempting := by unfold Group.sSet; split <;> rfl
@[simp] theorem Group.sSet_restored (g : Group) (r : SReg) (v : W64) : (g.sSet r v).restored = g.restored := by unfold Group.sSet; split <;> rfl
@[simp] theorem Group.sSet_det (g : Group) (r : SReg) (v : W64) : (g.sSet r v).det = g.det := by unfold Group.sSet; split <;> rfl
@[simp] theorem Group.sSet_task (g : Group) (r : SReg) (v : W64) : (g.sSet r v).task = g.task := by unfold Group.sSet; split <;> rfl
@[simp] theorem Group.sSet_exiting (g : Group) (r : SReg) (v : W64) : (g.sSet r v).exiting = g.exiting := by unfold Group.sSet; split <;> rfl
@[simp] theorem Group.sSet_sec (g : Group) (r : SReg) (v : W64) : (g.sSet r v).sec = g.sec := by unfold Group.sSet; split <;> rfl

@[simp] theorem Group.vSet_unit (g : Group) (r : VReg) (t : Nat) (x : W64) : (g.vSet r t x).unit = g.unit := by unfold Group.vSet; split <;> rfl
@[simp] theorem Group.vSet_gid (g : Group) (r : VReg) (t : Nat) (x : W64) : (g.vSet r t x).gid = g.gid := by unfold Group.vSet; split <;> rfl
@[simp] theorem Group.vSet_live (g : Group) (r : VReg) (t : Nat) (x : W64) : (g.vSet r t x).live = g.live := by unfold Group.vSet; split <;> rfl
@[simp] theorem Group.vSet_ctx (g : Group) (r : VReg) (t : Nat) (x : W64) : (g.vSet r t x).ctx = g.ctx := by unfold Group.vSet; split <;> rfl
@[simp] theorem Group.vSet_launch (g : Group) (r : VReg) (t : Nat) (x : W64) : (g.vSet r t x).launch = g.launch := by unfold Group.vSet; split <;> rfl
@[simp] theorem Group.vSet_team (g : Group) (r : VReg) (t : Nat) (x : W64) : (g.vSet r t x).team = g.team := by unfold Group.vSet; split <;> rfl
@[simp] theorem Group.vSet_n0 (g : Group) (r : VReg) (t : Nat) (x : W64) : (g.vSet r t x).n0 = g.n0 := by unfold Group.vSet; split <;> rfl
@[simp] theorem Group.vSet_nv (g : Group) (r : VReg) (t : Nat) (x : W64) : (g.vSet r t x).nv = g.nv := by unfold Group.vSet; split <;> rfl
@[simp] theorem Group.vSet_W (g : Group) (r : VReg) (t : Nat) (x : W64) : (g.vSet r t x).W = g.W := by unfold Group.vSet; split <;> rfl
@[simp] theorem Group.vSet_pc (g : Group) (r : VReg) (t : Nat) (x : W64) : (g.vSet r t x).pc = g.pc := by unfold Group.vSet; split <;> rfl
@[simp] theorem Group.vSet_hdr (g : Group) (r : VReg) (t : Nat) (x : W64) : (g.vSet r t x).hdr = g.hdr := by unfold Group.vSet; split <;> rfl
@[simp] theorem Group.vSet_fa (g : Group) (r : VReg) (t : Nat) (x : W64) : (g.vSet r t x).fa = g.fa := by unfold Group.vSet; split <;> rfl
@[simp] theorem Group.vSet_fb (g : Group) (r : VReg) (t : Nat) (x : W64) : (g.vSet r t x).fb = g.fb := by unfold Group.vSet; split <;> rfl
@[simp] theorem Group.vSet_s (g : Group) (r : VReg) (t : Nat) (x : W64) : (g.vSet r t x).s = g.s := by unfold Group.vSet; split <;> rfl
@[simp] theorem Group.vSet_m (g : Group) (r : VReg) (t : Nat) (x : W64) : (g.vSet r t x).m = g.m := by unfold Group.vSet; split <;> rfl
@[simp] theorem Group.vSet_k (g : Group) (r : VReg) (t : Nat) (x : W64) : (g.vSet r t x).k = g.k := by unfold Group.vSet; split <;> rfl
@[simp] theorem Group.vSet_f (g : Group) (r : VReg) (t : Nat) (x : W64) : (g.vSet r t x).f = g.f := by unfold Group.vSet; split <;> rfl
@[simp] theorem Group.vSet_pend (g : Group) (r : VReg) (t : Nat) (x : W64) : (g.vSet r t x).pend = g.pend := by unfold Group.vSet; split <;> rfl
@[simp] theorem Group.vSet_loads (g : Group) (r : VReg) (t : Nat) (x : W64) : (g.vSet r t x).loads = g.loads := by unfold Group.vSet; split <;> rfl
@[simp] theorem Group.vSet_fences (g : Group) (r : VReg) (t : Nat) (x : W64) : (g.vSet r t x).fences = g.fences := by unfold Group.vSet; split <;> rfl
@[simp] theorem Group.vSet_trapCause (g : Group) (r : VReg) (t : Nat) (x : W64) : (g.vSet r t x).trapCause = g.trapCause := by unfold Group.vSet; split <;> rfl
@[simp] theorem Group.vSet_trapPc (g : Group) (r : VReg) (t : Nat) (x : W64) : (g.vSet r t x).trapPc = g.trapPc := by unfold Group.vSet; split <;> rfl
@[simp] theorem Group.vSet_trapAddr (g : Group) (r : VReg) (t : Nat) (x : W64) : (g.vSet r t x).trapAddr = g.trapAddr := by unfold Group.vSet; split <;> rfl
@[simp] theorem Group.vSet_trapInfo (g : Group) (r : VReg) (t : Nat) (x : W64) : (g.vSet r t x).trapInfo = g.trapInfo := by unfold Group.vSet; split <;> rfl
@[simp] theorem Group.vSet_trapMask (g : Group) (r : VReg) (t : Nat) (x : W64) : (g.vSet r t x).trapMask = g.trapMask := by unfold Group.vSet; split <;> rfl
@[simp] theorem Group.vSet_trapHdr (g : Group) (r : VReg) (t : Nat) (x : W64) : (g.vSet r t x).trapHdr = g.trapHdr := by unfold Group.vSet; split <;> rfl
@[simp] theorem Group.vSet_save0 (g : Group) (r : VReg) (t : Nat) (x : W64) : (g.vSet r t x).save0 = g.save0 := by unfold Group.vSet; split <;> rfl
@[simp] theorem Group.vSet_save1 (g : Group) (r : VReg) (t : Nat) (x : W64) : (g.vSet r t x).save1 = g.save1 := by unfold Group.vSet; split <;> rfl
@[simp] theorem Group.vSet_utvec (g : Group) (r : VReg) (t : Nat) (x : W64) : (g.vSet r t x).utvec = g.utvec := by unfold Group.vSet; split <;> rfl
@[simp] theorem Group.vSet_handler (g : Group) (r : VReg) (t : Nat) (x : W64) : (g.vSet r t x).handler = g.handler := by unfold Group.vSet; split <;> rfl
@[simp] theorem Group.vSet_ufwd (g : Group) (r : VReg) (t : Nat) (x : W64) : (g.vSet r t x).ufwd = g.ufwd := by unfold Group.vSet; split <;> rfl
@[simp] theorem Group.vSet_saveBase (g : Group) (r : VReg) (t : Nat) (x : W64) : (g.vSet r t x).saveBase = g.saveBase := by unfold Group.vSet; split <;> rfl
@[simp] theorem Group.vSet_retired (g : Group) (r : VReg) (t : Nat) (x : W64) : (g.vSet r t x).retired = g.retired := by unfold Group.vSet; split <;> rfl
@[simp] theorem Group.vSet_gts (g : Group) (r : VReg) (t : Nat) (x : W64) : (g.vSet r t x).gts = g.gts := by unfold Group.vSet; split <;> rfl
@[simp] theorem Group.vSet_priv (g : Group) (r : VReg) (t : Nat) (x : W64) : (g.vSet r t x).priv = g.priv := by unfold Group.vSet; split <;> rfl
@[simp] theorem Group.vSet_rngKey (g : Group) (r : VReg) (t : Nat) (x : W64) : (g.vSet r t x).rngKey = g.rngKey := by unfold Group.vSet; split <;> rfl
@[simp] theorem Group.vSet_rngCtr (g : Group) (r : VReg) (t : Nat) (x : W64) : (g.vSet r t x).rngCtr = g.rngCtr := by unfold Group.vSet; split <;> rfl
@[simp] theorem Group.vSet_claims (g : Group) (r : VReg) (t : Nat) (x : W64) : (g.vSet r t x).claims = g.claims := by unfold Group.vSet; split <;> rfl
@[simp] theorem Group.vSet_gidx (g : Group) (r : VReg) (t : Nat) (x : W64) : (g.vSet r t x).gidx = g.gidx := by unfold Group.vSet; split <;> rfl
@[simp] theorem Group.vSet_ngrp (g : Group) (r : VReg) (t : Nat) (x : W64) : (g.vSet r t x).ngrp = g.ngrp := by unfold Group.vSet; split <;> rfl
@[simp] theorem Group.vSet_localNum (g : Group) (r : VReg) (t : Nat) (x : W64) : (g.vSet r t x).localNum = g.localNum := by unfold Group.vSet; split <;> rfl
@[simp] theorem Group.vSet_onCore (g : Group) (r : VReg) (t : Nat) (x : W64) : (g.vSet r t x).onCore = g.onCore := by unfold Group.vSet; split <;> rfl
@[simp] theorem Group.vSet_lvlIdx (g : Group) (r : VReg) (t : Nat) (x : W64) : (g.vSet r t x).lvlIdx = g.lvlIdx := by unfold Group.vSet; split <;> rfl
@[simp] theorem Group.vSet_lvlCnt (g : Group) (r : VReg) (t : Nat) (x : W64) : (g.vSet r t x).lvlCnt = g.lvlCnt := by unfold Group.vSet; split <;> rfl
@[simp] theorem Group.vSet_producer (g : Group) (r : VReg) (t : Nat) (x : W64) : (g.vSet r t x).producer = g.producer := by unfold Group.vSet; split <;> rfl
@[simp] theorem Group.vSet_block (g : Group) (r : VReg) (t : Nat) (x : W64) : (g.vSet r t x).block = g.block := by unfold Group.vSet; split <;> rfl
@[simp] theorem Group.vSet_atEntry (g : Group) (r : VReg) (t : Nat) (x : W64) : (g.vSet r t x).atEntry = g.atEntry := by unfold Group.vSet; split <;> rfl
@[simp] theorem Group.vSet_yielded (g : Group) (r : VReg) (t : Nat) (x : W64) : (g.vSet r t x).yielded = g.yielded := by unfold Group.vSet; split <;> rfl
@[simp] theorem Group.vSet_suspended (g : Group) (r : VReg) (t : Nat) (x : W64) : (g.vSet r t x).suspended = g.suspended := by unfold Group.vSet; split <;> rfl
@[simp] theorem Group.vSet_preempting (g : Group) (r : VReg) (t : Nat) (x : W64) : (g.vSet r t x).preempting = g.preempting := by unfold Group.vSet; split <;> rfl
@[simp] theorem Group.vSet_restored (g : Group) (r : VReg) (t : Nat) (x : W64) : (g.vSet r t x).restored = g.restored := by unfold Group.vSet; split <;> rfl
@[simp] theorem Group.vSet_det (g : Group) (r : VReg) (t : Nat) (x : W64) : (g.vSet r t x).det = g.det := by unfold Group.vSet; split <;> rfl
@[simp] theorem Group.vSet_task (g : Group) (r : VReg) (t : Nat) (x : W64) : (g.vSet r t x).task = g.task := by unfold Group.vSet; split <;> rfl
@[simp] theorem Group.vSet_exiting (g : Group) (r : VReg) (t : Nat) (x : W64) : (g.vSet r t x).exiting = g.exiting := by unfold Group.vSet; split <;> rfl
@[simp] theorem Group.vSet_sec (g : Group) (r : VReg) (t : Nat) (x : W64) : (g.vSet r t x).sec = g.sec := by unfold Group.vSet; split <;> rfl

@[simp] theorem Group.mSet_unit (g : Group) (r : MReg) (v : W32) : (g.mSet r v).unit = g.unit := rfl
@[simp] theorem Group.mSet_gid (g : Group) (r : MReg) (v : W32) : (g.mSet r v).gid = g.gid := rfl
@[simp] theorem Group.mSet_live (g : Group) (r : MReg) (v : W32) : (g.mSet r v).live = g.live := rfl
@[simp] theorem Group.mSet_ctx (g : Group) (r : MReg) (v : W32) : (g.mSet r v).ctx = g.ctx := rfl
@[simp] theorem Group.mSet_launch (g : Group) (r : MReg) (v : W32) : (g.mSet r v).launch = g.launch := rfl
@[simp] theorem Group.mSet_team (g : Group) (r : MReg) (v : W32) : (g.mSet r v).team = g.team := rfl
@[simp] theorem Group.mSet_n0 (g : Group) (r : MReg) (v : W32) : (g.mSet r v).n0 = g.n0 := rfl
@[simp] theorem Group.mSet_nv (g : Group) (r : MReg) (v : W32) : (g.mSet r v).nv = g.nv := rfl
@[simp] theorem Group.mSet_W (g : Group) (r : MReg) (v : W32) : (g.mSet r v).W = g.W := rfl
@[simp] theorem Group.mSet_pc (g : Group) (r : MReg) (v : W32) : (g.mSet r v).pc = g.pc := rfl
@[simp] theorem Group.mSet_hdr (g : Group) (r : MReg) (v : W32) : (g.mSet r v).hdr = g.hdr := rfl
@[simp] theorem Group.mSet_fa (g : Group) (r : MReg) (v : W32) : (g.mSet r v).fa = g.fa := rfl
@[simp] theorem Group.mSet_fb (g : Group) (r : MReg) (v : W32) : (g.mSet r v).fb = g.fb := rfl
@[simp] theorem Group.mSet_s (g : Group) (r : MReg) (v : W32) : (g.mSet r v).s = g.s := rfl
@[simp] theorem Group.mSet_v (g : Group) (r : MReg) (v : W32) : (g.mSet r v).v = g.v := rfl
@[simp] theorem Group.mSet_k (g : Group) (r : MReg) (v : W32) : (g.mSet r v).k = g.k := rfl
@[simp] theorem Group.mSet_f (g : Group) (r : MReg) (v : W32) : (g.mSet r v).f = g.f := rfl
@[simp] theorem Group.mSet_pend (g : Group) (r : MReg) (v : W32) : (g.mSet r v).pend = g.pend := rfl
@[simp] theorem Group.mSet_loads (g : Group) (r : MReg) (v : W32) : (g.mSet r v).loads = g.loads := rfl
@[simp] theorem Group.mSet_fences (g : Group) (r : MReg) (v : W32) : (g.mSet r v).fences = g.fences := rfl
@[simp] theorem Group.mSet_trapCause (g : Group) (r : MReg) (v : W32) : (g.mSet r v).trapCause = g.trapCause := rfl
@[simp] theorem Group.mSet_trapPc (g : Group) (r : MReg) (v : W32) : (g.mSet r v).trapPc = g.trapPc := rfl
@[simp] theorem Group.mSet_trapAddr (g : Group) (r : MReg) (v : W32) : (g.mSet r v).trapAddr = g.trapAddr := rfl
@[simp] theorem Group.mSet_trapInfo (g : Group) (r : MReg) (v : W32) : (g.mSet r v).trapInfo = g.trapInfo := rfl
@[simp] theorem Group.mSet_trapMask (g : Group) (r : MReg) (v : W32) : (g.mSet r v).trapMask = g.trapMask := rfl
@[simp] theorem Group.mSet_trapHdr (g : Group) (r : MReg) (v : W32) : (g.mSet r v).trapHdr = g.trapHdr := rfl
@[simp] theorem Group.mSet_save0 (g : Group) (r : MReg) (v : W32) : (g.mSet r v).save0 = g.save0 := rfl
@[simp] theorem Group.mSet_save1 (g : Group) (r : MReg) (v : W32) : (g.mSet r v).save1 = g.save1 := rfl
@[simp] theorem Group.mSet_utvec (g : Group) (r : MReg) (v : W32) : (g.mSet r v).utvec = g.utvec := rfl
@[simp] theorem Group.mSet_handler (g : Group) (r : MReg) (v : W32) : (g.mSet r v).handler = g.handler := rfl
@[simp] theorem Group.mSet_ufwd (g : Group) (r : MReg) (v : W32) : (g.mSet r v).ufwd = g.ufwd := rfl
@[simp] theorem Group.mSet_saveBase (g : Group) (r : MReg) (v : W32) : (g.mSet r v).saveBase = g.saveBase := rfl
@[simp] theorem Group.mSet_retired (g : Group) (r : MReg) (v : W32) : (g.mSet r v).retired = g.retired := rfl
@[simp] theorem Group.mSet_gts (g : Group) (r : MReg) (v : W32) : (g.mSet r v).gts = g.gts := rfl
@[simp] theorem Group.mSet_priv (g : Group) (r : MReg) (v : W32) : (g.mSet r v).priv = g.priv := rfl
@[simp] theorem Group.mSet_rngKey (g : Group) (r : MReg) (v : W32) : (g.mSet r v).rngKey = g.rngKey := rfl
@[simp] theorem Group.mSet_rngCtr (g : Group) (r : MReg) (v : W32) : (g.mSet r v).rngCtr = g.rngCtr := rfl
@[simp] theorem Group.mSet_claims (g : Group) (r : MReg) (v : W32) : (g.mSet r v).claims = g.claims := rfl
@[simp] theorem Group.mSet_gidx (g : Group) (r : MReg) (v : W32) : (g.mSet r v).gidx = g.gidx := rfl
@[simp] theorem Group.mSet_ngrp (g : Group) (r : MReg) (v : W32) : (g.mSet r v).ngrp = g.ngrp := rfl
@[simp] theorem Group.mSet_localNum (g : Group) (r : MReg) (v : W32) : (g.mSet r v).localNum = g.localNum := rfl
@[simp] theorem Group.mSet_onCore (g : Group) (r : MReg) (v : W32) : (g.mSet r v).onCore = g.onCore := rfl
@[simp] theorem Group.mSet_lvlIdx (g : Group) (r : MReg) (v : W32) : (g.mSet r v).lvlIdx = g.lvlIdx := rfl
@[simp] theorem Group.mSet_lvlCnt (g : Group) (r : MReg) (v : W32) : (g.mSet r v).lvlCnt = g.lvlCnt := rfl
@[simp] theorem Group.mSet_producer (g : Group) (r : MReg) (v : W32) : (g.mSet r v).producer = g.producer := rfl
@[simp] theorem Group.mSet_block (g : Group) (r : MReg) (v : W32) : (g.mSet r v).block = g.block := rfl
@[simp] theorem Group.mSet_atEntry (g : Group) (r : MReg) (v : W32) : (g.mSet r v).atEntry = g.atEntry := rfl
@[simp] theorem Group.mSet_yielded (g : Group) (r : MReg) (v : W32) : (g.mSet r v).yielded = g.yielded := rfl
@[simp] theorem Group.mSet_suspended (g : Group) (r : MReg) (v : W32) : (g.mSet r v).suspended = g.suspended := rfl
@[simp] theorem Group.mSet_preempting (g : Group) (r : MReg) (v : W32) : (g.mSet r v).preempting = g.preempting := rfl
@[simp] theorem Group.mSet_restored (g : Group) (r : MReg) (v : W32) : (g.mSet r v).restored = g.restored := rfl
@[simp] theorem Group.mSet_det (g : Group) (r : MReg) (v : W32) : (g.mSet r v).det = g.det := rfl
@[simp] theorem Group.mSet_task (g : Group) (r : MReg) (v : W32) : (g.mSet r v).task = g.task := rfl
@[simp] theorem Group.mSet_exiting (g : Group) (r : MReg) (v : W32) : (g.mSet r v).exiting = g.exiting := rfl
@[simp] theorem Group.mSet_sec (g : Group) (r : MReg) (v : W32) : (g.mSet r v).sec = g.sec := rfl

@[simp] theorem Group.kSet_unit (g : Group) (r : Nat) (t : Tok) : (g.kSet r t).unit = g.unit := rfl
@[simp] theorem Group.kSet_gid (g : Group) (r : Nat) (t : Tok) : (g.kSet r t).gid = g.gid := rfl
@[simp] theorem Group.kSet_live (g : Group) (r : Nat) (t : Tok) : (g.kSet r t).live = g.live := rfl
@[simp] theorem Group.kSet_ctx (g : Group) (r : Nat) (t : Tok) : (g.kSet r t).ctx = g.ctx := rfl
@[simp] theorem Group.kSet_launch (g : Group) (r : Nat) (t : Tok) : (g.kSet r t).launch = g.launch := rfl
@[simp] theorem Group.kSet_team (g : Group) (r : Nat) (t : Tok) : (g.kSet r t).team = g.team := rfl
@[simp] theorem Group.kSet_n0 (g : Group) (r : Nat) (t : Tok) : (g.kSet r t).n0 = g.n0 := rfl
@[simp] theorem Group.kSet_nv (g : Group) (r : Nat) (t : Tok) : (g.kSet r t).nv = g.nv := rfl
@[simp] theorem Group.kSet_W (g : Group) (r : Nat) (t : Tok) : (g.kSet r t).W = g.W := rfl
@[simp] theorem Group.kSet_pc (g : Group) (r : Nat) (t : Tok) : (g.kSet r t).pc = g.pc := rfl
@[simp] theorem Group.kSet_hdr (g : Group) (r : Nat) (t : Tok) : (g.kSet r t).hdr = g.hdr := rfl
@[simp] theorem Group.kSet_fa (g : Group) (r : Nat) (t : Tok) : (g.kSet r t).fa = g.fa := rfl
@[simp] theorem Group.kSet_fb (g : Group) (r : Nat) (t : Tok) : (g.kSet r t).fb = g.fb := rfl
@[simp] theorem Group.kSet_s (g : Group) (r : Nat) (t : Tok) : (g.kSet r t).s = g.s := rfl
@[simp] theorem Group.kSet_v (g : Group) (r : Nat) (t : Tok) : (g.kSet r t).v = g.v := rfl
@[simp] theorem Group.kSet_m (g : Group) (r : Nat) (t : Tok) : (g.kSet r t).m = g.m := rfl
@[simp] theorem Group.kSet_f (g : Group) (r : Nat) (t : Tok) : (g.kSet r t).f = g.f := rfl
@[simp] theorem Group.kSet_pend (g : Group) (r : Nat) (t : Tok) : (g.kSet r t).pend = g.pend := rfl
@[simp] theorem Group.kSet_loads (g : Group) (r : Nat) (t : Tok) : (g.kSet r t).loads = g.loads := rfl
@[simp] theorem Group.kSet_fences (g : Group) (r : Nat) (t : Tok) : (g.kSet r t).fences = g.fences := rfl
@[simp] theorem Group.kSet_trapCause (g : Group) (r : Nat) (t : Tok) : (g.kSet r t).trapCause = g.trapCause := rfl
@[simp] theorem Group.kSet_trapPc (g : Group) (r : Nat) (t : Tok) : (g.kSet r t).trapPc = g.trapPc := rfl
@[simp] theorem Group.kSet_trapAddr (g : Group) (r : Nat) (t : Tok) : (g.kSet r t).trapAddr = g.trapAddr := rfl
@[simp] theorem Group.kSet_trapInfo (g : Group) (r : Nat) (t : Tok) : (g.kSet r t).trapInfo = g.trapInfo := rfl
@[simp] theorem Group.kSet_trapMask (g : Group) (r : Nat) (t : Tok) : (g.kSet r t).trapMask = g.trapMask := rfl
@[simp] theorem Group.kSet_trapHdr (g : Group) (r : Nat) (t : Tok) : (g.kSet r t).trapHdr = g.trapHdr := rfl
@[simp] theorem Group.kSet_save0 (g : Group) (r : Nat) (t : Tok) : (g.kSet r t).save0 = g.save0 := rfl
@[simp] theorem Group.kSet_save1 (g : Group) (r : Nat) (t : Tok) : (g.kSet r t).save1 = g.save1 := rfl
@[simp] theorem Group.kSet_utvec (g : Group) (r : Nat) (t : Tok) : (g.kSet r t).utvec = g.utvec := rfl
@[simp] theorem Group.kSet_handler (g : Group) (r : Nat) (t : Tok) : (g.kSet r t).handler = g.handler := rfl
@[simp] theorem Group.kSet_ufwd (g : Group) (r : Nat) (t : Tok) : (g.kSet r t).ufwd = g.ufwd := rfl
@[simp] theorem Group.kSet_saveBase (g : Group) (r : Nat) (t : Tok) : (g.kSet r t).saveBase = g.saveBase := rfl
@[simp] theorem Group.kSet_retired (g : Group) (r : Nat) (t : Tok) : (g.kSet r t).retired = g.retired := rfl
@[simp] theorem Group.kSet_gts (g : Group) (r : Nat) (t : Tok) : (g.kSet r t).gts = g.gts := rfl
@[simp] theorem Group.kSet_priv (g : Group) (r : Nat) (t : Tok) : (g.kSet r t).priv = g.priv := rfl
@[simp] theorem Group.kSet_rngKey (g : Group) (r : Nat) (t : Tok) : (g.kSet r t).rngKey = g.rngKey := rfl
@[simp] theorem Group.kSet_rngCtr (g : Group) (r : Nat) (t : Tok) : (g.kSet r t).rngCtr = g.rngCtr := rfl
@[simp] theorem Group.kSet_claims (g : Group) (r : Nat) (t : Tok) : (g.kSet r t).claims = g.claims := rfl
@[simp] theorem Group.kSet_gidx (g : Group) (r : Nat) (t : Tok) : (g.kSet r t).gidx = g.gidx := rfl
@[simp] theorem Group.kSet_ngrp (g : Group) (r : Nat) (t : Tok) : (g.kSet r t).ngrp = g.ngrp := rfl
@[simp] theorem Group.kSet_localNum (g : Group) (r : Nat) (t : Tok) : (g.kSet r t).localNum = g.localNum := rfl
@[simp] theorem Group.kSet_onCore (g : Group) (r : Nat) (t : Tok) : (g.kSet r t).onCore = g.onCore := rfl
@[simp] theorem Group.kSet_lvlIdx (g : Group) (r : Nat) (t : Tok) : (g.kSet r t).lvlIdx = g.lvlIdx := rfl
@[simp] theorem Group.kSet_lvlCnt (g : Group) (r : Nat) (t : Tok) : (g.kSet r t).lvlCnt = g.lvlCnt := rfl
@[simp] theorem Group.kSet_producer (g : Group) (r : Nat) (t : Tok) : (g.kSet r t).producer = g.producer := rfl
@[simp] theorem Group.kSet_block (g : Group) (r : Nat) (t : Tok) : (g.kSet r t).block = g.block := rfl
@[simp] theorem Group.kSet_atEntry (g : Group) (r : Nat) (t : Tok) : (g.kSet r t).atEntry = g.atEntry := rfl
@[simp] theorem Group.kSet_yielded (g : Group) (r : Nat) (t : Tok) : (g.kSet r t).yielded = g.yielded := rfl
@[simp] theorem Group.kSet_suspended (g : Group) (r : Nat) (t : Tok) : (g.kSet r t).suspended = g.suspended := rfl
@[simp] theorem Group.kSet_preempting (g : Group) (r : Nat) (t : Tok) : (g.kSet r t).preempting = g.preempting := rfl
@[simp] theorem Group.kSet_restored (g : Group) (r : Nat) (t : Tok) : (g.kSet r t).restored = g.restored := rfl
@[simp] theorem Group.kSet_det (g : Group) (r : Nat) (t : Tok) : (g.kSet r t).det = g.det := rfl
@[simp] theorem Group.kSet_task (g : Group) (r : Nat) (t : Tok) : (g.kSet r t).task = g.task := rfl
@[simp] theorem Group.kSet_exiting (g : Group) (r : Nat) (t : Tok) : (g.kSet r t).exiting = g.exiting := rfl
@[simp] theorem Group.kSet_sec (g : Group) (r : Nat) (t : Tok) : (g.kSet r t).sec = g.sec := rfl

@[simp] theorem Group.fInc_unit (g : Group) (f : Nat) : (g.fInc f).unit = g.unit := rfl
@[simp] theorem Group.fInc_gid (g : Group) (f : Nat) : (g.fInc f).gid = g.gid := rfl
@[simp] theorem Group.fInc_live (g : Group) (f : Nat) : (g.fInc f).live = g.live := rfl
@[simp] theorem Group.fInc_ctx (g : Group) (f : Nat) : (g.fInc f).ctx = g.ctx := rfl
@[simp] theorem Group.fInc_launch (g : Group) (f : Nat) : (g.fInc f).launch = g.launch := rfl
@[simp] theorem Group.fInc_team (g : Group) (f : Nat) : (g.fInc f).team = g.team := rfl
@[simp] theorem Group.fInc_n0 (g : Group) (f : Nat) : (g.fInc f).n0 = g.n0 := rfl
@[simp] theorem Group.fInc_nv (g : Group) (f : Nat) : (g.fInc f).nv = g.nv := rfl
@[simp] theorem Group.fInc_W (g : Group) (f : Nat) : (g.fInc f).W = g.W := rfl
@[simp] theorem Group.fInc_pc (g : Group) (f : Nat) : (g.fInc f).pc = g.pc := rfl
@[simp] theorem Group.fInc_hdr (g : Group) (f : Nat) : (g.fInc f).hdr = g.hdr := rfl
@[simp] theorem Group.fInc_fa (g : Group) (f : Nat) : (g.fInc f).fa = g.fa := rfl
@[simp] theorem Group.fInc_fb (g : Group) (f : Nat) : (g.fInc f).fb = g.fb := rfl
@[simp] theorem Group.fInc_s (g : Group) (f : Nat) : (g.fInc f).s = g.s := rfl
@[simp] theorem Group.fInc_v (g : Group) (f : Nat) : (g.fInc f).v = g.v := rfl
@[simp] theorem Group.fInc_m (g : Group) (f : Nat) : (g.fInc f).m = g.m := rfl
@[simp] theorem Group.fInc_k (g : Group) (f : Nat) : (g.fInc f).k = g.k := rfl
@[simp] theorem Group.fInc_pend (g : Group) (f : Nat) : (g.fInc f).pend = g.pend := rfl
@[simp] theorem Group.fInc_loads (g : Group) (f : Nat) : (g.fInc f).loads = g.loads := rfl
@[simp] theorem Group.fInc_fences (g : Group) (f : Nat) : (g.fInc f).fences = g.fences := rfl
@[simp] theorem Group.fInc_trapCause (g : Group) (f : Nat) : (g.fInc f).trapCause = g.trapCause := rfl
@[simp] theorem Group.fInc_trapPc (g : Group) (f : Nat) : (g.fInc f).trapPc = g.trapPc := rfl
@[simp] theorem Group.fInc_trapAddr (g : Group) (f : Nat) : (g.fInc f).trapAddr = g.trapAddr := rfl
@[simp] theorem Group.fInc_trapInfo (g : Group) (f : Nat) : (g.fInc f).trapInfo = g.trapInfo := rfl
@[simp] theorem Group.fInc_trapMask (g : Group) (f : Nat) : (g.fInc f).trapMask = g.trapMask := rfl
@[simp] theorem Group.fInc_trapHdr (g : Group) (f : Nat) : (g.fInc f).trapHdr = g.trapHdr := rfl
@[simp] theorem Group.fInc_save0 (g : Group) (f : Nat) : (g.fInc f).save0 = g.save0 := rfl
@[simp] theorem Group.fInc_save1 (g : Group) (f : Nat) : (g.fInc f).save1 = g.save1 := rfl
@[simp] theorem Group.fInc_utvec (g : Group) (f : Nat) : (g.fInc f).utvec = g.utvec := rfl
@[simp] theorem Group.fInc_handler (g : Group) (f : Nat) : (g.fInc f).handler = g.handler := rfl
@[simp] theorem Group.fInc_ufwd (g : Group) (f : Nat) : (g.fInc f).ufwd = g.ufwd := rfl
@[simp] theorem Group.fInc_saveBase (g : Group) (f : Nat) : (g.fInc f).saveBase = g.saveBase := rfl
@[simp] theorem Group.fInc_retired (g : Group) (f : Nat) : (g.fInc f).retired = g.retired := rfl
@[simp] theorem Group.fInc_gts (g : Group) (f : Nat) : (g.fInc f).gts = g.gts := rfl
@[simp] theorem Group.fInc_priv (g : Group) (f : Nat) : (g.fInc f).priv = g.priv := rfl
@[simp] theorem Group.fInc_rngKey (g : Group) (f : Nat) : (g.fInc f).rngKey = g.rngKey := rfl
@[simp] theorem Group.fInc_rngCtr (g : Group) (f : Nat) : (g.fInc f).rngCtr = g.rngCtr := rfl
@[simp] theorem Group.fInc_claims (g : Group) (f : Nat) : (g.fInc f).claims = g.claims := rfl
@[simp] theorem Group.fInc_gidx (g : Group) (f : Nat) : (g.fInc f).gidx = g.gidx := rfl
@[simp] theorem Group.fInc_ngrp (g : Group) (f : Nat) : (g.fInc f).ngrp = g.ngrp := rfl
@[simp] theorem Group.fInc_localNum (g : Group) (f : Nat) : (g.fInc f).localNum = g.localNum := rfl
@[simp] theorem Group.fInc_onCore (g : Group) (f : Nat) : (g.fInc f).onCore = g.onCore := rfl
@[simp] theorem Group.fInc_lvlIdx (g : Group) (f : Nat) : (g.fInc f).lvlIdx = g.lvlIdx := rfl
@[simp] theorem Group.fInc_lvlCnt (g : Group) (f : Nat) : (g.fInc f).lvlCnt = g.lvlCnt := rfl
@[simp] theorem Group.fInc_producer (g : Group) (f : Nat) : (g.fInc f).producer = g.producer := rfl
@[simp] theorem Group.fInc_block (g : Group) (f : Nat) : (g.fInc f).block = g.block := rfl
@[simp] theorem Group.fInc_atEntry (g : Group) (f : Nat) : (g.fInc f).atEntry = g.atEntry := rfl
@[simp] theorem Group.fInc_yielded (g : Group) (f : Nat) : (g.fInc f).yielded = g.yielded := rfl
@[simp] theorem Group.fInc_suspended (g : Group) (f : Nat) : (g.fInc f).suspended = g.suspended := rfl
@[simp] theorem Group.fInc_preempting (g : Group) (f : Nat) : (g.fInc f).preempting = g.preempting := rfl
@[simp] theorem Group.fInc_restored (g : Group) (f : Nat) : (g.fInc f).restored = g.restored := rfl
@[simp] theorem Group.fInc_det (g : Group) (f : Nat) : (g.fInc f).det = g.det := rfl
@[simp] theorem Group.fInc_task (g : Group) (f : Nat) : (g.fInc f).task = g.task := rfl
@[simp] theorem Group.fInc_exiting (g : Group) (f : Nat) : (g.fInc f).exiting = g.exiting := rfl
@[simp] theorem Group.fInc_sec (g : Group) (f : Nat) : (g.fInc f).sec = g.sec := rfl

@[simp] theorem Group.fDec_unit (g : Group) (f : Nat) : (g.fDec f).unit = g.unit := rfl
@[simp] theorem Group.fDec_gid (g : Group) (f : Nat) : (g.fDec f).gid = g.gid := rfl
@[simp] theorem Group.fDec_live (g : Group) (f : Nat) : (g.fDec f).live = g.live := rfl
@[simp] theorem Group.fDec_ctx (g : Group) (f : Nat) : (g.fDec f).ctx = g.ctx := rfl
@[simp] theorem Group.fDec_launch (g : Group) (f : Nat) : (g.fDec f).launch = g.launch := rfl
@[simp] theorem Group.fDec_team (g : Group) (f : Nat) : (g.fDec f).team = g.team := rfl
@[simp] theorem Group.fDec_n0 (g : Group) (f : Nat) : (g.fDec f).n0 = g.n0 := rfl
@[simp] theorem Group.fDec_nv (g : Group) (f : Nat) : (g.fDec f).nv = g.nv := rfl
@[simp] theorem Group.fDec_W (g : Group) (f : Nat) : (g.fDec f).W = g.W := rfl
@[simp] theorem Group.fDec_pc (g : Group) (f : Nat) : (g.fDec f).pc = g.pc := rfl
@[simp] theorem Group.fDec_hdr (g : Group) (f : Nat) : (g.fDec f).hdr = g.hdr := rfl
@[simp] theorem Group.fDec_fa (g : Group) (f : Nat) : (g.fDec f).fa = g.fa := rfl
@[simp] theorem Group.fDec_fb (g : Group) (f : Nat) : (g.fDec f).fb = g.fb := rfl
@[simp] theorem Group.fDec_s (g : Group) (f : Nat) : (g.fDec f).s = g.s := rfl
@[simp] theorem Group.fDec_v (g : Group) (f : Nat) : (g.fDec f).v = g.v := rfl
@[simp] theorem Group.fDec_m (g : Group) (f : Nat) : (g.fDec f).m = g.m := rfl
@[simp] theorem Group.fDec_k (g : Group) (f : Nat) : (g.fDec f).k = g.k := rfl
@[simp] theorem Group.fDec_pend (g : Group) (f : Nat) : (g.fDec f).pend = g.pend := rfl
@[simp] theorem Group.fDec_loads (g : Group) (f : Nat) : (g.fDec f).loads = g.loads := rfl
@[simp] theorem Group.fDec_fences (g : Group) (f : Nat) : (g.fDec f).fences = g.fences := rfl
@[simp] theorem Group.fDec_trapCause (g : Group) (f : Nat) : (g.fDec f).trapCause = g.trapCause := rfl
@[simp] theorem Group.fDec_trapPc (g : Group) (f : Nat) : (g.fDec f).trapPc = g.trapPc := rfl
@[simp] theorem Group.fDec_trapAddr (g : Group) (f : Nat) : (g.fDec f).trapAddr = g.trapAddr := rfl
@[simp] theorem Group.fDec_trapInfo (g : Group) (f : Nat) : (g.fDec f).trapInfo = g.trapInfo := rfl
@[simp] theorem Group.fDec_trapMask (g : Group) (f : Nat) : (g.fDec f).trapMask = g.trapMask := rfl
@[simp] theorem Group.fDec_trapHdr (g : Group) (f : Nat) : (g.fDec f).trapHdr = g.trapHdr := rfl
@[simp] theorem Group.fDec_save0 (g : Group) (f : Nat) : (g.fDec f).save0 = g.save0 := rfl
@[simp] theorem Group.fDec_save1 (g : Group) (f : Nat) : (g.fDec f).save1 = g.save1 := rfl
@[simp] theorem Group.fDec_utvec (g : Group) (f : Nat) : (g.fDec f).utvec = g.utvec := rfl
@[simp] theorem Group.fDec_handler (g : Group) (f : Nat) : (g.fDec f).handler = g.handler := rfl
@[simp] theorem Group.fDec_ufwd (g : Group) (f : Nat) : (g.fDec f).ufwd = g.ufwd := rfl
@[simp] theorem Group.fDec_saveBase (g : Group) (f : Nat) : (g.fDec f).saveBase = g.saveBase := rfl
@[simp] theorem Group.fDec_retired (g : Group) (f : Nat) : (g.fDec f).retired = g.retired := rfl
@[simp] theorem Group.fDec_gts (g : Group) (f : Nat) : (g.fDec f).gts = g.gts := rfl
@[simp] theorem Group.fDec_priv (g : Group) (f : Nat) : (g.fDec f).priv = g.priv := rfl
@[simp] theorem Group.fDec_rngKey (g : Group) (f : Nat) : (g.fDec f).rngKey = g.rngKey := rfl
@[simp] theorem Group.fDec_rngCtr (g : Group) (f : Nat) : (g.fDec f).rngCtr = g.rngCtr := rfl
@[simp] theorem Group.fDec_claims (g : Group) (f : Nat) : (g.fDec f).claims = g.claims := rfl
@[simp] theorem Group.fDec_gidx (g : Group) (f : Nat) : (g.fDec f).gidx = g.gidx := rfl
@[simp] theorem Group.fDec_ngrp (g : Group) (f : Nat) : (g.fDec f).ngrp = g.ngrp := rfl
@[simp] theorem Group.fDec_localNum (g : Group) (f : Nat) : (g.fDec f).localNum = g.localNum := rfl
@[simp] theorem Group.fDec_onCore (g : Group) (f : Nat) : (g.fDec f).onCore = g.onCore := rfl
@[simp] theorem Group.fDec_lvlIdx (g : Group) (f : Nat) : (g.fDec f).lvlIdx = g.lvlIdx := rfl
@[simp] theorem Group.fDec_lvlCnt (g : Group) (f : Nat) : (g.fDec f).lvlCnt = g.lvlCnt := rfl
@[simp] theorem Group.fDec_producer (g : Group) (f : Nat) : (g.fDec f).producer = g.producer := rfl
@[simp] theorem Group.fDec_block (g : Group) (f : Nat) : (g.fDec f).block = g.block := rfl
@[simp] theorem Group.fDec_atEntry (g : Group) (f : Nat) : (g.fDec f).atEntry = g.atEntry := rfl
@[simp] theorem Group.fDec_yielded (g : Group) (f : Nat) : (g.fDec f).yielded = g.yielded := rfl
@[simp] theorem Group.fDec_suspended (g : Group) (f : Nat) : (g.fDec f).suspended = g.suspended := rfl
@[simp] theorem Group.fDec_preempting (g : Group) (f : Nat) : (g.fDec f).preempting = g.preempting := rfl
@[simp] theorem Group.fDec_restored (g : Group) (f : Nat) : (g.fDec f).restored = g.restored := rfl
@[simp] theorem Group.fDec_det (g : Group) (f : Nat) : (g.fDec f).det = g.det := rfl
@[simp] theorem Group.fDec_task (g : Group) (f : Nat) : (g.fDec f).task = g.task := rfl
@[simp] theorem Group.fDec_exiting (g : Group) (f : Nat) : (g.fDec f).exiting = g.exiting := rfl
@[simp] theorem Group.fDec_sec (g : Group) (f : Nat) : (g.fDec f).sec = g.sec := rfl

@[simp] theorem Group.retire_unit (g : Group) (n : Nat) : (g.retire n).unit = g.unit := rfl
@[simp] theorem Group.retire_gid (g : Group) (n : Nat) : (g.retire n).gid = g.gid := rfl
@[simp] theorem Group.retire_live (g : Group) (n : Nat) : (g.retire n).live = g.live := rfl
@[simp] theorem Group.retire_ctx (g : Group) (n : Nat) : (g.retire n).ctx = g.ctx := rfl
@[simp] theorem Group.retire_launch (g : Group) (n : Nat) : (g.retire n).launch = g.launch := rfl
@[simp] theorem Group.retire_team (g : Group) (n : Nat) : (g.retire n).team = g.team := rfl
@[simp] theorem Group.retire_n0 (g : Group) (n : Nat) : (g.retire n).n0 = g.n0 := rfl
@[simp] theorem Group.retire_nv (g : Group) (n : Nat) : (g.retire n).nv = g.nv := rfl
@[simp] theorem Group.retire_W (g : Group) (n : Nat) : (g.retire n).W = g.W := rfl
@[simp] theorem Group.retire_pc (g : Group) (n : Nat) : (g.retire n).pc = g.pc + BitVec.ofNat 64 (4 * n) := rfl
@[simp] theorem Group.retire_hdr (g : Group) (n : Nat) : (g.retire n).hdr = g.hdr := rfl
@[simp] theorem Group.retire_fa (g : Group) (n : Nat) : (g.retire n).fa = g.fa := rfl
@[simp] theorem Group.retire_fb (g : Group) (n : Nat) : (g.retire n).fb = g.fb := rfl
@[simp] theorem Group.retire_s (g : Group) (n : Nat) : (g.retire n).s = g.s := rfl
@[simp] theorem Group.retire_v (g : Group) (n : Nat) : (g.retire n).v = g.v := rfl
@[simp] theorem Group.retire_m (g : Group) (n : Nat) : (g.retire n).m = g.m := rfl
@[simp] theorem Group.retire_k (g : Group) (n : Nat) : (g.retire n).k = g.k := rfl
@[simp] theorem Group.retire_f (g : Group) (n : Nat) : (g.retire n).f = g.f := rfl
@[simp] theorem Group.retire_pend (g : Group) (n : Nat) : (g.retire n).pend = g.pend := rfl
@[simp] theorem Group.retire_loads (g : Group) (n : Nat) : (g.retire n).loads = g.loads := rfl
@[simp] theorem Group.retire_fences (g : Group) (n : Nat) : (g.retire n).fences = g.fences := rfl
@[simp] theorem Group.retire_trapCause (g : Group) (n : Nat) : (g.retire n).trapCause = g.trapCause := rfl
@[simp] theorem Group.retire_trapPc (g : Group) (n : Nat) : (g.retire n).trapPc = g.trapPc := rfl
@[simp] theorem Group.retire_trapAddr (g : Group) (n : Nat) : (g.retire n).trapAddr = g.trapAddr := rfl
@[simp] theorem Group.retire_trapInfo (g : Group) (n : Nat) : (g.retire n).trapInfo = g.trapInfo := rfl
@[simp] theorem Group.retire_trapMask (g : Group) (n : Nat) : (g.retire n).trapMask = g.trapMask := rfl
@[simp] theorem Group.retire_trapHdr (g : Group) (n : Nat) : (g.retire n).trapHdr = g.trapHdr := rfl
@[simp] theorem Group.retire_save0 (g : Group) (n : Nat) : (g.retire n).save0 = g.save0 := rfl
@[simp] theorem Group.retire_save1 (g : Group) (n : Nat) : (g.retire n).save1 = g.save1 := rfl
@[simp] theorem Group.retire_utvec (g : Group) (n : Nat) : (g.retire n).utvec = g.utvec := rfl
@[simp] theorem Group.retire_handler (g : Group) (n : Nat) : (g.retire n).handler = g.handler := rfl
@[simp] theorem Group.retire_ufwd (g : Group) (n : Nat) : (g.retire n).ufwd = g.ufwd := rfl
@[simp] theorem Group.retire_saveBase (g : Group) (n : Nat) : (g.retire n).saveBase = g.saveBase := rfl
@[simp] theorem Group.retire_retired (g : Group) (n : Nat) : (g.retire n).retired = if g.handler then g.retired else g.retired + 1 := rfl
@[simp] theorem Group.retire_gts (g : Group) (n : Nat) : (g.retire n).gts = g.gts := rfl
@[simp] theorem Group.retire_priv (g : Group) (n : Nat) : (g.retire n).priv = g.priv := rfl
@[simp] theorem Group.retire_rngKey (g : Group) (n : Nat) : (g.retire n).rngKey = g.rngKey := rfl
@[simp] theorem Group.retire_rngCtr (g : Group) (n : Nat) : (g.retire n).rngCtr = g.rngCtr := rfl
@[simp] theorem Group.retire_claims (g : Group) (n : Nat) : (g.retire n).claims = g.claims := rfl
@[simp] theorem Group.retire_gidx (g : Group) (n : Nat) : (g.retire n).gidx = g.gidx := rfl
@[simp] theorem Group.retire_ngrp (g : Group) (n : Nat) : (g.retire n).ngrp = g.ngrp := rfl
@[simp] theorem Group.retire_localNum (g : Group) (n : Nat) : (g.retire n).localNum = g.localNum := rfl
@[simp] theorem Group.retire_onCore (g : Group) (n : Nat) : (g.retire n).onCore = g.onCore := rfl
@[simp] theorem Group.retire_lvlIdx (g : Group) (n : Nat) : (g.retire n).lvlIdx = g.lvlIdx := rfl
@[simp] theorem Group.retire_lvlCnt (g : Group) (n : Nat) : (g.retire n).lvlCnt = g.lvlCnt := rfl
@[simp] theorem Group.retire_producer (g : Group) (n : Nat) : (g.retire n).producer = g.producer := rfl
@[simp] theorem Group.retire_block (g : Group) (n : Nat) : (g.retire n).block = none := rfl
@[simp] theorem Group.retire_atEntry (g : Group) (n : Nat) : (g.retire n).atEntry = g.atEntry := rfl
@[simp] theorem Group.retire_yielded (g : Group) (n : Nat) : (g.retire n).yielded = g.yielded := rfl
@[simp] theorem Group.retire_suspended (g : Group) (n : Nat) : (g.retire n).suspended = g.suspended := rfl
@[simp] theorem Group.retire_preempting (g : Group) (n : Nat) : (g.retire n).preempting = g.preempting := rfl
@[simp] theorem Group.retire_restored (g : Group) (n : Nat) : (g.retire n).restored = g.restored := rfl
@[simp] theorem Group.retire_det (g : Group) (n : Nat) : (g.retire n).det = g.det := rfl
@[simp] theorem Group.retire_task (g : Group) (n : Nat) : (g.retire n).task = g.task := rfl
@[simp] theorem Group.retire_exiting (g : Group) (n : Nat) : (g.retire n).exiting = g.exiting := rfl
@[simp] theorem Group.retire_sec (g : Group) (n : Nat) : (g.retire n).sec = g.sec := rfl

@[simp] theorem Group.retireTo_unit (g : Group) (a : W64) : (g.retireTo a).unit = g.unit := rfl
@[simp] theorem Group.retireTo_gid (g : Group) (a : W64) : (g.retireTo a).gid = g.gid := rfl
@[simp] theorem Group.retireTo_live (g : Group) (a : W64) : (g.retireTo a).live = g.live := rfl
@[simp] theorem Group.retireTo_ctx (g : Group) (a : W64) : (g.retireTo a).ctx = g.ctx := rfl
@[simp] theorem Group.retireTo_launch (g : Group) (a : W64) : (g.retireTo a).launch = g.launch := rfl
@[simp] theorem Group.retireTo_team (g : Group) (a : W64) : (g.retireTo a).team = g.team := rfl
@[simp] theorem Group.retireTo_n0 (g : Group) (a : W64) : (g.retireTo a).n0 = g.n0 := rfl
@[simp] theorem Group.retireTo_nv (g : Group) (a : W64) : (g.retireTo a).nv = g.nv := rfl
@[simp] theorem Group.retireTo_W (g : Group) (a : W64) : (g.retireTo a).W = g.W := rfl
@[simp] theorem Group.retireTo_pc (g : Group) (a : W64) : (g.retireTo a).pc = a := rfl
@[simp] theorem Group.retireTo_hdr (g : Group) (a : W64) : (g.retireTo a).hdr = g.hdr := rfl
@[simp] theorem Group.retireTo_fa (g : Group) (a : W64) : (g.retireTo a).fa = g.fa := rfl
@[simp] theorem Group.retireTo_fb (g : Group) (a : W64) : (g.retireTo a).fb = g.fb := rfl
@[simp] theorem Group.retireTo_s (g : Group) (a : W64) : (g.retireTo a).s = g.s := rfl
@[simp] theorem Group.retireTo_v (g : Group) (a : W64) : (g.retireTo a).v = g.v := rfl
@[simp] theorem Group.retireTo_m (g : Group) (a : W64) : (g.retireTo a).m = g.m := rfl
@[simp] theorem Group.retireTo_k (g : Group) (a : W64) : (g.retireTo a).k = g.k := rfl
@[simp] theorem Group.retireTo_f (g : Group) (a : W64) : (g.retireTo a).f = g.f := rfl
@[simp] theorem Group.retireTo_pend (g : Group) (a : W64) : (g.retireTo a).pend = g.pend := rfl
@[simp] theorem Group.retireTo_loads (g : Group) (a : W64) : (g.retireTo a).loads = g.loads := rfl
@[simp] theorem Group.retireTo_fences (g : Group) (a : W64) : (g.retireTo a).fences = g.fences := rfl
@[simp] theorem Group.retireTo_trapCause (g : Group) (a : W64) : (g.retireTo a).trapCause = g.trapCause := rfl
@[simp] theorem Group.retireTo_trapPc (g : Group) (a : W64) : (g.retireTo a).trapPc = g.trapPc := rfl
@[simp] theorem Group.retireTo_trapAddr (g : Group) (a : W64) : (g.retireTo a).trapAddr = g.trapAddr := rfl
@[simp] theorem Group.retireTo_trapInfo (g : Group) (a : W64) : (g.retireTo a).trapInfo = g.trapInfo := rfl
@[simp] theorem Group.retireTo_trapMask (g : Group) (a : W64) : (g.retireTo a).trapMask = g.trapMask := rfl
@[simp] theorem Group.retireTo_trapHdr (g : Group) (a : W64) : (g.retireTo a).trapHdr = g.trapHdr := rfl
@[simp] theorem Group.retireTo_save0 (g : Group) (a : W64) : (g.retireTo a).save0 = g.save0 := rfl
@[simp] theorem Group.retireTo_save1 (g : Group) (a : W64) : (g.retireTo a).save1 = g.save1 := rfl
@[simp] theorem Group.retireTo_utvec (g : Group) (a : W64) : (g.retireTo a).utvec = g.utvec := rfl
@[simp] theorem Group.retireTo_handler (g : Group) (a : W64) : (g.retireTo a).handler = g.handler := rfl
@[simp] theorem Group.retireTo_ufwd (g : Group) (a : W64) : (g.retireTo a).ufwd = g.ufwd := rfl
@[simp] theorem Group.retireTo_saveBase (g : Group) (a : W64) : (g.retireTo a).saveBase = g.saveBase := rfl
@[simp] theorem Group.retireTo_retired (g : Group) (a : W64) : (g.retireTo a).retired = if g.handler then g.retired else g.retired + 1 := rfl
@[simp] theorem Group.retireTo_gts (g : Group) (a : W64) : (g.retireTo a).gts = g.gts := rfl
@[simp] theorem Group.retireTo_priv (g : Group) (a : W64) : (g.retireTo a).priv = g.priv := rfl
@[simp] theorem Group.retireTo_rngKey (g : Group) (a : W64) : (g.retireTo a).rngKey = g.rngKey := rfl
@[simp] theorem Group.retireTo_rngCtr (g : Group) (a : W64) : (g.retireTo a).rngCtr = g.rngCtr := rfl
@[simp] theorem Group.retireTo_claims (g : Group) (a : W64) : (g.retireTo a).claims = g.claims := rfl
@[simp] theorem Group.retireTo_gidx (g : Group) (a : W64) : (g.retireTo a).gidx = g.gidx := rfl
@[simp] theorem Group.retireTo_ngrp (g : Group) (a : W64) : (g.retireTo a).ngrp = g.ngrp := rfl
@[simp] theorem Group.retireTo_localNum (g : Group) (a : W64) : (g.retireTo a).localNum = g.localNum := rfl
@[simp] theorem Group.retireTo_onCore (g : Group) (a : W64) : (g.retireTo a).onCore = g.onCore := rfl
@[simp] theorem Group.retireTo_lvlIdx (g : Group) (a : W64) : (g.retireTo a).lvlIdx = g.lvlIdx := rfl
@[simp] theorem Group.retireTo_lvlCnt (g : Group) (a : W64) : (g.retireTo a).lvlCnt = g.lvlCnt := rfl
@[simp] theorem Group.retireTo_producer (g : Group) (a : W64) : (g.retireTo a).producer = g.producer := rfl
@[simp] theorem Group.retireTo_block (g : Group) (a : W64) : (g.retireTo a).block = none := rfl
@[simp] theorem Group.retireTo_atEntry (g : Group) (a : W64) : (g.retireTo a).atEntry = g.atEntry := rfl
@[simp] theorem Group.retireTo_yielded (g : Group) (a : W64) : (g.retireTo a).yielded = g.yielded := rfl
@[simp] theorem Group.retireTo_suspended (g : Group) (a : W64) : (g.retireTo a).suspended = g.suspended := rfl
@[simp] theorem Group.retireTo_preempting (g : Group) (a : W64) : (g.retireTo a).preempting = g.preempting := rfl
@[simp] theorem Group.retireTo_restored (g : Group) (a : W64) : (g.retireTo a).restored = g.restored := rfl
@[simp] theorem Group.retireTo_det (g : Group) (a : W64) : (g.retireTo a).det = g.det := rfl
@[simp] theorem Group.retireTo_task (g : Group) (a : W64) : (g.retireTo a).task = g.task := rfl
@[simp] theorem Group.retireTo_exiting (g : Group) (a : W64) : (g.retireTo a).exiting = g.exiting := rfl
@[simp] theorem Group.retireTo_sec (g : Group) (a : W64) : (g.retireTo a).sec = g.sec := rfl

end Sys2Proof.Machine
end

