-- ==== Sys2Proof/Laws/State.lean ====
section
/-!
SUPPORT. What each update of State leaves in each field: one lemma per field per update.
-/
namespace Sys2Proof.Machine

@[simp] theorem State.setG_g (s : State) (g : Group) : (s.setG g).g = g := rfl
@[simp] theorem State.setG_parked (s : State) (g : Group) : (s.setG g).parked = s.parked := rfl
@[simp] theorem State.setG_sched (s : State) (g : Group) : (s.setG g).sched = s.sched := rfl
@[simp] theorem State.setG_draws (s : State) (g : Group) : (s.setG g).draws = s.draws := rfl
@[simp] theorem State.setG_nextId (s : State) (g : Group) : (s.setG g).nextId = s.nextId := rfl
@[simp] theorem State.setG_mem (s : State) (g : Group) : (s.setG g).mem = s.mem := rfl
@[simp] theorem State.setG_poison (s : State) (g : Group) : (s.setG g).poison = s.poison := rfl
@[simp] theorem State.setG_wts (s : State) (g : Group) : (s.setG g).wts = s.wts := rfl
@[simp] theorem State.setG_rts (s : State) (g : Group) : (s.setG g).rts = s.rts := rfl
@[simp] theorem State.setG_pclk (s : State) (g : Group) : (s.setG g).pclk = s.pclk := rfl
@[simp] theorem State.setG_homeQ (s : State) (g : Group) : (s.setG g).homeQ = s.homeQ := rfl
@[simp] theorem State.setG_tlb (s : State) (g : Group) : (s.setG g).tlb = s.tlb := rfl
@[simp] theorem State.setG_walks (s : State) (g : Group) : (s.setG g).walks = s.walks := rfl
@[simp] theorem State.setG_invals (s : State) (g : Group) : (s.setG g).invals = s.invals := rfl
@[simp] theorem State.setG_cores (s : State) (g : Group) : (s.setG g).cores = s.cores := rfl
@[simp] theorem State.setG_arrays (s : State) (g : Group) : (s.setG g).arrays = s.arrays := rfl
@[simp] theorem State.setG_dampers (s : State) (g : Group) : (s.setG g).dampers = s.dampers := rfl
@[simp] theorem State.setG_riddle (s : State) (g : Group) : (s.setG g).riddle = s.riddle := rfl
@[simp] theorem State.setG_images (s : State) (g : Group) : (s.setG g).images = s.images := rfl
@[simp] theorem State.setG_ctxs (s : State) (g : Group) : (s.setG g).ctxs = s.ctxs := rfl
@[simp] theorem State.setG_disp (s : State) (g : Group) : (s.setG g).disp = s.disp := rfl
@[simp] theorem State.setG_own (s : State) (g : Group) : (s.setG g).own = s.own := rfl
@[simp] theorem State.setG_fab (s : State) (g : Group) : (s.setG g).fab = s.fab := rfl
@[simp] theorem State.setG_hif (s : State) (g : Group) : (s.setG g).hif = s.hif := rfl
@[simp] theorem State.setG_sys (s : State) (g : Group) : (s.setG g).sys = s.sys := rfl

@[simp] theorem State.setByte_g (s : State) (k : Nat) (b : Byte) : (s.setByte k b).g = s.g := rfl
@[simp] theorem State.setByte_parked (s : State) (k : Nat) (b : Byte) : (s.setByte k b).parked = s.parked := rfl
@[simp] theorem State.setByte_sched (s : State) (k : Nat) (b : Byte) : (s.setByte k b).sched = s.sched := rfl
@[simp] theorem State.setByte_draws (s : State) (k : Nat) (b : Byte) : (s.setByte k b).draws = s.draws := rfl
@[simp] theorem State.setByte_nextId (s : State) (k : Nat) (b : Byte) : (s.setByte k b).nextId = s.nextId := rfl
@[simp] theorem State.setByte_mem (s : State) (k : Nat) (b : Byte) : (s.setByte k b).mem = tblSet memDefault s.mem k b := rfl
@[simp] theorem State.setByte_poison (s : State) (k : Nat) (b : Byte) : (s.setByte k b).poison = s.poison := rfl
@[simp] theorem State.setByte_wts (s : State) (k : Nat) (b : Byte) : (s.setByte k b).wts = s.wts := rfl
@[simp] theorem State.setByte_rts (s : State) (k : Nat) (b : Byte) : (s.setByte k b).rts = s.rts := rfl
@[simp] theorem State.setByte_pclk (s : State) (k : Nat) (b : Byte) : (s.setByte k b).pclk = s.pclk := rfl
@[simp] theorem State.setByte_homeQ (s : State) (k : Nat) (b : Byte) : (s.setByte k b).homeQ = s.homeQ := rfl
@[simp] theorem State.setByte_tlb (s : State) (k : Nat) (b : Byte) : (s.setByte k b).tlb = s.tlb := rfl
@[simp] theorem State.setByte_walks (s : State) (k : Nat) (b : Byte) : (s.setByte k b).walks = s.walks := rfl
@[simp] theorem State.setByte_invals (s : State) (k : Nat) (b : Byte) : (s.setByte k b).invals = s.invals := rfl
@[simp] theorem State.setByte_cores (s : State) (k : Nat) (b : Byte) : (s.setByte k b).cores = s.cores := rfl
@[simp] theorem State.setByte_arrays (s : State) (k : Nat) (b : Byte) : (s.setByte k b).arrays = s.arrays := rfl
@[simp] theorem State.setByte_dampers (s : State) (k : Nat) (b : Byte) : (s.setByte k b).dampers = s.dampers := rfl
@[simp] theorem State.setByte_riddle (s : State) (k : Nat) (b : Byte) : (s.setByte k b).riddle = s.riddle := rfl
@[simp] theorem State.setByte_images (s : State) (k : Nat) (b : Byte) : (s.setByte k b).images = s.images := rfl
@[simp] theorem State.setByte_ctxs (s : State) (k : Nat) (b : Byte) : (s.setByte k b).ctxs = s.ctxs := rfl
@[simp] theorem State.setByte_disp (s : State) (k : Nat) (b : Byte) : (s.setByte k b).disp = s.disp := rfl
@[simp] theorem State.setByte_own (s : State) (k : Nat) (b : Byte) : (s.setByte k b).own = s.own := rfl
@[simp] theorem State.setByte_fab (s : State) (k : Nat) (b : Byte) : (s.setByte k b).fab = s.fab := rfl
@[simp] theorem State.setByte_hif (s : State) (k : Nat) (b : Byte) : (s.setByte k b).hif = s.hif := rfl
@[simp] theorem State.setByte_sys (s : State) (k : Nat) (b : Byte) : (s.setByte k b).sys = s.sys := rfl

@[simp] theorem State.setPsn_g (s : State) (k : Nat) (b : Bool) : (s.setPsn k b).g = s.g := rfl
@[simp] theorem State.setPsn_parked (s : State) (k : Nat) (b : Bool) : (s.setPsn k b).parked = s.parked := rfl
@[simp] theorem State.setPsn_sched (s : State) (k : Nat) (b : Bool) : (s.setPsn k b).sched = s.sched := rfl
@[simp] theorem State.setPsn_draws (s : State) (k : Nat) (b : Bool) : (s.setPsn k b).draws = s.draws := rfl
@[simp] theorem State.setPsn_nextId (s : State) (k : Nat) (b : Bool) : (s.setPsn k b).nextId = s.nextId := rfl
@[simp] theorem State.setPsn_mem (s : State) (k : Nat) (b : Bool) : (s.setPsn k b).mem = s.mem := rfl
@[simp] theorem State.setPsn_poison (s : State) (k : Nat) (b : Bool) : (s.setPsn k b).poison = tblSet false s.poison (k / 8) b := rfl
@[simp] theorem State.setPsn_wts (s : State) (k : Nat) (b : Bool) : (s.setPsn k b).wts = s.wts := rfl
@[simp] theorem State.setPsn_rts (s : State) (k : Nat) (b : Bool) : (s.setPsn k b).rts = s.rts := rfl
@[simp] theorem State.setPsn_pclk (s : State) (k : Nat) (b : Bool) : (s.setPsn k b).pclk = s.pclk := rfl
@[simp] theorem State.setPsn_homeQ (s : State) (k : Nat) (b : Bool) : (s.setPsn k b).homeQ = s.homeQ := rfl
@[simp] theorem State.setPsn_tlb (s : State) (k : Nat) (b : Bool) : (s.setPsn k b).tlb = s.tlb := rfl
@[simp] theorem State.setPsn_walks (s : State) (k : Nat) (b : Bool) : (s.setPsn k b).walks = s.walks := rfl
@[simp] theorem State.setPsn_invals (s : State) (k : Nat) (b : Bool) : (s.setPsn k b).invals = s.invals := rfl
@[simp] theorem State.setPsn_cores (s : State) (k : Nat) (b : Bool) : (s.setPsn k b).cores = s.cores := rfl
@[simp] theorem State.setPsn_arrays (s : State) (k : Nat) (b : Bool) : (s.setPsn k b).arrays = s.arrays := rfl
@[simp] theorem State.setPsn_dampers (s : State) (k : Nat) (b : Bool) : (s.setPsn k b).dampers = s.dampers := rfl
@[simp] theorem State.setPsn_riddle (s : State) (k : Nat) (b : Bool) : (s.setPsn k b).riddle = s.riddle := rfl
@[simp] theorem State.setPsn_images (s : State) (k : Nat) (b : Bool) : (s.setPsn k b).images = s.images := rfl
@[simp] theorem State.setPsn_ctxs (s : State) (k : Nat) (b : Bool) : (s.setPsn k b).ctxs = s.ctxs := rfl
@[simp] theorem State.setPsn_disp (s : State) (k : Nat) (b : Bool) : (s.setPsn k b).disp = s.disp := rfl
@[simp] theorem State.setPsn_own (s : State) (k : Nat) (b : Bool) : (s.setPsn k b).own = s.own := rfl
@[simp] theorem State.setPsn_fab (s : State) (k : Nat) (b : Bool) : (s.setPsn k b).fab = s.fab := rfl
@[simp] theorem State.setPsn_hif (s : State) (k : Nat) (b : Bool) : (s.setPsn k b).hif = s.hif := rfl
@[simp] theorem State.setPsn_sys (s : State) (k : Nat) (b : Bool) : (s.setPsn k b).sys = s.sys := rfl

@[simp] theorem State.setCore_g (s : State) (c : Nat) (x : Core) : (s.setCore c x).g = s.g := rfl
@[simp] theorem State.setCore_parked (s : State) (c : Nat) (x : Core) : (s.setCore c x).parked = s.parked := rfl
@[simp] theorem State.setCore_sched (s : State) (c : Nat) (x : Core) : (s.setCore c x).sched = s.sched := rfl
@[simp] theorem State.setCore_draws (s : State) (c : Nat) (x : Core) : (s.setCore c x).draws = s.draws := rfl
@[simp] theorem State.setCore_nextId (s : State) (c : Nat) (x : Core) : (s.setCore c x).nextId = s.nextId := rfl
@[simp] theorem State.setCore_mem (s : State) (c : Nat) (x : Core) : (s.setCore c x).mem = s.mem := rfl
@[simp] theorem State.setCore_poison (s : State) (c : Nat) (x : Core) : (s.setCore c x).poison = s.poison := rfl
@[simp] theorem State.setCore_wts (s : State) (c : Nat) (x : Core) : (s.setCore c x).wts = s.wts := rfl
@[simp] theorem State.setCore_rts (s : State) (c : Nat) (x : Core) : (s.setCore c x).rts = s.rts := rfl
@[simp] theorem State.setCore_pclk (s : State) (c : Nat) (x : Core) : (s.setCore c x).pclk = s.pclk := rfl
@[simp] theorem State.setCore_homeQ (s : State) (c : Nat) (x : Core) : (s.setCore c x).homeQ = s.homeQ := rfl
@[simp] theorem State.setCore_tlb (s : State) (c : Nat) (x : Core) : (s.setCore c x).tlb = s.tlb := rfl
@[simp] theorem State.setCore_walks (s : State) (c : Nat) (x : Core) : (s.setCore c x).walks = s.walks := rfl
@[simp] theorem State.setCore_invals (s : State) (c : Nat) (x : Core) : (s.setCore c x).invals = s.invals := rfl
@[simp] theorem State.setCore_cores (s : State) (c : Nat) (x : Core) : (s.setCore c x).cores = tblSet {} s.cores c x := rfl
@[simp] theorem State.setCore_arrays (s : State) (c : Nat) (x : Core) : (s.setCore c x).arrays = s.arrays := rfl
@[simp] theorem State.setCore_dampers (s : State) (c : Nat) (x : Core) : (s.setCore c x).dampers = s.dampers := rfl
@[simp] theorem State.setCore_riddle (s : State) (c : Nat) (x : Core) : (s.setCore c x).riddle = s.riddle := rfl
@[simp] theorem State.setCore_images (s : State) (c : Nat) (x : Core) : (s.setCore c x).images = s.images := rfl
@[simp] theorem State.setCore_ctxs (s : State) (c : Nat) (x : Core) : (s.setCore c x).ctxs = s.ctxs := rfl
@[simp] theorem State.setCore_disp (s : State) (c : Nat) (x : Core) : (s.setCore c x).disp = s.disp := rfl
@[simp] theorem State.setCore_own (s : State) (c : Nat) (x : Core) : (s.setCore c x).own = s.own := rfl
@[simp] theorem State.setCore_fab (s : State) (c : Nat) (x : Core) : (s.setCore c x).fab = s.fab := rfl
@[simp] theorem State.setCore_hif (s : State) (c : Nat) (x : Core) : (s.setCore c x).hif = s.hif := rfl
@[simp] theorem State.setCore_sys (s : State) (c : Nat) (x : Core) : (s.setCore c x).sys = s.sys := rfl

@[simp] theorem State.modCore_g (s : State) (c : Nat) (f : Core → Core) : (s.modCore c f).g = s.g := rfl
@[simp] theorem State.modCore_parked (s : State) (c : Nat) (f : Core → Core) : (s.modCore c f).parked = s.parked := rfl
@[simp] theorem State.modCore_sched (s : State) (c : Nat) (f : Core → Core) : (s.modCore c f).sched = s.sched := rfl
@[simp] theorem State.modCore_draws (s : State) (c : Nat) (f : Core → Core) : (s.modCore c f).draws = s.draws := rfl
@[simp] theorem State.modCore_nextId (s : State) (c : Nat) (f : Core → Core) : (s.modCore c f).nextId = s.nextId := rfl
@[simp] theorem State.modCore_mem (s : State) (c : Nat) (f : Core → Core) : (s.modCore c f).mem = s.mem := rfl
@[simp] theorem State.modCore_poison (s : State) (c : Nat) (f : Core → Core) : (s.modCore c f).poison = s.poison := rfl
@[simp] theorem State.modCore_wts (s : State) (c : Nat) (f : Core → Core) : (s.modCore c f).wts = s.wts := rfl
@[simp] theorem State.modCore_rts (s : State) (c : Nat) (f : Core → Core) : (s.modCore c f).rts = s.rts := rfl
@[simp] theorem State.modCore_pclk (s : State) (c : Nat) (f : Core → Core) : (s.modCore c f).pclk = s.pclk := rfl
@[simp] theorem State.modCore_homeQ (s : State) (c : Nat) (f : Core → Core) : (s.modCore c f).homeQ = s.homeQ := rfl
@[simp] theorem State.modCore_tlb (s : State) (c : Nat) (f : Core → Core) : (s.modCore c f).tlb = s.tlb := rfl
@[simp] theorem State.modCore_walks (s : State) (c : Nat) (f : Core → Core) : (s.modCore c f).walks = s.walks := rfl
@[simp] theorem State.modCore_invals (s : State) (c : Nat) (f : Core → Core) : (s.modCore c f).invals = s.invals := rfl
@[simp] theorem State.modCore_cores (s : State) (c : Nat) (f : Core → Core) : (s.modCore c f).cores = tblSet {} s.cores c (f (s.core c)) := rfl
@[simp] theorem State.modCore_arrays (s : State) (c : Nat) (f : Core → Core) : (s.modCore c f).arrays = s.arrays := rfl
@[simp] theorem State.modCore_dampers (s : State) (c : Nat) (f : Core → Core) : (s.modCore c f).dampers = s.dampers := rfl
@[simp] theorem State.modCore_riddle (s : State) (c : Nat) (f : Core → Core) : (s.modCore c f).riddle = s.riddle := rfl
@[simp] theorem State.modCore_images (s : State) (c : Nat) (f : Core → Core) : (s.modCore c f).images = s.images := rfl
@[simp] theorem State.modCore_ctxs (s : State) (c : Nat) (f : Core → Core) : (s.modCore c f).ctxs = s.ctxs := rfl
@[simp] theorem State.modCore_disp (s : State) (c : Nat) (f : Core → Core) : (s.modCore c f).disp = s.disp := rfl
@[simp] theorem State.modCore_own (s : State) (c : Nat) (f : Core → Core) : (s.modCore c f).own = s.own := rfl
@[simp] theorem State.modCore_fab (s : State) (c : Nat) (f : Core → Core) : (s.modCore c f).fab = s.fab := rfl
@[simp] theorem State.modCore_hif (s : State) (c : Nat) (f : Core → Core) : (s.modCore c f).hif = s.hif := rfl
@[simp] theorem State.modCore_sys (s : State) (c : Nat) (f : Core → Core) : (s.modCore c f).sys = s.sys := rfl

@[simp] theorem State.setArr_g (s : State) (p : Nat) (x : Arr) : (s.setArr p x).g = s.g := rfl
@[simp] theorem State.setArr_parked (s : State) (p : Nat) (x : Arr) : (s.setArr p x).parked = s.parked := rfl
@[simp] theorem State.setArr_sched (s : State) (p : Nat) (x : Arr) : (s.setArr p x).sched = s.sched := rfl
@[simp] theorem State.setArr_draws (s : State) (p : Nat) (x : Arr) : (s.setArr p x).draws = s.draws := rfl
@[simp] theorem State.setArr_nextId (s : State) (p : Nat) (x : Arr) : (s.setArr p x).nextId = s.nextId := rfl
@[simp] theorem State.setArr_mem (s : State) (p : Nat) (x : Arr) : (s.setArr p x).mem = s.mem := rfl
@[simp] theorem State.setArr_poison (s : State) (p : Nat) (x : Arr) : (s.setArr p x).poison = s.poison := rfl
@[simp] theorem State.setArr_wts (s : State) (p : Nat) (x : Arr) : (s.setArr p x).wts = s.wts := rfl
@[simp] theorem State.setArr_rts (s : State) (p : Nat) (x : Arr) : (s.setArr p x).rts = s.rts := rfl
@[simp] theorem State.setArr_pclk (s : State) (p : Nat) (x : Arr) : (s.setArr p x).pclk = s.pclk := rfl
@[simp] theorem State.setArr_homeQ (s : State) (p : Nat) (x : Arr) : (s.setArr p x).homeQ = s.homeQ := rfl
@[simp] theorem State.setArr_tlb (s : State) (p : Nat) (x : Arr) : (s.setArr p x).tlb = s.tlb := rfl
@[simp] theorem State.setArr_walks (s : State) (p : Nat) (x : Arr) : (s.setArr p x).walks = s.walks := rfl
@[simp] theorem State.setArr_invals (s : State) (p : Nat) (x : Arr) : (s.setArr p x).invals = s.invals := rfl
@[simp] theorem State.setArr_cores (s : State) (p : Nat) (x : Arr) : (s.setArr p x).cores = s.cores := rfl
@[simp] theorem State.setArr_arrays (s : State) (p : Nat) (x : Arr) : (s.setArr p x).arrays = tblSet {} s.arrays p x := rfl
@[simp] theorem State.setArr_dampers (s : State) (p : Nat) (x : Arr) : (s.setArr p x).dampers = s.dampers := rfl
@[simp] theorem State.setArr_riddle (s : State) (p : Nat) (x : Arr) : (s.setArr p x).riddle = s.riddle := rfl
@[simp] theorem State.setArr_images (s : State) (p : Nat) (x : Arr) : (s.setArr p x).images = s.images := rfl
@[simp] theorem State.setArr_ctxs (s : State) (p : Nat) (x : Arr) : (s.setArr p x).ctxs = s.ctxs := rfl
@[simp] theorem State.setArr_disp (s : State) (p : Nat) (x : Arr) : (s.setArr p x).disp = s.disp := rfl
@[simp] theorem State.setArr_own (s : State) (p : Nat) (x : Arr) : (s.setArr p x).own = s.own := rfl
@[simp] theorem State.setArr_fab (s : State) (p : Nat) (x : Arr) : (s.setArr p x).fab = s.fab := rfl
@[simp] theorem State.setArr_hif (s : State) (p : Nat) (x : Arr) : (s.setArr p x).hif = s.hif := rfl
@[simp] theorem State.setArr_sys (s : State) (p : Nat) (x : Arr) : (s.setArr p x).sys = s.sys := rfl

@[simp] theorem State.setDamper_g (s : State) (d : Nat) (x : Damper) : (s.setDamper d x).g = s.g := rfl
@[simp] theorem State.setDamper_parked (s : State) (d : Nat) (x : Damper) : (s.setDamper d x).parked = s.parked := rfl
@[simp] theorem State.setDamper_sched (s : State) (d : Nat) (x : Damper) : (s.setDamper d x).sched = s.sched := rfl
@[simp] theorem State.setDamper_draws (s : State) (d : Nat) (x : Damper) : (s.setDamper d x).draws = s.draws := rfl
@[simp] theorem State.setDamper_nextId (s : State) (d : Nat) (x : Damper) : (s.setDamper d x).nextId = s.nextId := rfl
@[simp] theorem State.setDamper_mem (s : State) (d : Nat) (x : Damper) : (s.setDamper d x).mem = s.mem := rfl
@[simp] theorem State.setDamper_poison (s : State) (d : Nat) (x : Damper) : (s.setDamper d x).poison = s.poison := rfl
@[simp] theorem State.setDamper_wts (s : State) (d : Nat) (x : Damper) : (s.setDamper d x).wts = s.wts := rfl
@[simp] theorem State.setDamper_rts (s : State) (d : Nat) (x : Damper) : (s.setDamper d x).rts = s.rts := rfl
@[simp] theorem State.setDamper_pclk (s : State) (d : Nat) (x : Damper) : (s.setDamper d x).pclk = s.pclk := rfl
@[simp] theorem State.setDamper_homeQ (s : State) (d : Nat) (x : Damper) : (s.setDamper d x).homeQ = s.homeQ := rfl
@[simp] theorem State.setDamper_tlb (s : State) (d : Nat) (x : Damper) : (s.setDamper d x).tlb = s.tlb := rfl
@[simp] theorem State.setDamper_walks (s : State) (d : Nat) (x : Damper) : (s.setDamper d x).walks = s.walks := rfl
@[simp] theorem State.setDamper_invals (s : State) (d : Nat) (x : Damper) : (s.setDamper d x).invals = s.invals := rfl
@[simp] theorem State.setDamper_cores (s : State) (d : Nat) (x : Damper) : (s.setDamper d x).cores = s.cores := rfl
@[simp] theorem State.setDamper_arrays (s : State) (d : Nat) (x : Damper) : (s.setDamper d x).arrays = s.arrays := rfl
@[simp] theorem State.setDamper_dampers (s : State) (d : Nat) (x : Damper) : (s.setDamper d x).dampers = tblSet {} s.dampers d x := rfl
@[simp] theorem State.setDamper_riddle (s : State) (d : Nat) (x : Damper) : (s.setDamper d x).riddle = s.riddle := rfl
@[simp] theorem State.setDamper_images (s : State) (d : Nat) (x : Damper) : (s.setDamper d x).images = s.images := rfl
@[simp] theorem State.setDamper_ctxs (s : State) (d : Nat) (x : Damper) : (s.setDamper d x).ctxs = s.ctxs := rfl
@[simp] theorem State.setDamper_disp (s : State) (d : Nat) (x : Damper) : (s.setDamper d x).disp = s.disp := rfl
@[simp] theorem State.setDamper_own (s : State) (d : Nat) (x : Damper) : (s.setDamper d x).own = s.own := rfl
@[simp] theorem State.setDamper_fab (s : State) (d : Nat) (x : Damper) : (s.setDamper d x).fab = s.fab := rfl
@[simp] theorem State.setDamper_hif (s : State) (d : Nat) (x : Damper) : (s.setDamper d x).hif = s.hif := rfl
@[simp] theorem State.setDamper_sys (s : State) (d : Nat) (x : Damper) : (s.setDamper d x).sys = s.sys := rfl

@[simp] theorem State.setCtx_g (s : State) (c : Nat) (x : Ctx) : (s.setCtx c x).g = s.g := rfl
@[simp] theorem State.setCtx_parked (s : State) (c : Nat) (x : Ctx) : (s.setCtx c x).parked = s.parked := rfl
@[simp] theorem State.setCtx_sched (s : State) (c : Nat) (x : Ctx) : (s.setCtx c x).sched = s.sched := rfl
@[simp] theorem State.setCtx_draws (s : State) (c : Nat) (x : Ctx) : (s.setCtx c x).draws = s.draws := rfl
@[simp] theorem State.setCtx_nextId (s : State) (c : Nat) (x : Ctx) : (s.setCtx c x).nextId = s.nextId := rfl
@[simp] theorem State.setCtx_mem (s : State) (c : Nat) (x : Ctx) : (s.setCtx c x).mem = s.mem := rfl
@[simp] theorem State.setCtx_poison (s : State) (c : Nat) (x : Ctx) : (s.setCtx c x).poison = s.poison := rfl
@[simp] theorem State.setCtx_wts (s : State) (c : Nat) (x : Ctx) : (s.setCtx c x).wts = s.wts := rfl
@[simp] theorem State.setCtx_rts (s : State) (c : Nat) (x : Ctx) : (s.setCtx c x).rts = s.rts := rfl
@[simp] theorem State.setCtx_pclk (s : State) (c : Nat) (x : Ctx) : (s.setCtx c x).pclk = s.pclk := rfl
@[simp] theorem State.setCtx_homeQ (s : State) (c : Nat) (x : Ctx) : (s.setCtx c x).homeQ = s.homeQ := rfl
@[simp] theorem State.setCtx_tlb (s : State) (c : Nat) (x : Ctx) : (s.setCtx c x).tlb = s.tlb := rfl
@[simp] theorem State.setCtx_walks (s : State) (c : Nat) (x : Ctx) : (s.setCtx c x).walks = s.walks := rfl
@[simp] theorem State.setCtx_invals (s : State) (c : Nat) (x : Ctx) : (s.setCtx c x).invals = s.invals := rfl
@[simp] theorem State.setCtx_cores (s : State) (c : Nat) (x : Ctx) : (s.setCtx c x).cores = s.cores := rfl
@[simp] theorem State.setCtx_arrays (s : State) (c : Nat) (x : Ctx) : (s.setCtx c x).arrays = s.arrays := rfl
@[simp] theorem State.setCtx_dampers (s : State) (c : Nat) (x : Ctx) : (s.setCtx c x).dampers = s.dampers := rfl
@[simp] theorem State.setCtx_riddle (s : State) (c : Nat) (x : Ctx) : (s.setCtx c x).riddle = s.riddle := rfl
@[simp] theorem State.setCtx_images (s : State) (c : Nat) (x : Ctx) : (s.setCtx c x).images = s.images := rfl
@[simp] theorem State.setCtx_ctxs (s : State) (c : Nat) (x : Ctx) : (s.setCtx c x).ctxs = tblSet {} s.ctxs c x := rfl
@[simp] theorem State.setCtx_disp (s : State) (c : Nat) (x : Ctx) : (s.setCtx c x).disp = s.disp := rfl
@[simp] theorem State.setCtx_own (s : State) (c : Nat) (x : Ctx) : (s.setCtx c x).own = s.own := rfl
@[simp] theorem State.setCtx_fab (s : State) (c : Nat) (x : Ctx) : (s.setCtx c x).fab = s.fab := rfl
@[simp] theorem State.setCtx_hif (s : State) (c : Nat) (x : Ctx) : (s.setCtx c x).hif = s.hif := rfl
@[simp] theorem State.setCtx_sys (s : State) (c : Nat) (x : Ctx) : (s.setCtx c x).sys = s.sys := rfl

@[simp] theorem State.setSlot_g (s : State) (j : Nat) (x : Slot) : (s.setSlot j x).g = s.g := rfl
@[simp] theorem State.setSlot_parked (s : State) (j : Nat) (x : Slot) : (s.setSlot j x).parked = s.parked := rfl
@[simp] theorem State.setSlot_sched (s : State) (j : Nat) (x : Slot) : (s.setSlot j x).sched = s.sched := rfl
@[simp] theorem State.setSlot_draws (s : State) (j : Nat) (x : Slot) : (s.setSlot j x).draws = s.draws := rfl
@[simp] theorem State.setSlot_nextId (s : State) (j : Nat) (x : Slot) : (s.setSlot j x).nextId = s.nextId := rfl
@[simp] theorem State.setSlot_mem (s : State) (j : Nat) (x : Slot) : (s.setSlot j x).mem = s.mem := rfl
@[simp] theorem State.setSlot_poison (s : State) (j : Nat) (x : Slot) : (s.setSlot j x).poison = s.poison := rfl
@[simp] theorem State.setSlot_wts (s : State) (j : Nat) (x : Slot) : (s.setSlot j x).wts = s.wts := rfl
@[simp] theorem State.setSlot_rts (s : State) (j : Nat) (x : Slot) : (s.setSlot j x).rts = s.rts := rfl
@[simp] theorem State.setSlot_pclk (s : State) (j : Nat) (x : Slot) : (s.setSlot j x).pclk = s.pclk := rfl
@[simp] theorem State.setSlot_homeQ (s : State) (j : Nat) (x : Slot) : (s.setSlot j x).homeQ = s.homeQ := rfl
@[simp] theorem State.setSlot_tlb (s : State) (j : Nat) (x : Slot) : (s.setSlot j x).tlb = s.tlb := rfl
@[simp] theorem State.setSlot_walks (s : State) (j : Nat) (x : Slot) : (s.setSlot j x).walks = s.walks := rfl
@[simp] theorem State.setSlot_invals (s : State) (j : Nat) (x : Slot) : (s.setSlot j x).invals = s.invals := rfl
@[simp] theorem State.setSlot_cores (s : State) (j : Nat) (x : Slot) : (s.setSlot j x).cores = s.cores := rfl
@[simp] theorem State.setSlot_arrays (s : State) (j : Nat) (x : Slot) : (s.setSlot j x).arrays = s.arrays := rfl
@[simp] theorem State.setSlot_dampers (s : State) (j : Nat) (x : Slot) : (s.setSlot j x).dampers = s.dampers := rfl
@[simp] theorem State.setSlot_riddle (s : State) (j : Nat) (x : Slot) : (s.setSlot j x).riddle = s.riddle := rfl
@[simp] theorem State.setSlot_images (s : State) (j : Nat) (x : Slot) : (s.setSlot j x).images = s.images := rfl
@[simp] theorem State.setSlot_ctxs (s : State) (j : Nat) (x : Slot) : (s.setSlot j x).ctxs = s.ctxs := rfl
@[simp] theorem State.setSlot_own (s : State) (j : Nat) (x : Slot) : (s.setSlot j x).own = s.own := rfl
@[simp] theorem State.setSlot_fab (s : State) (j : Nat) (x : Slot) : (s.setSlot j x).fab = s.fab := rfl
@[simp] theorem State.setSlot_hif (s : State) (j : Nat) (x : Slot) : (s.setSlot j x).hif = s.hif := rfl
@[simp] theorem State.setSlot_sys (s : State) (j : Nat) (x : Slot) : (s.setSlot j x).sys = s.sys := rfl

@[simp] theorem State.draw_g (s : State) : (s.draw).g = s.g := rfl
@[simp] theorem State.draw_parked (s : State) : (s.draw).parked = s.parked := rfl
@[simp] theorem State.draw_sched (s : State) : (s.draw).sched = s.sched := rfl
@[simp] theorem State.draw_draws (s : State) : (s.draw).draws = s.draws + 1 := rfl
@[simp] theorem State.draw_nextId (s : State) : (s.draw).nextId = s.nextId := rfl
@[simp] theorem State.draw_mem (s : State) : (s.draw).mem = s.mem := rfl
@[simp] theorem State.draw_poison (s : State) : (s.draw).poison = s.poison := rfl
@[simp] theorem State.draw_wts (s : State) : (s.draw).wts = s.wts := rfl
@[simp] theorem State.draw_rts (s : State) : (s.draw).rts = s.rts := rfl
@[simp] theorem State.draw_pclk (s : State) : (s.draw).pclk = s.pclk := rfl
@[simp] theorem State.draw_homeQ (s : State) : (s.draw).homeQ = s.homeQ := rfl
@[simp] theorem State.draw_tlb (s : State) : (s.draw).tlb = s.tlb := rfl
@[simp] theorem State.draw_walks (s : State) : (s.draw).walks = s.walks := rfl
@[simp] theorem State.draw_invals (s : State) : (s.draw).invals = s.invals := rfl
@[simp] theorem State.draw_cores (s : State) : (s.draw).cores = s.cores := rfl
@[simp] theorem State.draw_arrays (s : State) : (s.draw).arrays = s.arrays := rfl
@[simp] theorem State.draw_dampers (s : State) : (s.draw).dampers = s.dampers := rfl
@[simp] theorem State.draw_riddle (s : State) : (s.draw).riddle = s.riddle := rfl
@[simp] theorem State.draw_images (s : State) : (s.draw).images = s.images := rfl
@[simp] theorem State.draw_ctxs (s : State) : (s.draw).ctxs = s.ctxs := rfl
@[simp] theorem State.draw_disp (s : State) : (s.draw).disp = s.disp := rfl
@[simp] theorem State.draw_own (s : State) : (s.draw).own = s.own := rfl
@[simp] theorem State.draw_fab (s : State) : (s.draw).fab = s.fab := rfl
@[simp] theorem State.draw_hif (s : State) : (s.draw).hif = s.hif := rfl
@[simp] theorem State.draw_sys (s : State) : (s.draw).sys = s.sys := rfl

@[simp] theorem State.fresh_g (s : State) : (s.fresh).g = s.g := rfl
@[simp] theorem State.fresh_parked (s : State) : (s.fresh).parked = s.parked := rfl
@[simp] theorem State.fresh_sched (s : State) : (s.fresh).sched = s.sched := rfl
@[simp] theorem State.fresh_draws (s : State) : (s.fresh).draws = s.draws := rfl
@[simp] theorem State.fresh_nextId (s : State) : (s.fresh).nextId = s.nextId + 1 := rfl
@[simp] theorem State.fresh_mem (s : State) : (s.fresh).mem = s.mem := rfl
@[simp] theorem State.fresh_poison (s : State) : (s.fresh).poison = s.poison := rfl
@[simp] theorem State.fresh_wts (s : State) : (s.fresh).wts = s.wts := rfl
@[simp] theorem State.fresh_rts (s : State) : (s.fresh).rts = s.rts := rfl
@[simp] theorem State.fresh_pclk (s : State) : (s.fresh).pclk = s.pclk := rfl
@[simp] theorem State.fresh_homeQ (s : State) : (s.fresh).homeQ = s.homeQ := rfl
@[simp] theorem State.fresh_tlb (s : State) : (s.fresh).tlb = s.tlb := rfl
@[simp] theorem State.fresh_walks (s : State) : (s.fresh).walks = s.walks := rfl
@[simp] theorem State.fresh_invals (s : State) : (s.fresh).invals = s.invals := rfl
@[simp] theorem State.fresh_cores (s : State) : (s.fresh).cores = s.cores := rfl
@[simp] theorem State.fresh_arrays (s : State) : (s.fresh).arrays = s.arrays := rfl
@[simp] theorem State.fresh_dampers (s : State) : (s.fresh).dampers = s.dampers := rfl
@[simp] theorem State.fresh_riddle (s : State) : (s.fresh).riddle = s.riddle := rfl
@[simp] theorem State.fresh_images (s : State) : (s.fresh).images = s.images := rfl
@[simp] theorem State.fresh_ctxs (s : State) : (s.fresh).ctxs = s.ctxs := rfl
@[simp] theorem State.fresh_disp (s : State) : (s.fresh).disp = s.disp := rfl
@[simp] theorem State.fresh_own (s : State) : (s.fresh).own = s.own := rfl
@[simp] theorem State.fresh_fab (s : State) : (s.fresh).fab = s.fab := rfl
@[simp] theorem State.fresh_hif (s : State) : (s.fresh).hif = s.hif := rfl
@[simp] theorem State.fresh_sys (s : State) : (s.fresh).sys = s.sys := rfl

@[simp] theorem State.retire_g (s : State) (n : Nat) : (s.retire n).g = s.g.retire n := rfl
@[simp] theorem State.retire_parked (s : State) (n : Nat) : (s.retire n).parked = s.parked := rfl
@[simp] theorem State.retire_sched (s : State) (n : Nat) : (s.retire n).sched = s.sched := rfl
@[simp] theorem State.retire_draws (s : State) (n : Nat) : (s.retire n).draws = s.draws := rfl
@[simp] theorem State.retire_nextId (s : State) (n : Nat) : (s.retire n).nextId = s.nextId := rfl
@[simp] theorem State.retire_mem (s : State) (n : Nat) : (s.retire n).mem = s.mem := rfl
@[simp] theorem State.retire_poison (s : State) (n : Nat) : (s.retire n).poison = s.poison := rfl
@[simp] theorem State.retire_wts (s : State) (n : Nat) : (s.retire n).wts = s.wts := rfl
@[simp] theorem State.retire_rts (s : State) (n : Nat) : (s.retire n).rts = s.rts := rfl
@[simp] theorem State.retire_pclk (s : State) (n : Nat) : (s.retire n).pclk = s.pclk := rfl
@[simp] theorem State.retire_homeQ (s : State) (n : Nat) : (s.retire n).homeQ = s.homeQ := rfl
@[simp] theorem State.retire_tlb (s : State) (n : Nat) : (s.retire n).tlb = s.tlb := rfl
@[simp] theorem State.retire_walks (s : State) (n : Nat) : (s.retire n).walks = s.walks := rfl
@[simp] theorem State.retire_invals (s : State) (n : Nat) : (s.retire n).invals = s.invals := rfl
@[simp] theorem State.retire_cores (s : State) (n : Nat) : (s.retire n).cores = s.cores := rfl
@[simp] theorem State.retire_arrays (s : State) (n : Nat) : (s.retire n).arrays = s.arrays := rfl
@[simp] theorem State.retire_dampers (s : State) (n : Nat) : (s.retire n).dampers = s.dampers := rfl
@[simp] theorem State.retire_riddle (s : State) (n : Nat) : (s.retire n).riddle = s.riddle := rfl
@[simp] theorem State.retire_images (s : State) (n : Nat) : (s.retire n).images = s.images := rfl
@[simp] theorem State.retire_ctxs (s : State) (n : Nat) : (s.retire n).ctxs = s.ctxs := rfl
@[simp] theorem State.retire_disp (s : State) (n : Nat) : (s.retire n).disp = s.disp := rfl
@[simp] theorem State.retire_own (s : State) (n : Nat) : (s.retire n).own = s.own := rfl
@[simp] theorem State.retire_fab (s : State) (n : Nat) : (s.retire n).fab = s.fab := rfl
@[simp] theorem State.retire_hif (s : State) (n : Nat) : (s.retire n).hif = s.hif := rfl
@[simp] theorem State.retire_sys (s : State) (n : Nat) : (s.retire n).sys = s.sys := rfl

@[simp] theorem State.tick_g (s : State) : (s.tick).g = s.g := rfl
@[simp] theorem State.tick_parked (s : State) : (s.tick).parked = s.parked := rfl
@[simp] theorem State.tick_sched (s : State) : (s.tick).sched = s.sched := rfl
@[simp] theorem State.tick_draws (s : State) : (s.tick).draws = s.draws + 1 := rfl
@[simp] theorem State.tick_nextId (s : State) : (s.tick).nextId = s.nextId := rfl
@[simp] theorem State.tick_mem (s : State) : (s.tick).mem = s.mem := rfl
@[simp] theorem State.tick_poison (s : State) : (s.tick).poison = s.poison := rfl
@[simp] theorem State.tick_wts (s : State) : (s.tick).wts = s.wts := rfl
@[simp] theorem State.tick_rts (s : State) : (s.tick).rts = s.rts := rfl
@[simp] theorem State.tick_pclk (s : State) : (s.tick).pclk = s.pclk := rfl
@[simp] theorem State.tick_homeQ (s : State) : (s.tick).homeQ = s.homeQ := rfl
@[simp] theorem State.tick_tlb (s : State) : (s.tick).tlb = s.tlb := rfl
@[simp] theorem State.tick_walks (s : State) : (s.tick).walks = s.walks := rfl
@[simp] theorem State.tick_invals (s : State) : (s.tick).invals = s.invals := rfl
@[simp] theorem State.tick_cores (s : State) : (s.tick).cores = s.cores := rfl
@[simp] theorem State.tick_arrays (s : State) : (s.tick).arrays = s.arrays := rfl
@[simp] theorem State.tick_dampers (s : State) : (s.tick).dampers = s.dampers := rfl
@[simp] theorem State.tick_riddle (s : State) : (s.tick).riddle = s.riddle := rfl
@[simp] theorem State.tick_images (s : State) : (s.tick).images = s.images := rfl
@[simp] theorem State.tick_ctxs (s : State) : (s.tick).ctxs = s.ctxs := rfl
@[simp] theorem State.tick_disp (s : State) : (s.tick).disp = s.disp := rfl
@[simp] theorem State.tick_own (s : State) : (s.tick).own = s.own := rfl
@[simp] theorem State.tick_fab (s : State) : (s.tick).fab = s.fab := rfl
@[simp] theorem State.tick_hif (s : State) : (s.tick).hif = s.hif := rfl

end Sys2Proof.Machine
end

