-- ==== Sys2Proof/Laws/Table.lean ====
section
/-!
SUPPORT. Sparse tables: reading after writing, and the canonical form that every operation keeps.
-/
namespace Sys2Proof.Machine

theorem tblGet_tblDrop {α : Type} (d : α) (t : List (Nat × α)) (k j : Nat) :
    tblGet d (tblDrop t k) j = if j = k then d else tblGet d t j := by
  induction t with
  | nil => simp [tblDrop, tblGet]
  | cons e t ih =>
    obtain ⟨a, x⟩ := e
    unfold tblDrop at ih ⊢
    by_cases h : a = k
    · subst h
      by_cases hj : j = a
      · subst hj; simpa using ih
      · simp [ih, hj, tblGet, Ne.symm hj]
    · by_cases hj : a = j
      · subst hj; simp [h, tblGet]
      · simp [h, tblGet, hj, ih]

theorem tblGet_tblPut {α : Type} (d : α) (t : List (Nat × α)) (k j : Nat) (v : α) :
    tblGet d (tblPut t k v) j = if j = k then v else tblGet d t j := by
  induction t with
  | nil => by_cases h : k = j <;> simp [tblPut, tblGet, h, eq_comm]
  | cons e t ih =>
    obtain ⟨a, x⟩ := e
    unfold tblPut
    by_cases h1 : k < a
    · by_cases hj : k = j
      · subst hj; simp [h1, tblGet]
      · simp [h1, tblGet, hj, Ne.symm hj]
    · by_cases h2 : k = a
      · subst h2
        by_cases hj : k = j
        · subst hj; simp [tblGet]
        · simp [tblGet, hj, Ne.symm hj]
      · by_cases hj : a = j
        · subst hj; simp [h1, h2, tblGet, Ne.symm h2]
        · simp [h1, h2, tblGet, hj, ih]

/-- Reading after writing: the value written at its key, the old value elsewhere. -/
theorem tblGet_tblSet {α : Type} [DecidableEq α] (d : α) (t : List (Nat × α)) (k j : Nat) (v : α) :
    tblGet d (tblSet d t k v) j = if j = k then v else tblGet d t j := by
  unfold tblSet
  split
  · rename_i h; subst h; exact tblGet_tblDrop _ _ _ _
  · exact tblGet_tblPut _ _ _ _ _
@[simp] theorem tblGet_tblSet_same {α : Type} [DecidableEq α] (d : α) (t : List (Nat × α)) (k : Nat) (v : α) :
    tblGet d (tblSet d t k v) k = v := by simp [tblGet_tblSet]
theorem tblGet_tblSet_other {α : Type} [DecidableEq α] (d : α) (t : List (Nat × α)) {k j : Nat} (v : α) (h : j ≠ k) :
    tblGet d (tblSet d t k v) j = tblGet d t j := by simp [tblGet_tblSet, h]

theorem tblWfFrom_mono {α : Type} [DecidableEq α] (d : α) {lo lo' : Nat} (h : lo' ≤ lo) (t : List (Nat × α))
    (w : tblWfFrom d lo t = true) : tblWfFrom d lo' t = true := by
  cases t with
  | nil => rfl
  | cons e t =>
    obtain ⟨a, x⟩ := e
    simp only [tblWfFrom, Bool.and_eq_true, decide_eq_true_eq] at w ⊢
    exact ⟨⟨Nat.le_trans h w.1.1, w.1.2⟩, w.2⟩

theorem tblWfFrom_filter {α : Type} [DecidableEq α] (d : α) (p : Nat × α → Bool) (t : List (Nat × α)) (lo : Nat)
    (w : tblWfFrom d lo t = true) : tblWfFrom d lo (t.filter p) = true := by
  induction t generalizing lo with
  | nil => exact w
  | cons e t ih =>
    obtain ⟨a, x⟩ := e
    simp only [tblWfFrom, Bool.and_eq_true, decide_eq_true_eq] at w
    rw [List.filter_cons]
    split
    · simp only [tblWfFrom, Bool.and_eq_true, decide_eq_true_eq]
      exact ⟨w.1, ih _ w.2⟩
    · exact tblWfFrom_mono d (Nat.le_succ_of_le w.1.1) _ (ih _ w.2)

theorem tblWfFrom_tblPut {α : Type} [DecidableEq α] (d : α) (t : List (Nat × α)) (lo k : Nat) (v : α) (hv : v ≠ d)
    (hk : lo ≤ k) (w : tblWfFrom d lo t = true) : tblWfFrom d lo (tblPut t k v) = true := by
  induction t generalizing lo with
  | nil => simp [tblPut, tblWfFrom, hk, hv]
  | cons e t ih =>
    obtain ⟨a, x⟩ := e
    simp only [tblWfFrom, Bool.and_eq_true, decide_eq_true_eq] at w
    unfold tblPut
    split
    · rename_i h
      simp only [tblWfFrom, Bool.and_eq_true, decide_eq_true_eq]
      exact ⟨⟨hk, hv⟩, ⟨h, w.1.2⟩, w.2⟩
    · split
      · rename_i _ h; subst h
        simp only [tblWfFrom, Bool.and_eq_true, decide_eq_true_eq]
        exact ⟨⟨hk, hv⟩, w.2⟩
      · rename_i h1 h2
        simp only [tblWfFrom, Bool.and_eq_true, decide_eq_true_eq]
        exact ⟨w.1, ih _ (by omega) w.2⟩

/-- Writing keeps the canonical form. -/
@[simp] theorem tblWf_tblSet {α : Type} [DecidableEq α] (d : α) (t : List (Nat × α)) (k : Nat) (v : α)
    (w : tblWf d t = true) : tblWf d (tblSet d t k v) = true := by
  unfold tblSet
  split
  · exact tblWfFrom_filter d _ t 0 w
  · rename_i h; exact tblWfFrom_tblPut d t 0 k v h (Nat.zero_le _) w
/-- Keeping some keys keeps it. -/
@[simp] theorem tblWf_tblKeep {α : Type} [DecidableEq α] (d : α) (p : Nat → Bool) (t : List (Nat × α))
    (w : tblWf d t = true) : tblWf d (tblKeep p t) = true := tblWfFrom_filter d _ t 0 w
/-- Writing several entries keeps it. -/
@[simp] theorem tblWf_tblSetMany {α : Type} [DecidableEq α] (d : α) (r t : List (Nat × α))
    (w : tblWf d t = true) : tblWf d (tblSetMany d t r) = true := by
  induction r generalizing t with
  | nil => exact w
  | cons e r ih => exact ih _ (tblWf_tblSet d t _ _ w)
@[simp] theorem tblWf_nil {α : Type} [DecidableEq α] (d : α) : tblWf d ([] : List (Nat × α)) = true := rfl

theorem foldL_keeps {α β : Type} {p : β → Prop} {f : β → α → β} (h : ∀ b a, p b → p (f b a)) (b : β) (l : List α)
    (hb : p b) : p (foldL f b l) := by
  induction l generalizing b with
  | nil => exact hb
  | cons a l ih => exact ih _ (h _ _ hb)

end Sys2Proof.Machine
end

