-- ==== Sys2Proof/Laws/Regs.lean ====
section
/-!
SUPPORT. Registers: reading after writing, and the shapes that a register instruction's step takes.
-/
namespace Sys2Proof.Machine

theorem Group.sGet_sSet (g : Group) (a r : SReg) (v : W64) :
    (g.sSet a v).sGet r = if r = a ∧ a ≠ 0 then v else g.sGet r := by
  unfold Group.sSet Group.sGet
  by_cases ha : a.val = 0
  · have : a = 0 := Fin.ext ha
    simp [this]
  · have hn : a ≠ 0 := fun h => ha (by rw [h]; rfl)
    by_cases hr : r.val = 0
    · have : r ≠ a := fun h => ha (by rw [← h]; exact hr)
      simp [hr, this]
    · simp only [ha, hr, if_false]
      rw [tblGet_tblSet]
      by_cases h : r = a
      · simp [h, hn]
      · have : r.val ≠ a.val := fun e => h (Fin.ext e)
        simp [h, this]
theorem Group.mGet_mSet (g : Group) (a r : MReg) (v : W32) :
    (g.mSet a v).mGet r = if r = a then (if a = 0 then v &&& g.present else v) else g.mGet r := by
  unfold Group.mSet Group.mGet
  rw [tblGet_tblSet]
  by_cases h : r = a
  · subst h; by_cases h0 : r = 0 <;> simp [h0]
  · have : r.val ≠ a.val := fun e => h (Fin.ext e)
    simp [h, this]
theorem Group.vGet_vSet (g : Group) (a r : VReg) (t u : Nat) (x : W64) (ht : t < 32) (hu : u < 32) :
    (g.vSet a t x).vGet r u = if r = a ∧ u = t ∧ t < g.n0 then x else g.vGet r u := by
  unfold Group.vSet Group.vGet
  by_cases h : t < g.n0
  · simp only [h, if_true, tblGet_tblSet]
    by_cases e : r = a ∧ u = t
    · obtain ⟨rfl, rfl⟩ := e; simp [h]
    · have : r.val * 32 + u ≠ a.val * 32 + t := by
        intro k; apply e
        constructor
        · apply Fin.ext; omega
        · omega
      have e2 : ¬ (r = a ∧ u = t ∧ True) := by simpa using e
      simp only [this, if_false, and_true] at *
      simp [e]
  · simp [h]
theorem Group.vSets_n0 (g : Group) (a : VReg) (l : List (Nat × W64)) : (g.vSets a l).n0 = g.n0 := by
  induction l generalizing g with
  | nil => rfl
  | cons e l ih => unfold Group.vSets; rw [ih]; unfold Group.vSet; split <;> rfl
/-- Writing threads' registers touches only the v registers. -/
theorem Group.vSets_eq (g : Group) (a : VReg) (l : List (Nat × W64)) :
    g.vSets a l = { g with v := (g.vSets a l).v } := by
  induction l generalizing g with
  | nil => rfl
  | cons e l ih =>
    unfold Group.vSets; rw [ih]; unfold Group.vSet; split <;> rfl
/-- A thread listed once holds what it was given; any other register or thread is as before. -/
theorem Group.vGet_vSets (g : Group) (a r : VReg) (ts : List Nat) (f : Nat → W64) (u : Nat) (hu : u < 32)
    (hts : ∀ t ∈ ts, t < 32) :
    (g.vSets a (ts.map fun t => (t, f t))).vGet r u =
      if r = a ∧ u ∈ ts ∧ u < g.n0 then f u else g.vGet r u := by
  induction ts generalizing g with
  | nil => simp [Group.vSets]
  | cons t ts ih =>
    have h1 := ih (g.vSet a t (f t)) (fun x hx => hts x (List.mem_cons_of_mem _ hx))
    have hn : (g.vSet a t (f t)).n0 = g.n0 := by unfold Group.vSet; split <;> rfl
    simp only [List.map_cons, Group.vSets, h1, hn, List.mem_cons]
    rw [Group.vGet_vSet _ _ _ _ _ _ (hts t (List.mem_cons_self ..)) hu]
    by_cases hr : r = a
    · by_cases hm : u ∈ ts
      · simp [hr, hm]
        by_cases e : u = t
        · subst e; by_cases h : u < g.n0 <;> simp [h]
        · simp [e]
      · by_cases e : u = t
        · subst e; simp [hr, hm]
        · simp [hr, hm, e]
    · simp [hr]

theorem mem_upTo {n j : Nat} : j ∈ upTo n ↔ j < n := by
  induction n with
  | zero => simp [upTo]
  | succ n ih => simp only [upTo, List.mem_append, ih, List.mem_singleton]; omega
theorem mem_activeOf {m : W32} {j : Nat} : j ∈ activeOf m ↔ j < 32 ∧ m.getLsbD j = true := by
  unfold activeOf bitsOn
  rw [List.mem_filter, mem_upTo]
  have : (m.toNat / 2 ^ j % 2 == 1) = m.getLsbD j := by
    rw [BitVec.getLsbD, Nat.testBit_eq_decide_div_mod_eq]
    by_cases h : m.toNat / 2 ^ j % 2 = 1 <;> simp [h]
  rw [this]

/-- With no pending result for the registers, the instruction runs at once. -/
theorem stalled_run (s : State) (uses : List Nat) (k : State → Out) (h : s.Readable uses) :
    stalled s uses k = k s := by
  unfold stalled
  have : s.g.pend.any (fun p => p.touches uses) = false := by
    rw [List.any_eq_false]; intro p hp; simp [h p hp]
  simp [this]
theorem Pend.touches_mono {p : Pend} {l r : List Nat} (h : ∀ x ∈ r, x ∈ l) (hp : p.touches l = false) :
    p.touches r = false := by
  unfold Pend.touches at *
  rw [Bool.and_eq_false_iff] at *
  rcases hp with hp | hp
  · exact .inl hp
  · right
    rw [List.any_eq_false] at *
    intro w hw
    have := hp w hw
    simp only [Bool.and_eq_true, List.contains_iff_mem, not_and] at *
    exact fun h0 hm => this h0 (h _ hm)
/-- Fewer registers are readable too. -/
theorem State.Readable.sub {s : State} {l r : List Nat} (h : s.Readable l) (hr : ∀ x ∈ r, x ∈ l) : s.Readable r :=
  fun p hp => Pend.touches_mono hr (h p hp)
theorem badReg_none (g : Group) (l : List VReg) (h : g.Has l) : badReg g l = none := by
  unfold badReg
  induction l with
  | nil => rfl
  | cons r l ih =>
    have h1 : r.val < g.nv := h r (List.mem_cons_self ..)
    have : decide (g.nv ≤ r.val) = false := by simp; omega
    simp only [findFirst, this]
    exact ih fun x hx => h x (List.mem_cons_of_mem _ hx)
/-- With its registers at hand and some thread active, a vector instruction runs at once. -/
theorem vector_run (s : State) (vs : List VReg) (sec : Option Nat) (uses : List Nat) (m : MReg) (words : Nat)
    (k : State → List Nat → Out) (hv : s.g.Has vs) (hs : sec = none ∨ s.g.OnCore) (hm : s.g.govern m ≠ 0)
    (hr : s.Readable (usesV vs ++ uses)) :
    vector s vs sec uses m words k = k s (activeOf (s.g.govern m)) := by
  unfold vector checked
  rw [badReg_none _ _ hv]
  have hu : useCheck s.g none sec = none := by
    unfold useCheck
    rcases hs with h | h
    · subst h; split <;> rfl
    · rw [show s.g.isSection = false from h]; rfl
  simp only [hu, hm, if_false]
  rw [stalled_run _ _ _ hr]
/-- A uniform instruction without checks. -/
theorem uniform_run (s : State) (priv : Option W64) (sec : Option Nat) (uses : List Nat) (k : State → Out)
    (hp : priv = none) (hs : sec = none ∨ s.g.OnCore) (hr : s.Readable uses) : uniform s priv sec uses k = k s := by
  unfold uniform checked
  have hu : useCheck s.g priv sec = none := by
    subst hp
    unfold useCheck
    rcases hs with h | h
    · subst h; split <;> rfl
    · rw [show s.g.isSection = false from h]; rfl
  simp only [badReg, findFirst, hu]
  exact stalled_run _ _ _ hr

theorem onlyGroup_setG (s : State) (g : Group) : OnlyGroup s (s.setG g) := ⟨rfl, fun _ => ⟨rfl, rfl⟩⟩
theorem retired_sSet (g : Group) (n : Nat) (a : SReg) (v : W64) : Retired n g ((g.retire n).sSet a v) := by
  unfold Group.sSet; split <;> exact ⟨rfl, rfl, rfl⟩
/-- The step that writes sA. -/
theorem setsS_next (s : State) (n : Nat) (a : SReg) (v : W64) :
    SetsS s (.next (s.setG ((s.g.retire n).sSet a v))) n a v := by
  refine ⟨_, rfl, onlyGroup_setG _ _, retired_sSet _ _ _ _, fun r => ?_, ?_⟩
  · rw [State.setG_g, Group.sGet_sSet]; rfl
  · rw [State.setG_g]; unfold Group.sSet; split <;> rfl
/-- The step that writes mA. -/
theorem setsM_next (s : State) (n : Nat) (a : MReg) (v : W32) :
    SetsM s (.next (s.setG ((s.g.retire n).mSet a v))) n a v := by
  refine ⟨_, rfl, onlyGroup_setG _ _, ⟨rfl, rfl, rfl⟩, fun r => ?_, rfl⟩
  rw [State.setG_g, Group.mGet_mSet]; rfl
/-- The step that only retires. -/
theorem onlyRetires_next (s : State) (n : Nat) : OnlyRetires s (.next (s.retire n)) n :=
  ⟨_, rfl, onlyGroup_setG _ _, ⟨rfl, rfl, rfl⟩, rfl⟩
theorem Group.active_iff (g : Group) (m : MReg) (th : Nat) (h : th < 32) :
    g.Active m th ↔ th ∈ activeOf (g.govern m) ∧ th < g.n0 := by
  unfold Group.Active; rw [mem_activeOf]; simp [h, and_comm]
/-- The step that writes vA in the active threads. -/
theorem setsV_next (s : State) (n : Nat) (m : MReg) (a : VReg) (f : Nat → W64) (P : Nat → W64 → Prop)
    (h : ∀ th, th < 32 → P th (f th)) :
    SetsV s (.next (s.setG ((s.g.retire n).vSets a ((activeOf (s.g.govern m)).map fun t => (t, f t))))) n m a P := by
  have ht : ∀ t ∈ activeOf (s.g.govern m), t < 32 := fun t ht => (mem_activeOf.1 ht).1
  refine ⟨_, rfl, onlyGroup_setG _ _, ?_, fun r th hth hn => ?_, fun th hth ha => ?_, ?_⟩
  · rw [State.setG_g, Group.vSets_eq]; exact ⟨rfl, rfl, rfl⟩
  · rw [State.setG_g, Group.vGet_vSets _ _ _ _ _ _ hth ht]
    rw [Group.active_iff _ _ _ hth] at hn
    have : ¬ (r = a ∧ th ∈ activeOf (s.g.govern m) ∧ th < (s.g.retire n).n0) := by
      rintro ⟨h1, h2, h3⟩
      rcases hn with hn | hn
      · exact hn h1
      · exact hn ⟨h2, h3⟩
    rw [if_neg this]; rfl
  · rw [State.setG_g, Group.vGet_vSets _ _ _ _ _ _ hth ht]
    have := (Group.active_iff _ _ _ hth).1 ha
    rw [if_pos ⟨rfl, this.1, this.2⟩]
    exact h th hth
  · rw [State.setG_g, Group.vSets_eq]; rfl

end Sys2Proof.Machine
end

