-- ==== Sys2Proof/Laws/Lanes.lean ====
section
/-!
SUPPORT. Sub-elements of a register: a register joined from sub-elements holds each of them (13 R278).
-/
namespace Sys2Proof.Machine

/-- The widths of a sub-element: they divide a register. -/
def LaneWidth (w : Nat) : Prop := w = 8 ∨ w = 16 ∨ w = 32 ∨ w = 64
theorem laneWidth_zw (z : Size) : LaneWidth (zw z) := by cases z <;> simp [LaneWidth, zw]
theorem laneWidth_ftw (t : FType) : LaneWidth (ftw t) := by cases t <;> simp [LaneWidth, ftw]
theorem LaneWidth.pos {w : Nat} (h : LaneWidth w) : 0 < w := by rcases h with h | h | h | h <;> omega
theorem LaneWidth.mul {w : Nat} (h : LaneWidth w) : w * (64 / w) = 64 := by
  rcases h with h | h | h | h <;> subst h <;> rfl

theorem joinNat_lt (w : Nat) (l : List Nat) : joinNat w l < 2 ^ (w * l.length) := by
  induction l with
  | nil => simp [joinNat]
  | cons a l ih =>
    unfold joinNat
    have h1 : a % 2 ^ w < 2 ^ w := Nat.mod_lt _ (Nat.two_pow_pos w)
    have e : 2 ^ (w * (a :: l).length) = 2 ^ w * 2 ^ (w * l.length) := by
      rw [← Nat.pow_add, List.length_cons, Nat.mul_add, Nat.mul_one, Nat.add_comm]
    rw [e]
    calc a % 2 ^ w + 2 ^ w * joinNat w l < 2 ^ w + 2 ^ w * joinNat w l := by omega
      _ = 2 ^ w * (joinNat w l + 1) := by rw [Nat.mul_add, Nat.mul_one, Nat.add_comm]
      _ ≤ 2 ^ w * 2 ^ (w * l.length) := Nat.mul_le_mul_left _ ih
theorem joinNat_elem (w : Nat) (l : List Nat) (e : Nat) :
    joinNat w l / 2 ^ (w * e) % 2 ^ w = l.getD e 0 % 2 ^ w := by
  induction l generalizing e with
  | nil => simp [joinNat]
  | cons a l ih =>
    unfold joinNat
    cases e with
    | zero => simp [Nat.add_mul_mod_self_left]
    | succ e =>
      have : 2 ^ (w * (e + 1)) = 2 ^ w * 2 ^ (w * e) := by rw [← Nat.pow_add, Nat.mul_add, Nat.mul_one, Nat.add_comm]
      rw [this, ← Nat.div_div_eq_div_mul]
      rw [Nat.add_mul_div_left _ _ (Nat.two_pow_pos w), Nat.div_eq_of_lt (Nat.mod_lt _ (Nat.two_pow_pos w)), Nat.zero_add, ih]
      rfl
/-- A register joined from sub-elements holds each of them, modulo 2^w. -/
theorem sub_joinSubs {w : Nat} (h : LaneWidth w) (l : List Nat) (e : Nat) (hl : l.length ≤ 64 / w) :
    sub_ w (joinSubs w l) e = l.getD e 0 % 2 ^ w := by
  unfold sub_ joinSubs
  have h1 := joinNat_lt w l
  have h2 : 2 ^ (w * l.length) ≤ 2 ^ 64 :=
    Nat.pow_le_pow_right (by decide) (by rw [← h.mul]; exact Nat.mul_le_mul_left _ hl)
  rw [BitVec.toNat_ofNat, Nat.mod_eq_of_lt (Nat.lt_of_lt_of_le h1 h2), joinNat_elem]
theorem upTo_length (n : Nat) : (upTo n).length = n := by
  induction n with
  | zero => rfl
  | succ n ih => simp [upTo, ih]
theorem upTo_get (n e : Nat) (h : e < n) : (upTo n)[e]? = some e := by
  induction n with
  | zero => omega
  | succ n ih =>
    unfold upTo
    by_cases he : e < n
    · rw [List.getElem?_append_left (by rw [upTo_length]; exact he), ih he]
    · have : e = n := by omega
      subst this
      rw [List.getElem?_append_right (Nat.le_of_eq (upTo_length e)), upTo_length]; simp
theorem subs_length (w : Nat) (x : W64) : (subs w x).length = 64 / w := by unfold subs; rw [List.length_map, upTo_length]
theorem subs_get (w : Nat) (x : W64) (e : Nat) (h : e < 64 / w) : (subs w x)[e]? = some (sub_ w x e) := by
  unfold subs; rw [List.getElem?_map, upTo_get _ _ h]; rfl
/-- One operation on every sub-element. -/
theorem sub_lanes1 {w : Nat} (h : LaneWidth w) (f : Nat → Nat) (x : W64) (e : Nat) (he : e < 64 / w) :
    sub_ w (lanes1 w f x) e = f (sub_ w x e) % 2 ^ w := by
  unfold lanes1
  rw [sub_joinSubs h _ _ (Nat.le_of_eq ((List.length_map _).trans (subs_length w x)))]
  simp [List.getD, subs_get w x e he]
/-- One operation on every pair of sub-elements. -/
theorem sub_lanes2 {w : Nat} (h : LaneWidth w) (f : Nat → Nat → Nat) (x y : W64) (e : Nat) (he : e < 64 / w) :
    sub_ w (lanes2 w f x y) e = f (sub_ w x e) (sub_ w y e) % 2 ^ w := by
  unfold lanes2
  rw [sub_joinSubs h _ _ (by rw [List.length_zipWith, subs_length, subs_length]; omega)]
  simp [List.getD, List.getElem?_zipWith, subs_get w x e he, subs_get w y e he]
/-- One operation on every triple of sub-elements. -/
theorem sub_lanes3 {w : Nat} (h : LaneWidth w) (f : Nat → Nat → Nat → Nat) (x y z : W64) (e : Nat) (he : e < 64 / w) :
    sub_ w (lanes3 w f x y z) e = f (sub_ w x e) (sub_ w y e) (sub_ w z e) % 2 ^ w := by
  unfold lanes3
  rw [sub_joinSubs h _ _ (by rw [List.length_zipWith, List.length_zip, subs_length, subs_length, subs_length]; omega)]
  simp [List.getD, List.getElem?_zipWith, subs_get w x e he, subs_get w y e he, subs_get w z e he, List.zip]
/-- A value in every sub-element. -/
theorem sub_splat {w : Nat} (h : LaneWidth w) (n e : Nat) (he : e < 64 / w) : sub_ w (splat w n) e = n % 2 ^ w := by
  unfold splat
  rw [sub_joinSubs h _ _ (by simp)]
  simp [List.getD, he]

end Sys2Proof.Machine
end

