-- ==== Sys2Proof/Laws/Sha.lean ====
section
/-!
SUPPORT. Lengths of a number's bytes and of a digest (18 R402).
-/
namespace Sys2Proof.Machine

@[simp] theorem length_leBytes (n v : Nat) : (leBytes n v).length = n := by
  induction n generalizing v with
  | zero => rfl
  | succ n ih => simp [leBytes, ih]
@[simp] theorem length_sha256 (m : List Byte) : (sha256 m).length = 32 := by simp [sha256]

end Sys2Proof.Machine
end

