-- ==== Sys2Proof/Laws/Wf.lean ====
section
/-!
SUPPORT. The canonical form of memory and poison marks (`State.wf`) through every operation: what an outcome, an
optional state and a list of acts must satisfy.
-/
namespace Sys2Proof.Machine

/-- The next state, if any, is in canonical form. -/
inductive OutWf : Out → Prop
  | next {t : State} (h : t.wf = true) : OutWf (.next t)
  | fault (f : Fault) : OutWf (.fault f)
  | refused (r : Refusal) : OutWf (.refused r)
/-- The state, if any, is. -/
inductive OptWf : Option State → Prop
  | some {t : State} (h : t.wf = true) : OptWf (some t)
  | none : OptWf none
/-- The same of what a request leads to. -/
inductive ReadyWf : Ready → Prop
  | wait {t : State} (h : t.wf = true) : ReadyWf (.wait t)
  | go {t : State} (h : t.wf = true) : ReadyWf (.go t)

theorem wf_split {s : State} : s.wf = true ↔ Memory.wf s.mem = true ∧ tblWf false s.poison = true := by
  unfold State.wf; exact Bool.and_eq_true _ _ ▸ Iff.rfl
/-- A state with the memory and the marks of another. -/
theorem wf_same {s t : State} (h : s.wf = true) (hm : t.mem = s.mem) (hp : t.poison = s.poison) : t.wf = true := by
  unfold State.wf at *; rw [hm, hp]; exact h
/-- A state written out. -/
theorem wf_mk {g parked sched draws nextId mem poison wts rts pclk homeQ tlb walks invals cores arrays dampers riddle images ctxs disp own fab hif sys} :
    State.wf (State.mk g parked sched draws nextId mem poison wts rts pclk homeQ tlb walks invals cores arrays dampers riddle images ctxs disp own fab hif sys) = (Memory.wf mem && tblWf false poison) := rfl
/-- Back to the state that the memory and the marks belong to. -/
theorem wf_back {s : State} (h : s.wf = true) : (Memory.wf s.mem && tblWf false s.poison) = true := h
/-- Bytes and marks of some keys are kept. -/
theorem wf_keep {s : State} {p q : Nat → Bool} (h : s.wf = true) :
    (Memory.wf (tblKeep p s.mem) && tblWf false (tblKeep q s.poison)) = true := by
  obtain ⟨hm, hp⟩ := wf_split.1 h
  rw [Bool.and_eq_true]
  exact ⟨tblWf_tblKeep _ _ _ hm, tblWf_tblKeep _ _ _ hp⟩
theorem wf_foldL {α : Type} {f : State → α → State} {s : State} {l : List α}
    (h : ∀ s a, s.wf = true → (f s a).wf = true) (hs : s.wf = true) : (foldL f s l).wf = true :=
  foldL_keeps (p := fun s => State.wf s = true) h s l hs
theorem wf_ite {c : Prop} [Decidable c] {a b : State} (ha : a.wf = true) (hb : b.wf = true) :
    (if c then a else b).wf = true := by split <;> assumption
theorem outWf_ite {c : Prop} [Decidable c] {a b : Out} (ha : OutWf a) (hb : OutWf b) :
    OutWf (if c then a else b) := by split <;> assumption
theorem wf_out {o : Out} {t : State} (h : OutWf o) (e : o = .next t) : t.wf = true := by
  subst e; cases h; assumption
theorem wf_opt {o : Option State} {t : State} (h : OptWf o) (e : o = some t) : t.wf = true := by
  subst e; cases h; assumption
theorem wf_readyW {r : Ready} {t : State} (h : ReadyWf r) (e : r = .wait t) : t.wf = true := by
  subst e; cases h; assumption
theorem wf_readyG {r : Ready} {t : State} (h : ReadyWf r) (e : r = .go t) : t.wf = true := by
  subst e; cases h; assumption

/-- An act keeps the form. -/
structure ActWf (f : State → Out) : Prop where
  keeps : ∀ s, s.wf = true → OutWf (f s)
/-- Every act of a list does. -/
structure ActsWf (l : Acts) : Prop where
  each : ∀ f ∈ l, ActWf f
theorem actsWf_nil : ActsWf [] := ⟨by simp⟩
theorem actsWf_cons {f : State → Out} {l : Acts} (h : ActWf f) (hl : ActsWf l) : ActsWf (f :: l) :=
  ⟨by
      intro g hg
      rcases List.mem_cons.1 hg with e | e
      · exact e ▸ h
      · exact hl.each g e⟩
theorem actsWf_append {l r : Acts} (hl : ActsWf l) (hr : ActsWf r) : ActsWf (l ++ r) :=
  ⟨by
      intro g hg
      rcases List.mem_append.1 hg with e | e
      · exact hl.each g e
      · exact hr.each g e⟩
theorem actsWf_flatMap {α : Type} {l : List α} {f : α → Acts} (h : ∀ a, ActsWf (f a)) : ActsWf (l.flatMap f) :=
  ⟨by intro g hg; obtain ⟨a, _, e⟩ := List.mem_flatMap.1 hg; exact (h a).each g e⟩
/-- A picked element is one of the list's. -/
theorem mem_of_pick {α : Type} {d : Nat} {l : List α} {x : α} (h : pick d l = some x) : x ∈ l := by
  unfold pick at h
  split at h
  · cases h
  · cases h; exact List.mem_singleton.2 rfl
  · exact List.mem_of_getElem? h
theorem actsWf_filterMap {α : Type} {l : List α} {f : α → Option (State → Out)} (h : ∀ a g, f a = some g → ActWf g) :
    ActsWf (l.filterMap f) :=
  ⟨by intro g hg; obtain ⟨a, _, e⟩ := List.mem_filterMap.1 hg; exact h a g e⟩
theorem actsWf_map {α : Type} {l : List α} {f : α → State → Out} (h : ∀ a, ActWf (f a)) : ActsWf (l.map f) :=
  ⟨by intro g hg; obtain ⟨a, _, e⟩ := List.mem_map.1 hg; exact e ▸ h a⟩

end Sys2Proof.Machine
end

