-- ==== Sys2Proof/Laws/WfOps.lean ====
section
/-!
SUPPORT. Every shared operation keeps the canonical form of memory and poison marks.
-/
namespace Sys2Proof.Machine

theorem wf_State_touchOwner (s : State) (a : W64) (h0 : s.wf = true) : State.wf (State.touchOwner s a) = true := by
  unfold State.touchOwner
  repeat' (with_reducible first | assumption | (refine wf_back ?_) | split | (simp only [wf_mk]))
theorem wf_State_emit (s : State) (p : Packet) (h0 : s.wf = true) : State.wf (State.emit s p) = true := by
  unfold State.emit
  repeat' (with_reducible first | assumption | (refine wf_back ?_) | (simp only [wf_mk]))
theorem wf_State_request (s : State) (p : Packet) (use : ReqFor) (h0 : s.wf = true) : State.wf (State.request s p
    use) = true := by
  unfold State.request
  repeat' (with_reducible first
    | assumption | apply wf_State_touchOwner | apply wf_State_emit | (refine wf_back ?_) | split
    | (simp only [wf_mk]))
theorem wf_State_askLine (s : State) (unit : Nat) (line : Nat) (excl : Bool) (h0 : s.wf = true) : State.wf
    (State.askLine s unit line excl) = true := by
  unfold State.askLine
  repeat' (with_reducible first | assumption | apply wf_State_request | split | (simp only))
theorem wf_State_recall (s : State) (line : Nat) (h0 : s.wf = true) : State.wf (State.recall s line) = true := by
  unfold State.recall
  repeat' (with_reducible first | assumption | apply wf_State_request | split)
theorem wf_State_sendInvals (s : State) (a__internal_hyg0 : List (Nat × Nat × W64)) (h0 : s.wf = true) : State.wf
    (State.sendInvals s a__internal_hyg0) = true := by
  induction a__internal_hyg0 generalizing s with
  | nil =>
    unfold State.sendInvals
    repeat' (with_reducible assumption)
  | cons _ _ ih =>
    unfold State.sendInvals
    repeat' (with_reducible first | apply ih | assumption | apply wf_State_request)
theorem wf_State_flushInvals (s : State) (h0 : s.wf = true) : State.wf (State.flushInvals s) = true := by
  unfold State.flushInvals
  repeat' (with_reducible first
    | assumption | apply wf_State_sendInvals | (refine wf_back ?_) | split | (simp only [wf_mk]))
theorem wf_State_unshare (s : State) (ls : List Nat) (keep : Option Nat) (h0 : s.wf = true) : OptWf (State.unshare s
    ls keep) := by
  unfold State.unshare
  repeat' (with_reducible first
    | assumption | apply wf_State_flushInvals | apply OptWf.some | exact OptWf.none | (refine wf_back ?_) | split
    | (simp only [wf_mk]))
theorem wf_State_getLine (s : State) (unit : Nat) (line : Nat) (excl : Bool) (h0 : s.wf = true) : State.wf
    (State.getLine s unit line excl) = true := by
  unfold State.getLine
  have h := wf_State_unshare s [line - shareLine] none h0
  split
  · exact h0
  · split
    · exact wf_State_askLine _ _ _ _ h0
    · split
      · exact wf_State_recall _ _ h0
      · cases e : s.unshare [line - shareLine] none with
        | none => exact h0
        | some t => rw [e] at h; cases h; assumption
theorem wf_State_dropHolder (s : State) (c : Nat) (h0 : s.wf = true) : State.wf (State.dropHolder s c) = true := by
  unfold State.dropHolder
  repeat' (with_reducible first | assumption | (refine wf_back ?_) | split | (simp only [wf_mk]))
theorem wf_State_setCore (s : State) (c : Nat) (x : Core) (h0 : s.wf = true) : State.wf (State.setCore s c x) = true
    := by
  unfold State.setCore
  repeat' (with_reducible first | assumption | (refine wf_back ?_) | (simp only [wf_mk]))
theorem wf_State_record (s : State) (r : Record) (h0 : s.wf = true) : State.wf (State.record s r) = true := by
  unfold State.record
  repeat' (with_reducible first | assumption | (refine wf_back ?_) | (simp only [wf_mk]))
theorem wf_State_fireSnap (s : State) (src : Nat) (tag : Option (BitVec 12)) (h0 : s.wf = true) : State.wf
    (State.fireSnap s src tag) = true := by
  unfold State.fireSnap
  repeat' (with_reducible first | assumption | (refine wf_back ?_) | split | (simp only [wf_mk]))
theorem wf_State_errorRecord (s : State) (kind : Nat) (src : Nat) (die : Nat) (inst : Nat) (addr : W64) (tag : W64)
    (count : Nat) (h0 : s.wf = true) : State.wf (State.errorRecord s kind src die inst addr tag count) = true := by
  unfold State.errorRecord
  repeat' (with_reducible first
    | assumption | apply wf_State_record | apply wf_State_fireSnap | split | (simp only))
theorem wf_State_uncorrectable (s : State) (kind : Nat) (die : Nat) (inst : Nat) (addr : W64) (tag : W64) (h0 : s.wf
    = true) : State.wf (State.uncorrectable s kind die inst addr tag) = true := by
  unfold State.uncorrectable
  repeat' (with_reducible first | assumption | apply wf_State_errorRecord)
theorem wf_State_lostWrite (s : State) (d : Nat) (k : Nat) (a : W64) (h0 : s.wf = true) : State.wf (State.lostWrite s
    d k a) = true := by
  unfold State.lostWrite
  repeat' (with_reducible first | assumption | apply wf_State_uncorrectable)
theorem wf_State_overCut (s : State) (die : Nat) (t : List (Nat × Held)) (h0 : s.wf = true) : State.wf (State.overCut
    s die t).1 = true := by
  unfold State.overCut
  repeat' (with_reducible first | assumption | apply wf_State_lostWrite | apply wf_foldL | intro _ | split)
theorem wf_State_noteSnap (s : State) (ks : List Nat) (h0 : s.wf = true) : State.wf (State.noteSnap s ks) = true := by
  unfold State.noteSnap
  repeat' (with_reducible first | assumption | (refine wf_back ?_) | split | (simp only [wf_mk]))
theorem wf_State_setPsn (s : State) (k : Nat) (b : Bool) (h0 : s.wf = true) : State.wf (State.setPsn s k b) = true :=
    by
  obtain ⟨hm, hp⟩ := wf_split.1 h0
  exact wf_split.2 ⟨hm, tblWf_tblSet _ _ _ _ hp⟩
theorem wf_State_poisonWords (s : State) (a__internal_hyg0 : List Nat) (h0 : s.wf = true) : State.wf
    (State.poisonWords s a__internal_hyg0) = true := by
  induction a__internal_hyg0 generalizing s with
  | nil =>
    unfold State.poisonWords
    repeat' (with_reducible assumption)
  | cons _ _ ih =>
    unfold State.poisonWords
    repeat' (with_reducible first | apply ih | assumption | apply wf_State_setPsn)
theorem wf_State_setByte (s : State) (k : Nat) (b : Byte) (h0 : s.wf = true) : State.wf (State.setByte s k b) = true
    := by
  obtain ⟨hm, hp⟩ := wf_split.1 h0
  exact wf_split.2 ⟨tblWf_tblSet _ _ _ _ hm, hp⟩
theorem wf_State_putBytes (s : State) (a__internal_hyg0 : List (Nat × Byte)) (h0 : s.wf = true) : State.wf
    (State.putBytes s a__internal_hyg0) = true := by
  induction a__internal_hyg0 generalizing s with
  | nil =>
    unfold State.putBytes
    repeat' (with_reducible assumption)
  | cons _ _ ih =>
    unfold State.putBytes
    repeat' (with_reducible first | apply ih | assumption | apply wf_State_setByte)
theorem wf_State_writePoisoned (s : State) (cells : List (Nat × Byte)) (h0 : s.wf = true) : State.wf
    (State.writePoisoned s cells) = true := by
  unfold State.writePoisoned
  repeat' (with_reducible first | assumption | apply wf_State_poisonWords | apply wf_State_putBytes)
theorem wf_State_clearCovered (s : State) (ks : List Nat) (a__internal_hyg0 : List Nat) (h0 : s.wf = true) : State.wf
    (State.clearCovered s ks a__internal_hyg0) = true := by
  induction a__internal_hyg0 generalizing s ks with
  | nil =>
    unfold State.clearCovered
    repeat' (with_reducible first | assumption | apply wf_State_setPsn)
  | cons _ _ ih =>
    unfold State.clearCovered
    repeat' (with_reducible first | apply ih | assumption | apply wf_State_setPsn | split)
theorem wf_State_writeClean (s : State) (cells : List (Nat × Byte)) (h0 : s.wf = true) : State.wf (State.writeClean s
    cells) = true := by
  unfold State.writeClean
  repeat' (with_reducible first | assumption | apply wf_State_clearCovered | apply wf_State_putBytes)
theorem wf_State_prunePubs (s : State) (h0 : s.wf = true) : State.wf (State.prunePubs s) = true := by
  unfold State.prunePubs
  repeat' (with_reducible first | assumption | (refine wf_back ?_) | split | (simp only [wf_mk]))
theorem wf_State_notePub (s : State) (ls : List Nat) (h0 : s.wf = true) : State.wf (State.notePub s ls) = true := by
  unfold State.notePub
  repeat' (with_reducible first
    | assumption | apply wf_State_prunePubs | (refine wf_back ?_) | split | (simp only [wf_mk]))
theorem wf_State_noteSharers (s : State) (ls : List Nat) (h0 : s.wf = true) : State.wf (State.noteSharers s ls) =
    true := by
  unfold State.noteSharers
  repeat' (with_reducible first | assumption | (refine wf_back ?_) | split | (simp only [wf_mk]))
theorem wf_State_noteOver (s : State) (a__internal_hyg0 : List Nat) (h0 : s.wf = true) : State.wf (State.noteOver s
    a__internal_hyg0) = true := by
  induction a__internal_hyg0 generalizing s with
  | nil =>
    unfold State.noteOver
    repeat' (with_reducible first | assumption | split)
  | cons _ _ ih =>
    unfold State.noteOver
    repeat' (with_reducible first | apply ih | assumption | (refine wf_back ?_) | split | (simp only [wf_mk]))
theorem wf_State_dirtyPeers (s : State) (a__internal_hyg0 : List Nat) (h0 : s.wf = true) : State.wf (State.dirtyPeers
    s a__internal_hyg0) = true := by
  induction a__internal_hyg0 generalizing s with
  | nil =>
    unfold State.dirtyPeers
    repeat' (with_reducible first | assumption | split)
  | cons _ _ ih =>
    unfold State.dirtyPeers
    repeat' (with_reducible first | apply ih | assumption | (refine wf_back ?_) | split | (simp only [wf_mk]))
theorem wf_State_setWts (s : State) (p : Nat) (a__internal_hyg0 : List Nat) (h0 : s.wf = true) : State.wf
    (State.setWts s p a__internal_hyg0) = true := by
  induction a__internal_hyg0 generalizing s p with
  | nil =>
    unfold State.setWts
    repeat' (with_reducible first | assumption | (refine wf_back ?_))
  | cons _ _ ih =>
    unfold State.setWts
    repeat' (with_reducible first | apply ih | assumption | (refine wf_back ?_) | (simp only [wf_mk]))
theorem wf_State_publish (s : State) (t : List (Nat × Held)) (gts : Nat) (h0 : s.wf = true) : State.wf (State.publish
    s t gts).1 = true := by
  unfold State.publish
  repeat' (with_reducible first
    | assumption | apply wf_State_noteSnap | apply wf_State_poisonWords | apply wf_State_writePoisoned
    | apply wf_State_writeClean | apply wf_State_notePub | apply wf_State_noteSharers | apply wf_State_noteOver
    | apply wf_State_dirtyPeers | apply wf_State_setWts | (refine wf_back ?_) | split | (simp only [wf_mk]))
theorem wf_State_forceBut (s : State) (c : Nat) (but : List Nat) (h0 : s.wf = true) : State.wf (State.forceBut s c
    but) = true := by
  unfold State.forceBut
  repeat' (with_reducible first
    | assumption | apply wf_State_dropHolder | apply wf_State_setCore | apply wf_State_overCut
    | apply wf_State_publish | split | (simp only))
theorem wf_State_forcePublish (s : State) (c : Nat) (h0 : s.wf = true) : State.wf (State.forcePublish s c) = true :=
    by
  unfold State.forcePublish
  repeat' (with_reducible first | assumption | apply wf_State_forceBut)
theorem wf_State_widen (s : State) (except_ : Option Nat) (ks : List Nat) (h0 : s.wf = true) : State.wf (State.widen
    s except_ ks) = true := by
  unfold State.widen
  repeat' (with_reducible first | assumption | apply wf_State_forcePublish | apply wf_foldL)
theorem wf_State_carryAlone (s : State) (gid : Nat) (ks : List Nat) (h0 : s.wf = true) : State.wf (State.carryAlone s
    gid ks) = true := by
  unfold State.carryAlone
  repeat' (with_reducible first
    | assumption | apply wf_State_widen | apply wf_State_forceBut | split | (simp only))
theorem wf_State_setG (s : State) (g : Group) (h0 : s.wf = true) : State.wf (State.setG s g) = true := by
  unfold State.setG
  repeat' (with_reducible first | assumption | (refine wf_back ?_) | (simp only [wf_mk]))
theorem wf_State_modGid (s : State) (i : Nat) (f : Group → Group) (h0 : s.wf = true) : State.wf (State.modGid s i f)
    = true := by
  unfold State.modGid
  repeat' (with_reducible first
    | assumption | apply wf_State_setG | (refine wf_back ?_) | split | (simp only [wf_mk]))
theorem wf_State_modEver (s : State) (i : Nat) (f : Group → Group) (h0 : s.wf = true) : State.wf (State.modEver s i
    f) = true := by
  unfold State.modEver
  repeat' (with_reducible first
    | assumption | apply wf_State_modGid | (refine wf_back ?_) | split | (simp only [wf_mk]))
theorem wf_State_claimFill (s : State) (gid : Nat) (pend : Nat) (v : W64) (psn : Bool) (h0 : s.wf = true) : State.wf
    (State.claimFill s gid pend v psn) = true := by
  unfold State.claimFill
  repeat' (with_reducible first | assumption | (refine wf_back ?_) | split | (simp only [wf_mk]))
theorem wf_State_fillPend (s : State) (gid : Nat) (pend : Nat) (d : Dest) (v : W64) (psn : Bool) (a : W64) (h0 : s.wf
    = true) : State.wf (State.fillPend s gid pend d v psn a) = true := by
  unfold State.fillPend
  repeat' (with_reducible first | assumption | apply wf_State_modEver | apply wf_State_claimFill)
theorem wf_State_fillFor (s : State) (h : HomeOp) (v : W64) (psn : Bool) (h0 : s.wf = true) : State.wf (State.fillFor
    s h v psn) = true := by
  unfold State.fillFor
  repeat' (with_reducible first | assumption | apply wf_State_fillPend | split)
theorem wf_State_sendRmw (s : State) (h : HomeOp) (op : AtomOp) (z : ASize) (c : W64) (d : W64) (ks : List Nat)
    (carried : List Held) (h0 : s.wf = true) : State.wf (State.sendRmw s h op z c d ks carried) = true := by
  unfold State.sendRmw
  repeat' (with_reducible first | assumption | apply wf_State_request)
theorem wf_State_filterAdd (s : State) (alu : Nat) (t : W64) (v : W64) (psn : Bool) (h0 : s.wf = true) : State.wf
    (State.filterAdd s alu t v psn) = true := by
  unfold State.filterAdd
  repeat' (with_reducible first | assumption | (refine wf_back ?_) | (simp only [wf_mk]))
theorem wf_State_filterOwn (s : State) (tag : W64) (k : Nat) (v : W64) (psn : Bool) (h0 : s.wf = true) : State.wf
    (State.filterOwn s tag k v psn) = true := by
  unfold State.filterOwn
  repeat' (with_reducible first | assumption | apply wf_State_filterAdd | split)
theorem wf_State_modCore (s : State) (c : Nat) (f : Core → Core) (h0 : s.wf = true) : State.wf (State.modCore s c f)
    = true := by
  unfold State.modCore
  repeat' (with_reducible first | assumption | apply wf_State_setCore)
theorem wf_State_dropNarrow (s : State) (c : Nat) (ks : List Nat) (h0 : s.wf = true) : State.wf (State.dropNarrow s c
    ks) = true := by
  unfold State.dropNarrow
  repeat' (with_reducible first | assumption | apply wf_State_dropHolder | apply wf_State_modCore)
theorem wf_State_writeHome (s : State) (psn : Bool) (cells : List (Nat × Byte)) (gts : Nat) (h0 : s.wf = true) :
    State.wf (State.writeHome s psn cells gts).1 = true := by
  unfold State.writeHome
  repeat' (with_reducible first | assumption | apply wf_State_publish)
theorem wf_State_hasSeen (s : State) (gid : Nat) (st : Nat) (h0 : s.wf = true) : State.wf (State.hasSeen s gid st) =
    true := by
  unfold State.hasSeen
  repeat' (with_reducible first | assumption | apply wf_State_modGid)
theorem wf_State_applyRmw (s : State) (h : HomeOp) (op : AtomOp) (z : ASize) (c : W64) (d : W64) (ks : List Nat)
    (carried : List Held) (h0 : s.wf = true) : State.wf (State.applyRmw s h op z c d ks carried) = true := by
  unfold State.applyRmw
  repeat' (with_reducible first
    | assumption | apply wf_State_dropNarrow | apply wf_State_writeHome | apply wf_State_hasSeen
    | apply wf_State_writeClean | apply wf_State_fillFor | apply wf_State_filterOwn | split)
theorem wf_State_performRmw (s : State) (h : HomeOp) (op : AtomOp) (z : ASize) (c : W64) (d : W64) (h0 : s.wf = true)
    : State.wf (State.performRmw s h op z c d) = true := by
  unfold State.performRmw
  repeat' (with_reducible first
    | assumption | apply wf_State_carryAlone | apply wf_State_fillFor | apply wf_State_modEver
    | apply wf_State_lostWrite | apply wf_State_sendRmw | apply wf_State_filterOwn | apply wf_State_uncorrectable
    | apply wf_State_applyRmw | split | (simp only))
theorem wf_State_setBar (s : State) (k : Nat) (b : Bar) (h0 : s.wf = true) : State.wf (State.setBar s k b) = true :=
    by
  unfold State.setBar
  repeat' (with_reducible first | assumption | apply wf_State_putBytes)
theorem wf_State_barUpdate (s : State) (h : HomeOp) (f : Bar → Bar) (h0 : s.wf = true) : State.wf (State.barUpdate s
    h f) = true := by
  unfold State.barUpdate
  repeat' (with_reducible first
    | assumption | apply wf_State_lostWrite | apply wf_State_fillFor | apply wf_State_uncorrectable
    | apply wf_State_filterOwn | apply wf_State_setBar | split | (simp only))
theorem wf_State_cntAddAt (s : State) (ks : List Nat) (glob : Bool) (n : W64) (status : W32) (addr : W64) (tag : W64)
    (h0 : s.wf = true) : State.wf (State.cntAddAt s ks glob n status addr tag) = true := by
  unfold State.cntAddAt
  repeat' (with_reducible first
    | assumption | apply wf_State_widen | apply wf_State_uncorrectable | apply wf_State_filterOwn
    | apply wf_State_writeHome | apply wf_State_writeClean | split | (simp only))
theorem wf_State_performCount (s : State) (h : HomeOp) (n : W64) (status : W32) (h0 : s.wf = true) : State.wf
    (State.performCount s h n status) = true := by
  unfold State.performCount
  repeat' (with_reducible first
    | assumption | apply wf_State_request | apply wf_State_lostWrite | apply wf_State_cntAddAt | split)
theorem wf_State_performHome (s : State) (h : HomeOp) (h0 : s.wf = true) : State.wf (State.performHome s h) = true :=
    by
  unfold State.performHome
  repeat' (with_reducible first
    | assumption | apply wf_State_performRmw | apply wf_State_barUpdate | apply wf_State_performCount
    | apply wf_State_writeClean | split)
theorem wf_State_tryHome (s : State) (h : HomeOp) (h0 : s.wf = true) : State.wf (State.tryHome s h).1 = true := by
  unfold State.tryHome
  repeat' (with_reducible first
    | assumption | apply wf_State_getLine | apply wf_State_flushInvals | apply wf_State_carryAlone
    | apply wf_State_performHome | split | (simp only))
theorem wf_State_performHomes (s : State) (stuck : List HomeOp) (a__internal_hyg0 : List HomeOp) (h0 : s.wf = true) :
    State.wf (State.performHomes s stuck a__internal_hyg0).1 = true := by
  induction a__internal_hyg0 generalizing s stuck with
  | nil =>
    unfold State.performHomes
    repeat' (with_reducible first | assumption | split)
  | cons _ _ ih =>
    unfold State.performHomes
    repeat' (with_reducible first | apply ih | assumption | apply wf_State_tryHome | split | (simp only))
theorem wf_State_drainHome (s : State) (p : HomeOp → Bool) (h0 : s.wf = true) : State.wf (State.drainHome s p) = true
    := by
  unfold State.drainHome
  repeat' (with_reducible first
    | assumption | apply wf_State_performHomes | (refine wf_back ?_) | split | (simp only [wf_mk]))
theorem wf_State_performBank (s : State) (a : BankAcc) (h0 : s.wf = true) : State.wf (State.performBank s a) = true
    := by
  unfold State.performBank
  repeat' (with_reducible first
    | assumption | apply wf_State_performHome | apply wf_State_modEver | apply wf_State_writeClean | split)
theorem wf_State_runBanks (s : State) (stuck : List BankAcc) (a__internal_hyg0 : List BankAcc) (h0 : s.wf = true) :
    State.wf (State.runBanks s stuck a__internal_hyg0).1 = true := by
  induction a__internal_hyg0 generalizing s stuck with
  | nil =>
    unfold State.runBanks
    repeat' (with_reducible first | assumption | apply wf_State_performBank)
  | cons _ _ ih =>
    unfold State.runBanks
    repeat' (with_reducible first | apply ih | assumption | apply wf_State_performBank | split)
theorem wf_State_passBanks (s : State) (c : Nat) (now : List BankAcc) (later : List BankAcc) (h0 : s.wf = true) :
    State.wf (State.passBanks s c now later) = true := by
  unfold State.passBanks
  repeat' (with_reducible first | assumption | apply wf_State_runBanks | apply wf_State_modCore | split)
theorem wf_State_drainShared (s : State) (c : Nat) (ks : List Nat) (h0 : s.wf = true) : State.wf (State.drainShared s
    c ks) = true := by
  unfold State.drainShared
  repeat' (with_reducible first | assumption | apply wf_State_passBanks)
theorem wf_State_settleGroup (s : State) (gid : Nat) (h0 : s.wf = true) : State.wf (State.settleGroup s gid) = true
    := by
  unfold State.settleGroup
  repeat' (with_reducible first
    | assumption | apply wf_State_drainHome | apply wf_State_drainShared | split | (simp only))
theorem wf_State_draw (s : State) (h0 : s.wf = true) : State.wf (State.draw s) = true := by
  unfold State.draw
  repeat' (with_reducible first | assumption | (refine wf_back ?_) | (simp only [wf_mk]))
theorem wf_State_serveMiss (s : State) (c : Nat) (l : Nat) (gts : Nat) (h0 : s.wf = true) : State.wf (State.serveMiss
    s c l gts) = true := by
  unfold State.serveMiss
  repeat' (with_reducible first
    | assumption | apply wf_State_widen | apply wf_State_draw | apply wf_State_setCore | (refine wf_back ?_)
    | (simp only [wf_mk]))
theorem wf_State_loadGlob (s : State) (ks : List Nat) (h0 : s.wf = true) : State.wf (State.loadGlob s ks).1 = true :=
    by
  unfold State.loadGlob
  repeat' (with_reducible first
    | assumption | apply wf_State_widen | apply wf_State_setG | apply wf_State_serveMiss | apply wf_foldL | intro _
    | split | (simp only))
theorem wf_State_drainBefore (s : State) (ks : List Nat) (h0 : s.wf = true) : State.wf (State.drainBefore s ks) =
    true := by
  unfold State.drainBefore
  repeat' (with_reducible first | assumption | apply wf_State_drainShared | split)
theorem wf_State_loadBank (s : State) (ks : List Nat) (h0 : s.wf = true) : State.wf (State.loadBank s ks).1 = true :=
    by
  unfold State.loadBank
  repeat' (with_reducible first | assumption | apply wf_State_drainBefore)
theorem wf_State_dropLost (s : State) (ks : List Nat) (h0 : s.wf = true) : State.wf (State.dropLost s ks) = true := by
  unfold State.dropLost
  repeat' (with_reducible first
    | assumption | apply wf_State_setPsn | apply wf_foldL | (refine wf_back ?_) | intro _ | split
    | (simp only [wf_mk]))
theorem wf_State_load (s : State) (a : Acc) (h0 : s.wf = true) : State.wf (State.load s a).1 = true := by
  unfold State.load
  repeat' (with_reducible first
    | assumption | apply wf_State_loadGlob | apply wf_State_loadBank | apply wf_State_dropLost | split)
theorem wf_State_serveLoad (s : State) (x : LoadOp) (h0 : s.wf = true) : State.wf (State.serveLoad s x).1 = true := by
  unfold State.serveLoad
  repeat' (with_reducible first | assumption | apply wf_State_load | apply wf_State_setG)
theorem wf_State_serveLoads (s : State) (kept : List LoadOp) (a__internal_hyg0 : List LoadOp) (h0 : s.wf = true) :
    State.wf (State.serveLoads s kept a__internal_hyg0) = true := by
  induction a__internal_hyg0 generalizing s kept with
  | nil =>
    unfold State.serveLoads
    repeat' (with_reducible first | assumption | apply wf_State_setG | apply wf_State_serveLoad)
  | cons _ _ ih =>
    unfold State.serveLoads
    repeat' (with_reducible first
      | apply ih | assumption | apply wf_State_setG | apply wf_State_getLine | apply wf_State_serveLoad | split)
theorem wf_State_settleOwn (s : State) (h0 : s.wf = true) : State.wf (State.settleOwn s) = true := by
  unfold State.settleOwn
  repeat' (with_reducible first
    | assumption | apply wf_State_settleGroup | apply wf_State_serveLoads | split | (simp only))
theorem wf_State_noteHolders (s : State) (c : Nat) (a__internal_hyg0 : List Nat) (h0 : s.wf = true) : State.wf
    (State.noteHolders s c a__internal_hyg0) = true := by
  induction a__internal_hyg0 generalizing s c with
  | nil =>
    unfold State.noteHolders
    repeat' (with_reducible first | assumption | apply wf_State_forcePublish | split)
  | cons _ _ ih =>
    unfold State.noteHolders
    repeat' (with_reducible first
      | apply ih | assumption | apply wf_State_forcePublish | (refine wf_back ?_) | split | (simp only [wf_mk]))
theorem wf_State_narrowOut (s : State) (c : Nat) (cover : List (Nat × Held)) (h0 : s.wf = true) : State.wf
    (State.narrowOut s c cover) = true := by
  unfold State.narrowOut
  repeat' (with_reducible first
    | assumption | apply wf_State_noteHolders | apply wf_State_modCore | (refine wf_back ?_) | split
    | (simp only [wf_mk]))
theorem wf_State_releaseSome (s : State) (sc : Scope) (cover : List (Nat × Held)) (f : Group → Group) (h0 : s.wf =
    true) : State.wf (State.releaseSome s sc cover f) = true := by
  unfold State.releaseSome
  repeat' (with_reducible first
    | assumption | apply wf_State_setG | apply wf_State_narrowOut | apply wf_State_dropHolder
    | apply wf_State_modCore | apply wf_State_overCut | apply wf_State_forcePublish | apply wf_State_publish
    | apply wf_State_widen | split | (simp only))
theorem wf_State_releaseGlob (s : State) (sc : Scope) (h0 : s.wf = true) : State.wf (State.releaseGlob s sc) = true
    := by
  unfold State.releaseGlob
  repeat' (with_reducible first | assumption | apply wf_State_releaseSome | split)
theorem wf_State_drainBanks (s : State) (c : Nat) (h0 : s.wf = true) : State.wf (State.drainBanks s c) = true := by
  unfold State.drainBanks
  repeat' (with_reducible first | assumption | apply wf_State_passBanks)
theorem wf_State_drainOwn (s : State) (h0 : s.wf = true) : State.wf (State.drainOwn s) = true := by
  unfold State.drainOwn
  repeat' (with_reducible first | assumption | apply wf_State_drainBanks | split)
theorem wf_State_releaseBank (s : State) (sc : Scope) (h0 : s.wf = true) : State.wf (State.releaseBank s sc) = true
    := by
  unfold State.releaseBank
  repeat' (with_reducible first | assumption | apply wf_State_drainOwn | split)
theorem wf_State_release (s : State) (sc : Scope) (h0 : s.wf = true) : State.wf (State.release s sc) = true := by
  unfold State.release
  repeat' (with_reducible first
    | assumption | apply wf_State_flushInvals | apply wf_State_releaseGlob | apply wf_State_releaseBank
    | apply wf_State_settleOwn)
theorem wf_State_releaseStep (s : State) (sc : Scope) (h0 : s.wf = true) : State.wf (State.releaseStep s sc).1 = true
    := by
  unfold State.releaseStep
  repeat' (with_reducible first
    | assumption | apply wf_State_settleOwn | apply wf_State_release | apply wf_State_getLine | split
    | (simp only))
theorem wf_State_swapTo (s : State) (i : Nat) (h0 : s.wf = true) : State.wf (State.swapTo s i) = true := by
  unfold State.swapTo
  repeat' (with_reducible first | assumption | (refine wf_back ?_) | split | (simp only [wf_mk]))
theorem wf_State_releaseAs (s : State) (gid : Nat) (sc : Scope) (h0 : s.wf = true) : State.wf (State.releaseAs s gid
    sc).1 = true := by
  unfold State.releaseAs
  repeat' (with_reducible first | assumption | apply wf_State_releaseStep | apply wf_State_swapTo | split)
theorem wf_State_modLaunch (s : State) (n : Nat) (f : Launch → Launch) (h0 : s.wf = true) : State.wf (State.modLaunch
    s n f) = true := by
  unfold State.modLaunch
  repeat' (with_reducible first | assumption | (refine wf_back ?_) | (simp only [wf_mk]))
theorem wf_State_opsDec (s : State) (n : Nat) (h0 : s.wf = true) : State.wf (State.opsDec s n) = true := by
  unfold State.opsDec
  repeat' (with_reducible first | assumption | apply wf_State_modLaunch)
theorem wf_State_sectionDone (s : State) (x : Sender) (res : List W64) (aborted : Bool) (h0 : s.wf = true) : State.wf
    (State.sectionDone s x res aborted) = true := by
  unfold State.sectionDone
  repeat' (with_reducible first | assumption | apply wf_State_opsDec | apply wf_State_modEver)
theorem wf_State_reply (s : State) (q : Packet) (p : Packet) (h0 : s.wf = true) : State.wf (State.reply s q p) = true
    := by
  unfold State.reply
  repeat' (with_reducible first | assumption | apply wf_State_emit)
theorem wf_State_sectionResult (s : State) (r : SecReq) (res : List W64) (aborted : Bool) (h0 : s.wf = true) :
    State.wf (State.sectionResult s r res aborted) = true := by
  unfold State.sectionResult
  repeat' (with_reducible first | assumption | apply wf_State_sectionDone | apply wf_State_reply | split)
theorem wf_State_dropLane (s : State) (gid : Nat) (h0 : s.wf = true) : State.wf (State.dropLane s gid) = true := by
  unfold State.dropLane
  repeat' (with_reducible first | assumption | (refine wf_keep ?_) | (simp only [wf_mk]))
theorem wf_State_setArr (s : State) (p : Nat) (x : Arr) (h0 : s.wf = true) : State.wf (State.setArr s p x) = true :=
    by
  unfold State.setArr
  repeat' (with_reducible first | assumption | (refine wf_back ?_) | (simp only [wf_mk]))
theorem wf_State_convEnd (s : State) (pair : Nat) (h0 : s.wf = true) : State.wf (State.convEnd s pair) = true := by
  unfold State.convEnd
  repeat' (with_reducible first
    | assumption | apply wf_State_setArr | apply wf_State_uncorrectable | split | (simp only))
theorem wf_State_streamEnd (s : State) (pair : Nat) (h0 : s.wf = true) : State.wf (State.streamEnd s pair) = true :=
    by
  unfold State.streamEnd
  repeat' (with_reducible first | assumption | apply wf_State_setArr | split | (simp only))
theorem wf_State_streamTo (s : State) (pair : Nat) (k1 : Nat) (h0 : s.wf = true) : State.wf (State.streamTo s pair
    k1) = true := by
  unfold State.streamTo
  repeat' (with_reducible first | assumption | apply wf_State_setArr | split | (simp only))
theorem wf_State_freezeArray (s : State) (pair : Nat) (manual : Bool) (h0 : s.wf = true) : State.wf
    (State.freezeArray s pair manual) = true := by
  unfold State.freezeArray
  repeat' (with_reducible first
    | assumption | apply wf_State_setArr | apply wf_State_streamTo | split | (simp only))
theorem wf_State_boundary (s : State) (pair : Nat) (h0 : s.wf = true) : State.wf (State.boundary s pair) = true := by
  unfold State.boundary
  repeat' (with_reducible first | assumption | apply wf_State_freezeArray | split)
theorem wf_State_runArray (s : State) (pair : Nat) (h0 : s.wf = true) : State.wf (State.runArray s pair) = true := by
  unfold State.runArray
  repeat' (with_reducible first
    | assumption | apply wf_State_convEnd | apply wf_State_streamEnd | apply wf_State_boundary)
theorem wf_State_thawForExit (s : State) (pair : Nat) (h0 : s.wf = true) : State.wf (State.thawForExit s pair) = true
    := by
  unfold State.thawForExit
  repeat' (with_reducible first | assumption | apply wf_State_setArr | split | (simp only))
theorem wf_State_leaveMatrix (s : State) (g : Group) (h0 : s.wf = true) : State.wf (State.leaveMatrix s g) = true :=
    by
  unfold State.leaveMatrix
  repeat' (with_reducible first
    | assumption | apply wf_State_runArray | apply wf_State_thawForExit | apply wf_State_setArr | split)
theorem wf_State_setCtx (s : State) (c : Nat) (x : Ctx) (h0 : s.wf = true) : State.wf (State.setCtx s c x) = true :=
    by
  unfold State.setCtx
  repeat' (with_reducible first | assumption | (refine wf_back ?_) | (simp only [wf_mk]))
theorem wf_State_saveCore (s : State) (ctx : Nat) (c : Nat) (h0 : s.wf = true) : State.wf (State.saveCore s ctx c) =
    true := by
  unfold State.saveCore
  repeat' (with_reducible first
    | assumption | apply wf_State_drainHome | apply wf_State_drainBanks | apply wf_State_setCtx
    | apply wf_State_setCore | apply wf_State_setArr | split)
theorem wf_State_saveLast (s : State) (ctx : Nat) (c : Nat) (h0 : s.wf = true) : State.wf (State.saveLast s ctx c) =
    true := by
  unfold State.saveLast
  repeat' (with_reducible first
    | assumption | apply wf_State_saveCore | apply wf_foldL | intro _ | split | (simp only))
theorem wf_State_freeGroup (s : State) (g : Group) (h0 : s.wf = true) : State.wf (State.freeGroup s g) = true := by
  unfold State.freeGroup
  repeat' (with_reducible first
    | assumption | apply wf_State_dropLane | apply wf_State_leaveMatrix | apply wf_State_setG
    | apply wf_State_saveLast | (refine wf_back ?_) | split | (simp only [wf_mk]))
theorem wf_State_abortSection (s : State) (g : Group) (h0 : s.wf = true) : State.wf (State.abortSection s g).1 = true
    := by
  unfold State.abortSection
  repeat' (with_reducible first
    | assumption | apply wf_State_releaseAs | apply wf_State_sectionResult | apply wf_State_freeGroup | split
    | (simp only))
theorem wf_State_abortSections (s : State) (c : Nat) (h0 : s.wf = true) : State.wf (State.abortSections s c) = true
    := by
  unfold State.abortSections
  repeat' (with_reducible first | assumption | apply wf_State_abortSection | apply wf_foldL)
theorem wf_State_ackAtomic (s : State) (p : Packet) (h0 : s.wf = true) : State.wf (State.ackAtomic s p) = true := by
  unfold State.ackAtomic
  repeat' (with_reducible first | assumption | apply wf_State_emit)
theorem wf_State_ackOwn (s : State) (h0 : s.wf = true) : State.wf (State.ackOwn s) = true := by
  unfold State.ackOwn
  repeat' (with_reducible first | assumption | (refine wf_back ?_) | (simp only [wf_mk]))
theorem wf_State_acquire (s : State) (h0 : s.wf = true) : State.wf (State.acquire s) = true := by
  unfold State.acquire
  repeat' (with_reducible first | assumption | apply wf_State_setG | split)
theorem wf_State_addSharer (s : State) (line : Nat) (d : Nat) (a : W64) (h0 : s.wf = true) : State.wf
    (State.addSharer s line d a) = true := by
  unfold State.addSharer
  repeat' (with_reducible first | assumption | (refine wf_back ?_) | (simp only [wf_mk]))
theorem wf_State_reissue (s : State) (r : SecReq) (h0 : s.wf = true) : State.wf (State.reissue s r).1 = true := by
  unfold State.reissue
  repeat' (with_reducible first | assumption | apply wf_State_releaseAs | split)
theorem wf_State_setDamper (s : State) (d : Nat) (x : Damper) (h0 : s.wf = true) : State.wf (State.setDamper s d x) =
    true := by
  unfold State.setDamper
  repeat' (with_reducible first | assumption | (refine wf_back ?_) | (simp only [wf_mk]))
theorem wf_State_admitListed (s : State) (d : Nat) (h0 : s.wf = true) : State.wf (State.admitListed s d) = true := by
  unfold State.admitListed
  repeat' (with_reducible first
    | assumption | apply wf_State_reissue | apply wf_State_setDamper | split | (simp only))
theorem wf_State_setPhysWord (s : State) (a : Nat) (v : W64) (h0 : s.wf = true) : State.wf (State.setPhysWord s a v)
    = true := by
  unfold State.setPhysWord
  repeat' (with_reducible first | assumption | apply wf_State_writeHome | apply wf_State_widen)
theorem wf_State_advance (s : State) (j : Nat) (h : Head) (h0 : s.wf = true) : State.wf (State.advance s j h) = true
    := by
  unfold State.advance
  repeat' (with_reducible first
    | assumption | apply wf_State_setCtx | apply wf_State_setPhysWord | (refine wf_back ?_) | split
    | (simp only [wf_mk]))
theorem wf_State_asGroup (s : State) (gid : Nat) (f : State → State) (h0 : s.wf = true) (h2 : ∀ y0, y0.wf = true →
    State.wf (f y0) = true) : State.wf (State.asGroup s gid f) = true := by
  unfold State.asGroup
  repeat' (with_reducible first | assumption | apply h2 | apply wf_State_swapTo | split)
theorem wf_State_learnOwner (s : State) (a : W64) (d : Nat) (h0 : s.wf = true) : State.wf (State.learnOwner s a d) =
    true := by
  unfold State.learnOwner
  repeat' (with_reducible first | assumption | (refine wf_back ?_) | split | (simp only [wf_mk]))
theorem wf_State_modReq (s : State) (t : W64) (f : Req → Req) (h0 : s.wf = true) : State.wf (State.modReq s t f) =
    true := by
  unfold State.modReq
  repeat' (with_reducible first | assumption | (refine wf_back ?_) | (simp only [wf_mk]))
theorem wf_State_resend (s : State) (r : Req) (o : Nat) (asked : Bool) (h0 : s.wf = true) : State.wf (State.resend s
    r o asked) = true := by
  unfold State.resend
  repeat' (with_reducible first | assumption | apply wf_State_emit | apply wf_State_modReq)
theorem wf_State_ownerKnown (s : State) (page : W64) (o : Nat) (h0 : s.wf = true) : State.wf (State.ownerKnown s page
    o) = true := by
  unfold State.ownerKnown
  repeat' (with_reducible first
    | assumption | apply wf_State_learnOwner | apply wf_State_resend | apply wf_foldL | intro _)
theorem wf_State_askOwner (s : State) (a : W64) (h0 : s.wf = true) : State.wf (State.askOwner s a) = true := by
  unfold State.askOwner
  repeat' (with_reducible first
    | assumption | apply wf_State_ownerKnown | apply wf_State_request | split | (simp only))
theorem wf_State_setLink (s : State) (n : Nat) (l : FLink) (h0 : s.wf = true) : State.wf (State.setLink s n l) = true
    := by
  unfold State.setLink
  repeat' (with_reducible first | assumption | (refine wf_back ?_) | (simp only [wf_mk]))
theorem wf_State_pumpLink (s : State) (n : Nat) (h0 : s.wf = true) : State.wf (State.pumpLink s n) = true := by
  unfold State.pumpLink
  repeat' (with_reducible first | assumption | apply wf_State_setLink | split | (simp only))
theorem wf_State_linkSend (s : State) (n : Nat) (p : Packet) (h0 : s.wf = true) : State.wf (State.linkSend s n p) =
    true := by
  unfold State.linkSend
  repeat' (with_reducible first | assumption | apply wf_State_pumpLink | apply wf_State_setLink)
theorem wf_State_askRetrain (s : State) (n : Nat) (h0 : s.wf = true) : State.wf (State.askRetrain s n) = true := by
  unfold State.askRetrain
  repeat' (with_reducible first
    | assumption | apply wf_State_linkSend | (refine wf_back ?_) | split | (simp only [wf_mk]))
theorem wf_State_atomDone (s : State) (gid : Nat) (q : Packet) (carried : List (Nat × Bool)) (h0 : s.wf = true) :
    State.wf (State.atomDone s gid q carried) = true := by
  unfold State.atomDone
  repeat' (with_reducible first
    | assumption | apply wf_State_modCore | apply wf_State_dropNarrow | apply wf_State_hasSeen | split)
theorem wf_State_requeue (s : State) (h0 : s.wf = true) : State.wf (State.requeue s) = true := by
  unfold State.requeue
  repeat' (with_reducible first | assumption | (refine wf_back ?_) | split | (simp only [wf_mk]))
theorem wf_State_atomReply (s : State) (gid : Nat) (pend : Nat) (dest : Option Dest) (carried : List (Nat × Bool)) (q
    : Packet) (v : W64) (psn : Bool) (h0 : s.wf = true) : State.wf (State.atomReply s gid pend dest carried q v psn)
    = true := by
  unfold State.atomReply
  repeat' (with_reducible first
    | assumption | apply wf_State_modEver | apply wf_State_atomDone | apply wf_State_fillPend
    | apply wf_State_requeue | apply wf_State_modGid | split)
theorem wf_State_atomicReply (s : State) (p : Packet) (v : W64) (psn : Bool) (h0 : s.wf = true) : State.wf
    (State.atomicReply s p v psn) = true := by
  unfold State.atomicReply
  repeat' (with_reducible first | assumption | apply wf_State_reply)
theorem wf_State_atomicApply (s : State) (p : Packet) (ks : List Nat) (h0 : s.wf = true) : State.wf
    (State.atomicApply s p ks) = true := by
  unfold State.atomicApply
  repeat' (with_reducible first
    | assumption | apply wf_State_cntAddAt | apply wf_State_atomicReply | apply wf_State_filterAdd
    | apply wf_State_uncorrectable | apply wf_State_writeHome | split | (simp only))
theorem wf_State_attStart (s : State) (v : W32) (h0 : s.wf = true) : State.wf (State.attStart s v) = true := by
  unfold State.attStart
  repeat' (with_reducible first | assumption | (refine wf_back ?_) | split | (simp only [wf_mk]))
theorem wf_State_fresh (s : State) (h0 : s.wf = true) : State.wf (State.fresh s) = true := by
  unfold State.fresh
  repeat' (with_reducible first | assumption | (refine wf_back ?_) | (simp only [wf_mk]))
theorem wf_State_await (s : State) (flag : Option Nat) (addr : W64) (dests : List Dest) (h0 : s.wf = true) : State.wf
    (State.await s flag addr dests) = true := by
  unfold State.await
  repeat' (with_reducible first | assumption | apply wf_State_fresh | apply wf_State_setG)
theorem wf_State_blockOn (s : State) (b : Block) (h0 : s.wf = true) : OutWf (State.blockOn s b) := by
  unfold State.blockOn
  repeat' (with_reducible first | assumption | apply wf_State_setG | apply OutWf.next)
theorem wf_State_bootFail (s : State) (reason : BitVec 8) (h0 : s.wf = true) : State.wf (State.bootFail s reason) =
    true := by
  unfold State.bootFail
  repeat' (with_reducible first | assumption | (refine wf_back ?_) | (simp only [wf_mk]))
theorem wf_State_cacheIn (s : State) (l : Leaf) (ctx : Nat) (off : Nat) (n : Nat) (h0 : s.wf = true) : State.wf
    (State.cacheIn s l ctx off n) = true := by
  unfold State.cacheIn
  repeat' (with_reducible first | assumption | (refine wf_back ?_) | split | (simp only [wf_mk]))
theorem wf_State_migCount (s : State) (n : Nat) (h0 : s.wf = true) : State.wf (State.migCount s n) = true := by
  unfold State.migCount
  repeat' (with_reducible first | assumption | (refine wf_back ?_) | (simp only [wf_mk]))
theorem wf_State_endReq (s : State) (r : Req) (h0 : s.wf = true) : State.wf (State.endReq s r) = true := by
  unfold State.endReq
  repeat' (with_reducible first
    | assumption | apply wf_State_resend | apply wf_foldL | (refine wf_back ?_) | intro _ | (simp only [wf_mk]))
theorem wf_State_modGroups (s : State) (p : Group → Bool) (f : Group → Group) (h0 : s.wf = true) : State.wf
    (State.modGroups s p f) = true := by
  unfold State.modGroups
  repeat' (with_reducible first | assumption | (refine wf_back ?_) | (simp only [wf_mk]))
theorem wf_State_wakePeer (s : State) (line : Nat) (h0 : s.wf = true) : State.wf (State.wakePeer s line) = true := by
  unfold State.wakePeer
  repeat' (with_reducible first | assumption | apply wf_State_modGroups)
theorem wf_State_setPeer (s : State) (line : Nat) (l : PeerLine) (h0 : s.wf = true) : State.wf (State.setPeer s line
    l) = true := by
  unfold State.setPeer
  repeat' (with_reducible first | assumption | apply wf_State_prunePubs | (refine wf_back ?_) | (simp only [wf_mk]))
theorem wf_State_dropLine (s : State) (line : Nat) (dirty : BitVec 64) (h0 : s.wf = true) : State.wf (State.dropLine
    s line dirty) = true := by
  unfold State.dropLine
  repeat' (with_reducible first
    | assumption | apply wf_State_noteSnap | apply wf_State_putBytes | apply wf_State_setPsn | apply wf_State_setPeer
    | apply wf_foldL | (refine wf_back ?_) | intro _ | split | (simp only [wf_mk]))
theorem wf_State_noteFill (s : State) (k : Nat) (bytes : List Byte) (marks : Nat → Bool) (h0 : s.wf = true) :
    State.wf (State.noteFill s k bytes marks) = true := by
  unfold State.noteFill
  repeat' (with_reducible first | assumption | (refine wf_back ?_) | split | (simp only [wf_mk]))
theorem wf_State_fillLine (s : State) (line : Nat) (excl : Bool) (bytes : List Byte) (marks : Nat → Bool) (h0 : s.wf
    = true) : State.wf (State.fillLine s line excl bytes marks) = true := by
  unfold State.fillLine
  repeat' (with_reducible first
    | assumption | apply wf_State_setPsn | apply wf_State_putBytes | apply wf_State_noteFill | apply wf_State_setPeer
    | apply wf_State_setWts | apply wf_State_wakePeer | apply wf_foldL | (refine wf_back ?_) | intro _ | split
    | (simp only [wf_mk]))
theorem wf_State_fillLost (s : State) (line : Nat) (excl : Bool) (h0 : s.wf = true) : State.wf (State.fillLost s line
    excl) = true := by
  unfold State.fillLost
  repeat' (with_reducible first
    | assumption | apply wf_State_wakePeer | apply wf_State_dropLine | apply wf_State_fillLine
    | apply wf_State_setPeer | split)
theorem wf_State_modRid (s : State) (id : Nat) (f : RidOp → RidOp) (h0 : s.wf = true) : State.wf (State.modRid s id
    f) = true := by
  unfold State.modRid
  repeat' (with_reducible first | assumption | (refine wf_back ?_) | (simp only [wf_mk]))
theorem wf_State_ridReplied (s : State) (id : Nat) (i : Nat) (h0 : s.wf = true) : State.wf (State.ridReplied s id i)
    = true := by
  unfold State.ridReplied
  repeat' (with_reducible first | assumption | apply wf_State_modRid | split)
theorem wf_State_engWrite (s : State) (b : Issuer) (glob : Bool) (cells : List (Nat × Byte × Bool)) (h0 : s.wf =
    true) : State.wf (State.engWrite s b glob cells) = true := by
  unfold State.engWrite
  repeat' (with_reducible first
    | assumption | apply wf_State_overCut | apply wf_State_widen | apply wf_State_flushInvals
    | apply wf_State_publish | apply wf_State_writePoisoned | apply wf_State_writeClean | apply wf_foldL | intro _
    | split)
theorem wf_State_ridWriteLoc (s : State) (o : RidOp) (i : Nat) (l : List (Byte × Bool)) (h0 : s.wf = true) : State.wf
    (State.ridWriteLoc s o i l) = true := by
  unfold State.ridWriteLoc
  repeat' (with_reducible first | assumption | apply wf_State_engWrite)
theorem wf_State_ridFault (s : State) (o : RidOp) (i : Nat) (cause : Nat) (h0 : s.wf = true) : State.wf
    (State.ridFault s o i cause) = true := by
  unfold State.ridFault
  repeat' (with_reducible first | assumption | apply wf_State_modRid | apply wf_State_ridWriteLoc | split)
theorem wf_State_remoteLost (s : State) (op : Nat) (h0 : s.wf = true) : State.wf (State.remoteLost s op) = true := by
  unfold State.remoteLost
  repeat' (with_reducible first | assumption | (refine wf_back ?_) | (simp only [wf_mk]))
theorem wf_State_ridLeave (s : State) (o : RidOp) (h0 : s.wf = true) : State.wf (State.ridLeave s o) = true := by
  unfold State.ridLeave
  repeat' (with_reducible first | assumption | apply wf_State_opsDec | (refine wf_back ?_) | (simp only [wf_mk]))
theorem wf_State_setRun (s : State) (c : Nat) (o : EngOp) (h0 : s.wf = true) : State.wf (State.setRun s c o) = true
    := by
  unfold State.setRun
  repeat' (with_reducible first | assumption | apply wf_State_modCore)
theorem wf_State_loopStage (s : State) (c : Nat) (id : Nat) (clock : Option (Nat × Nat)) (st : Nat) (h0 : s.wf =
    true) : State.wf (State.loopStage s c id clock st) = true := by
  unfold State.loopStage
  repeat' (with_reducible first
    | assumption | apply wf_State_modCore | apply wf_State_setRun | apply wf_State_fresh | split
    | (simp only))
theorem wf_State_loopStages (s : State) (c : Nat) (o : EngOp) (clock : Option (Nat × Nat)) (h0 : s.wf = true) :
    State.wf (State.loopStages s c o clock) = true := by
  unfold State.loopStages
  repeat' (with_reducible first | assumption | apply wf_State_loopStage | apply wf_foldL | intro _ | split)
theorem wf_State_loopPoll (s : State) (launch : Nat) (p : Nat × Nat) (h0 : s.wf = true) : State.wf (State.loopPoll s
    launch p) = true := by
  unfold State.loopPoll
  repeat' (with_reducible first | assumption | apply wf_State_loopStages | apply wf_foldL | intro _ | split)
theorem wf_State_ridEnd (s : State) (o : RidOp) (h0 : s.wf = true) : State.wf (State.ridEnd s o) = true := by
  unfold State.ridEnd
  repeat' (with_reducible first | assumption | apply wf_State_ridLeave | apply wf_State_loopPoll | split)
theorem wf_State_settle (s : State) (ks : List Nat) (h0 : s.wf = true) : State.wf (State.settle s ks) = true := by
  unfold State.settle
  repeat' (with_reducible first | assumption | apply wf_State_drainHome)
theorem wf_State_homeNow (s : State) (h : HomeOp) (h0 : s.wf = true) : State.wf (State.homeNow s h) = true := by
  unfold State.homeNow
  repeat' (with_reducible first | assumption | apply wf_State_settle | (refine wf_back ?_) | (simp only [wf_mk]))
theorem wf_State_tagged (s : State) (h0 : s.wf = true) : State.wf (State.tagged s) = true := by
  unfold State.tagged
  repeat' (with_reducible first | assumption | (refine wf_back ?_) | (simp only [wf_mk]))
theorem wf_State_engBar (s : State) (b : Issuer) (op : Nat) (a : W64) (n : Nat) (arv : Bool) (code : BitVec 16) (h0 :
    s.wf = true) : State.wf (State.engBar s b op a n arv code) = true := by
  unfold State.engBar
  repeat' (with_reducible first | assumption | apply wf_State_homeNow | apply wf_State_tagged | split)
theorem wf_State_cntComplete (s : State) (ctx : Nat) (unit : Nat) (op : Nat) (a : W64) (n : W64) (status : W32) (h0 :
    s.wf = true) : State.wf (State.cntComplete s ctx unit op a n status) = true := by
  unfold State.cntComplete
  repeat' (with_reducible first
    | assumption | apply wf_State_errorRecord | apply wf_State_homeNow | apply wf_State_tagged | split)
theorem wf_State_ridReport (s : State) (o : RidOp) (x : Nat × Nat × Nat × Nat) (h0 : s.wf = true) : State.wf
    (State.ridReport s o x) = true := by
  unfold State.ridReport
  repeat' (with_reducible first
    | assumption | apply wf_State_engBar | apply wf_State_cntComplete | apply wf_State_modEver | split)
theorem wf_State_ridFinish (s : State) (o : RidOp) (h0 : s.wf = true) : State.wf (State.ridFinish s o) = true := by
  unfold State.ridFinish
  repeat' (with_reducible first
    | assumption | apply wf_State_ridEnd | apply wf_State_engWrite | apply wf_State_ridReport | apply wf_State_modRid
    | split)
theorem wf_State_mcIssuer (s : State) (op : Nat) (ok : Nat) (fail : Nat) (first : Nat) (ver : Nat) (h0 : s.wf = true)
    : State.wf (State.mcIssuer s op ok fail first ver) = true := by
  unfold State.mcIssuer
  repeat' (with_reducible first
    | assumption | apply wf_State_modRid | apply wf_State_ridFinish | split | (simp only))
theorem wf_State_mcAnswer (s : State) (m : Mcast) (h0 : s.wf = true) : State.wf (State.mcAnswer s m) = true := by
  unfold State.mcAnswer
  repeat' (with_reducible first | assumption | apply wf_State_reply | apply wf_State_mcIssuer | split)
theorem wf_State_mcCheck (s : State) (id : Nat) (h0 : s.wf = true) : State.wf (State.mcCheck s id) = true := by
  unfold State.mcCheck
  repeat' (with_reducible first
    | assumption | apply wf_State_mcAnswer | (refine wf_back ?_) | split | (simp only [wf_mk]))
theorem wf_State_modMc (s : State) (id : Nat) (f : Mcast → Mcast) (h0 : s.wf = true) : State.wf (State.modMc s id f)
    = true := by
  unfold State.modMc
  repeat' (with_reducible first | assumption | (refine wf_back ?_) | (simp only [wf_mk]))
theorem wf_State_mcLost (s : State) (id : Nat) (n : Nat) (h0 : s.wf = true) : State.wf (State.mcLost s id n) = true
    := by
  unfold State.mcLost
  repeat' (with_reducible first | assumption | apply wf_State_mcCheck | apply wf_State_modMc)
theorem wf_State_homeWrite (s : State) (cells : List (Nat × Byte × Bool)) (h0 : s.wf = true) : State.wf
    (State.homeWrite s cells) = true := by
  unfold State.homeWrite
  repeat' (with_reducible first
    | assumption | apply wf_State_widen | apply wf_State_flushInvals | apply wf_State_publish | apply wf_foldL
    | intro _)
theorem wf_State_takeBack (s : State) (line : Nat) (bytes : List (Byte × Bool)) (mask : Nat) (h0 : s.wf = true) :
    State.wf (State.takeBack s line bytes mask) = true := by
  unfold State.takeBack
  repeat' (with_reducible first
    | assumption | apply wf_State_homeWrite | apply wf_State_prunePubs | (refine wf_back ?_) | (simp only [wf_mk]))
theorem wf_State_recallDone (s : State) (line : Nat) (p : Option Packet) (h0 : s.wf = true) : State.wf
    (State.recallDone s line p) = true := by
  unfold State.recallDone
  repeat' (with_reducible first
    | assumption | apply wf_State_takeBack | apply wf_State_wakePeer | apply wf_State_requeue | split)
theorem wf_State_invalAcked (s : State) (line : Nat) (h0 : s.wf = true) : State.wf (State.invalAcked s line) = true
    := by
  unfold State.invalAcked
  repeat' (with_reducible first
    | assumption | apply wf_State_wakePeer | apply wf_State_requeue | apply wf_State_prunePubs)
theorem wf_State_wbackDone (s : State) (line : Nat) (h0 : s.wf = true) : State.wf (State.wbackDone s line) = true :=
    by
  unfold State.wbackDone
  repeat' (with_reducible first | assumption | apply wf_State_requeue | apply wf_State_dropLine | split)
theorem wf_State_replyMgmt (s : State) (q : Packet) (code : Nat) (h0 : s.wf = true) : State.wf (State.replyMgmt s q
    code) = true := by
  unfold State.replyMgmt
  repeat' (with_reducible first | assumption | apply wf_State_emit)
theorem wf_State_replyStatus (s : State) (q : Packet) (code : W32) (h0 : s.wf = true) : State.wf (State.replyStatus s
    q code) = true := by
  unfold State.replyStatus
  repeat' (with_reducible first | assumption | apply wf_State_reply)
theorem wf_State_notice (s : State) (kind : Nat) (inst : Nat) (addr : W64) (tag : W64) (count : Nat) (h0 : s.wf =
    true) : State.wf (State.notice s kind inst addr tag count) = true := by
  unfold State.notice
  repeat' (with_reducible first | assumption | apply wf_State_errorRecord)
theorem wf_State_refusePacket (s : State) (p : Packet) (kind : Nat) (h0 : s.wf = true) : State.wf (State.refusePacket
    s p kind) = true := by
  unfold State.refusePacket
  repeat' (with_reducible first
    | assumption | apply wf_State_replyMgmt | apply wf_State_replyStatus | apply wf_State_notice | split)
theorem wf_State_route (s : State) (p : Packet) (h0 : s.wf = true) : State.wf (State.route s p) = true := by
  unfold State.route
  repeat' (with_reducible first
    | assumption | apply wf_State_refusePacket | apply wf_State_linkSend | (refine wf_back ?_) | split
    | (simp only [wf_mk]))
theorem wf_State_combineIn (s : State) (p : Packet) (h0 : s.wf = true) : State.wf (State.combineIn s p) = true := by
  unfold State.combineIn
  repeat' (with_reducible first | assumption | (refine wf_back ?_) | (simp only [wf_mk]))
theorem wf_State_sendOn (s : State) (p : Packet) (h0 : s.wf = true) : State.wf (State.sendOn s p) = true := by
  unfold State.sendOn
  repeat' (with_reducible first
    | assumption | apply wf_State_reply | apply wf_State_route | apply wf_State_combineIn | (refine wf_back ?_)
    | split | (simp only [wf_mk]))
theorem wf_State_retryTx (s : State) (h0 : s.wf = true) : State.wf (State.retryTx s) = true := by
  unfold State.retryTx
  repeat' (with_reducible first
    | assumption | apply wf_State_sendOn | apply wf_foldL | (refine wf_back ?_) | split | (simp only [wf_mk]))
theorem wf_State_splitStatus (s : State) (t : W64) (code : W32) (h0 : s.wf = true) : State.wf (State.splitStatus s t
    code) = true := by
  unfold State.splitStatus
  repeat' (with_reducible first
    | assumption | apply wf_State_retryTx | apply wf_State_replyStatus | apply wf_foldL | (refine wf_back ?_)
    | intro _ | split | (simp only [wf_mk]))
theorem wf_State_reclaimAnswer (s : State) (page : W64) (old : Nat) (d : Nat) (ok : Bool) (h0 : s.wf = true) :
    State.wf (State.reclaimAnswer s page old d ok) = true := by
  unfold State.reclaimAnswer
  repeat' (with_reducible first | assumption | (refine wf_back ?_) | (simp only [wf_mk]))
theorem wf_State_loseOne (s : State) (r : Req) (kind : Nat) (h0 : s.wf = true) : State.wf (State.loseOne s r kind) =
    true := by
  unfold State.loseOne
  repeat' (with_reducible first
    | assumption | apply wf_State_endReq | apply wf_State_uncorrectable | apply wf_State_requeue
    | apply wf_State_fillLost | apply wf_State_atomReply | apply wf_State_ridReplied | apply wf_State_ridFault
    | apply wf_State_remoteLost | apply wf_State_sectionDone | apply wf_State_mcIssuer | apply wf_State_mcLost
    | apply wf_State_recallDone | apply wf_State_invalAcked | apply wf_State_wbackDone | apply wf_State_splitStatus
    | apply wf_State_reclaimAnswer | split | (simp only))
theorem wf_State_lose (s : State) (r : Req) (kind : Nat) (h0 : s.wf = true) : State.wf (State.lose s r kind) = true
    := by
  unfold State.lose
  repeat' (with_reducible first | assumption | apply wf_State_loseOne | apply wf_foldL | intro _ | split)
theorem wf_State_chase (s : State) (r : Req) (notOwner : Bool) (h0 : s.wf = true) : State.wf (State.chase s r
    notOwner) = true := by
  unfold State.chase
  repeat' (with_reducible first
    | assumption | apply wf_State_migCount | apply wf_State_lose | apply wf_State_askOwner | apply wf_State_modReq
    | split)
theorem wf_State_chosen (s : State) (l : List Group) (h0 : s.wf = true) : State.wf (State.chosen s l) = true := by
  unfold State.chosen
  repeat' (with_reducible first | assumption | apply wf_State_modGroups)
theorem wf_State_claimOpen (s : State) (x : AtomKind) (pend : Nat) (h0 : s.wf = true) : State.wf (State.claimOpen s x
    pend) = true := by
  unfold State.claimOpen
  repeat' (with_reducible first | assumption | (refine wf_back ?_) | split | (simp only [wf_mk]))
theorem wf_State_clearCore (s : State) (c : Nat) (ctx : Nat) (h0 : s.wf = true) : State.wf (State.clearCore s c ctx)
    = true := by
  unfold State.clearCore
  repeat' (with_reducible first | assumption | apply wf_State_modCore | (refine wf_keep ?_) | (simp only [wf_mk]))
theorem wf_State_clearCores (s : State) (ctx : Nat) (a__internal_hyg0 : List Nat) (h0 : s.wf = true) : State.wf
    (State.clearCores s ctx a__internal_hyg0) = true := by
  induction a__internal_hyg0 generalizing s ctx with
  | nil =>
    unfold State.clearCores
    repeat' (with_reducible first | assumption | apply wf_State_clearCore)
  | cons _ _ ih =>
    unfold State.clearCores
    repeat' (with_reducible first | apply ih | assumption | apply wf_State_clearCore | split)
theorem wf_State_cmdWaits (s : State) (h0 : s.wf = true) : State.wf (State.cmdWaits s) = true := by
  unfold State.cmdWaits
  repeat' (with_reducible first | assumption | (refine wf_back ?_) | (simp only [wf_mk]))
theorem wf_State_condInvals (s : State) (page : W64) (old : Nat) (a__internal_hyg0 : List Nat) (h0 : s.wf = true) :
    State.wf (State.condInvals s page old a__internal_hyg0) = true := by
  induction a__internal_hyg0 generalizing s page old with
  | nil =>
    unfold State.condInvals
    repeat' (with_reducible assumption)
  | cons _ _ ih =>
    unfold State.condInvals
    repeat' (with_reducible first | apply ih | assumption | apply wf_State_request)
theorem wf_State_correctable (s : State) (kind : Nat) (die : Nat) (inst : Nat) (h0 : s.wf = true) : State.wf
    (State.correctable s kind die inst) = true := by
  unfold State.correctable
  repeat' (with_reducible first
    | assumption | apply wf_State_errorRecord | (refine wf_back ?_) | split | (simp only [wf_mk]))
theorem wf_State_countDone (s : State) (ctx : Nat) (done : W64) (n : W32) (status : W32) (h0 : s.wf = true) :
    State.wf (State.countDone s ctx done n status) = true := by
  unfold State.countDone
  repeat' (with_reducible first | assumption | apply wf_State_cntComplete | split)
theorem wf_State_packetRecord (s : State) (h : Head) (code : Nat) (detail : Nat) (done : W64) (h0 : s.wf = true) :
    State.wf (State.packetRecord s h code detail done) = true := by
  unfold State.packetRecord
  repeat' (with_reducible first | assumption | apply wf_State_record)
theorem wf_State_rejectPacket (s : State) (h : Head) (code : Nat) (detail : Nat) (h0 : s.wf = true) : State.wf
    (State.rejectPacket s h code detail) = true := by
  unfold State.rejectPacket
  repeat' (with_reducible first | assumption | apply wf_State_packetRecord | apply wf_State_countDone | split)
theorem wf_State_deadListed (s : State) (c : Nat) (e : List Byte × W64) (h0 : s.wf = true) : State.wf
    (State.deadListed s c e) = true := by
  unfold State.deadListed
  repeat' (with_reducible first | assumption | apply wf_State_rejectPacket)
theorem wf_State_deadPacket (s : State) (c : Nat) (e : Nat × W64 × W64) (h0 : s.wf = true) : State.wf
    (State.deadPacket s c e) = true := by
  unfold State.deadPacket
  repeat' (with_reducible first | assumption | apply wf_State_rejectPacket | apply wf_State_setPhysWord)
theorem wf_State_evUnit (s : State) (c : Nat) (clr : BitVec 256) (set : BitVec 256) (h0 : s.wf = true) : State.wf
    (State.evUnit s c clr set) = true := by
  unfold State.evUnit
  repeat' (with_reducible first | assumption | apply wf_State_setCtx)
theorem wf_State_packetDone (s : State) (ctx : Nat) (done : W64) (n : W32) (set : BitVec 256) (h0 : s.wf = true) :
    State.wf (State.packetDone s ctx done n set) = true := by
  unfold State.packetDone
  repeat' (with_reducible first | assumption | apply wf_State_evUnit | apply wf_State_countDone)
theorem wf_State_judge (s : State) (c : Nat) (h0 : s.wf = true) : State.wf (State.judge s c) = true := by
  unfold State.judge
  repeat' (with_reducible first | assumption | (refine wf_back ?_) | (simp only [wf_mk]))
theorem wf_State_giveRight (s : State) (launch : Nat) (a__internal_hyg0 : List Nat) (h0 : s.wf = true) : State.wf
    (State.giveRight s launch a__internal_hyg0) = true := by
  induction a__internal_hyg0 generalizing s launch with
  | nil =>
    unfold State.giveRight
    repeat' (with_reducible first | assumption | apply wf_State_setArr)
  | cons _ _ ih =>
    unfold State.giveRight
    repeat' (with_reducible first | apply ih | assumption | apply wf_State_setArr | split)
theorem wf_State_placeGroups (s : State) (x : Start) (a__internal_hyg0 : List (Spot × Nat)) (h0 : s.wf = true) :
    State.wf (State.placeGroups s x a__internal_hyg0) = true := by
  induction a__internal_hyg0 generalizing s x with
  | nil =>
    unfold State.placeGroups
    repeat' (with_reducible first | assumption | (refine wf_back ?_))
  | cons _ _ ih =>
    unfold State.placeGroups
    repeat' (with_reducible first
      | apply ih | assumption | apply wf_State_fresh | (refine wf_back ?_) | (simp only [wf_mk]))
theorem wf_State_startLaunch (s : State) (h : Head) (b : List Byte) (share : Nat) (h0 : s.wf = true) : State.wf
    (State.startLaunch s h b share) = true := by
  unfold State.startLaunch
  repeat' (with_reducible first
    | assumption | apply wf_State_clearCores | apply wf_State_fresh | apply wf_State_modCore
    | apply wf_State_giveRight | apply wf_State_placeGroups | apply wf_foldL | (refine wf_back ?_) | intro _
    | (simp only [wf_mk]))
theorem wf_State_takeHead (s : State) (h : Head) (h0 : s.wf = true) : OptWf (State.takeHead s h) := by
  unfold State.takeHead
  repeat' (with_reducible first
    | assumption | apply wf_State_rejectPacket | apply wf_State_packetDone | apply wf_State_evUnit
    | apply wf_State_judge | apply wf_State_draw | apply wf_State_startLaunch | apply OptWf.some | exact OptWf.none
    | split)
theorem wf_State_skip (s : State) (j : Nat) (h : Head) (h0 : s.wf = true) : State.wf (State.skip s j h) = true := by
  unfold State.skip
  repeat' (with_reducible first | assumption | (refine wf_back ?_) | (simp only [wf_mk]))
theorem wf_State_decideOver (s : State) (passed : List (Bool × Nat)) (done : List Nat) (a__internal_hyg0 : Nat) (h0 :
    s.wf = true) : State.wf (State.decideOver s passed done a__internal_hyg0) = true := by
  induction a__internal_hyg0 generalizing s passed done with
  | zero =>
    unfold State.decideOver
    repeat' (with_reducible first | assumption | apply wf_State_getLine | apply wf_State_advance | split)
  | succ _ ih =>
    unfold State.decideOver
    repeat' (with_reducible first
      | apply ih | assumption | apply wf_State_getLine | apply wf_State_takeHead | apply wf_State_advance
      | apply wf_State_skip | split | (refine wf_opt ?_ (by assumption)))
theorem wf_State_deferLoad (s : State) (id : Nat) (d : Dest) (a : W64) (acc : Acc) (h0 : s.wf = true) : State.wf
    (State.deferLoad s id d a acc) = true := by
  unfold State.deferLoad
  repeat' (with_reducible first
    | assumption | apply wf_State_setG | apply wf_State_modCore | split | (simp only))
theorem wf_State_deliver (s : State) (d : Delivery) (h0 : s.wf = true) : State.wf (State.deliver s d) = true := by
  unfold State.deliver
  repeat' (with_reducible first
    | assumption | apply wf_State_modEver | apply wf_foldL | (refine wf_back ?_) | intro _ | split
    | (simp only [wf_mk]))
theorem wf_State_deliverOne (s : State) (h0 : s.wf = true) : State.wf (State.deliverOne s) = true := by
  unfold State.deliverOne
  repeat' (with_reducible first | assumption | apply wf_State_deliver | split)
theorem wf_State_deliverAll (s : State) (a__internal_hyg0 : Nat) (h0 : s.wf = true) : State.wf (State.deliverAll s
    a__internal_hyg0) = true := by
  induction a__internal_hyg0 generalizing s with
  | zero =>
    unfold State.deliverAll
    repeat' (with_reducible assumption)
  | succ _ ih =>
    unfold State.deliverAll
    repeat' (with_reducible first | apply ih | assumption | apply wf_State_deliverOne)
theorem wf_State_door (s : State) (h0 : s.wf = true) : State.wf (State.door s) = true := by
  unfold State.door
  repeat' (with_reducible first | assumption | (refine wf_back ?_) | split | (simp only [wf_mk]))
theorem wf_State_dropFetched (s : State) (cause : Nat) (a : W64) (h0 : s.wf = true) : State.wf (State.dropFetched s
    cause a) = true := by
  unfold State.dropFetched
  repeat' (with_reducible first | assumption | apply wf_State_dropLost | split)
theorem wf_State_dropFrame (s : State) (lo : Nat) (n : Nat) (h0 : s.wf = true) : State.wf (State.dropFrame s lo n) =
    true := by
  unfold State.dropFrame
  repeat' (with_reducible first | assumption | (refine wf_back ?_) | (simp only [wf_mk]))
theorem wf_State_dropLaunch (s : State) (id : Nat) (h0 : s.wf = true) : State.wf (State.dropLaunch s id) = true := by
  unfold State.dropLaunch
  repeat' (with_reducible first | assumption | (refine wf_back ?_) | (simp only [wf_mk]))
theorem wf_State_dropMig (s : State) (page : W64) (h0 : s.wf = true) : State.wf (State.dropMig s page) = true := by
  unfold State.dropMig
  repeat' (with_reducible first | assumption | (refine wf_back ?_) | (simp only [wf_mk]))
theorem wf_State_dropRec (s : State) (i : Nat) (h0 : s.wf = true) : State.wf (State.dropRec s i) = true := by
  unfold State.dropRec
  repeat' (with_reducible first | assumption | (refine wf_back ?_) | (simp only [wf_mk]))
theorem wf_State_dropTag (s : State) (t : W64) (h0 : s.wf = true) : State.wf (State.dropTag s t) = true := by
  unfold State.dropTag
  repeat' (with_reducible first | assumption | (refine wf_back ?_) | (simp only [wf_mk]))
theorem wf_State_queueOp (s : State) (h : HomeOp) (h0 : s.wf = true) : State.wf (State.queueOp s h) = true := by
  unfold State.queueOp
  repeat' (with_reducible first
    | assumption | apply wf_State_modCore | (refine wf_back ?_) | split | (simp only [wf_mk]))
theorem wf_State_endFence (s : State) (f : FenceRec) (h0 : s.wf = true) : State.wf (State.endFence s f) = true := by
  unfold State.endFence
  repeat' (with_reducible first | assumption | apply wf_State_queueOp | apply wf_State_setG | split)
theorem wf_State_loopLeave (s : State) (c : Nat) (id : Nat) (h0 : s.wf = true) : State.wf (State.loopLeave s c id) =
    true := by
  unfold State.loopLeave
  repeat' (with_reducible first
    | assumption | apply wf_State_opsDec | apply wf_State_modCore | split | (simp only))
theorem wf_State_engLeave (s : State) (c : Nat) (o : EngOp) (h0 : s.wf = true) : State.wf (State.engLeave s c o) =
    true := by
  unfold State.engLeave
  repeat' (with_reducible first
    | assumption | apply wf_State_modCore | apply wf_State_loopLeave | apply wf_State_opsDec | split)
theorem wf_State_engEnd (s : State) (c : Nat) (o : EngOp) (h0 : s.wf = true) : State.wf (State.engEnd s c o) = true
    := by
  unfold State.engEnd
  repeat' (with_reducible first
    | assumption | apply wf_State_modCore | apply wf_State_engLeave | apply wf_State_loopPoll | split)
theorem wf_State_engReport (s : State) (o : EngOp) (code : BitVec 16) (detail : BitVec 8) (h0 : s.wf = true) :
    State.wf (State.engReport s o code detail) = true := by
  unfold State.engReport
  repeat' (with_reducible first
    | assumption | apply wf_State_engBar | apply wf_State_cntComplete | split | (simp only))
theorem wf_State_engFinish (s : State) (c : Nat) (o : EngOp) (h0 : s.wf = true) : State.wf (State.engFinish s c o) =
    true := by
  unfold State.engFinish
  repeat' (with_reducible first
    | assumption | apply wf_State_engEnd | apply wf_State_engReport | apply wf_State_setRun | split)
theorem wf_State_writeFrame (s : State) (c : Nat) (o : EngOp) (h0 : s.wf = true) : State.wf (State.writeFrame s c o)
    = true := by
  unfold State.writeFrame
  repeat' (with_reducible first | assumption | apply wf_State_engWrite | split)
theorem wf_State_sendRemote (s : State) (o : EngOp) (i : Item) (h0 : s.wf = true) : State.wf (State.sendRemote s o i)
    = true := by
  unfold State.sendRemote
  repeat' (with_reducible first | assumption | apply wf_State_request | apply wf_State_engWrite | split)
theorem wf_State_runPlan (s : State) (b : Issuer) (p : Plan) (h0 : s.wf = true) : State.wf (State.runPlan s b p).1 =
    true := by
  unfold State.runPlan
  repeat' (with_reducible first
    | assumption | apply wf_State_widen | apply wf_State_dropLost | apply wf_State_engWrite | apply wf_foldL
    | intro _)
theorem wf_State_noteReduce (s : State) (o : EngOp) (i : Item) (h0 : s.wf = true) : State.wf (State.noteReduce s o i)
    = true := by
  unfold State.noteReduce
  repeat' (with_reducible first | assumption | apply wf_State_tagged | apply wf_State_filterOwn | split)
theorem wf_State_moveItem (s : State) (o : EngOp) (i : Item) (h0 : s.wf = true) : State.wf (State.moveItem s o i).1 =
    true := by
  unfold State.moveItem
  repeat' (with_reducible first
    | assumption | apply wf_State_widen | apply wf_State_sendRemote | apply wf_State_runPlan
    | apply wf_State_noteReduce | split)
theorem wf_State_engPiece (s : State) (o : EngOp) (h0 : s.wf = true) : State.wf (State.engPiece s o).1 = true := by
  unfold State.engPiece
  repeat' (with_reducible first
    | assumption | apply wf_State_draw | apply wf_State_engBar | split | (simp only))
theorem wf_State_engPerform (s : State) (c : Nat) (o : EngOp) (h0 : s.wf = true) : State.wf (State.engPerform s c o)
    = true := by
  unfold State.engPerform
  repeat' (with_reducible first
    | assumption | apply wf_State_setRun | apply wf_State_writeFrame | apply wf_State_getLine
    | apply wf_State_moveItem | apply wf_State_engPiece | split | (simp only))
theorem wf_State_startOp (s : State) (c : Nat) (o : EngOp) (h0 : s.wf = true) : State.wf (State.startOp s c o) = true
    := by
  unfold State.startOp
  repeat' (with_reducible first
    | assumption | apply wf_State_modCore | (refine wf_back ?_) | split | (simp only [wf_mk]))
theorem wf_State_engStart (s : State) (c : Nat) (h0 : s.wf = true) : State.wf (State.engStart s c) = true := by
  unfold State.engStart
  repeat' (with_reducible first
    | assumption | apply wf_State_modCore | apply wf_State_startOp | split | (simp only))
theorem wf_State_engStop (s : State) (o : EngOp) (h0 : s.wf = true) : State.wf (State.engStop s o) = true := by
  unfold State.engStop
  repeat' (with_reducible first | assumption | apply wf_State_engReport | apply wf_foldL | intro _ | split)
theorem wf_State_writeback (s : State) (h0 : s.wf = true) : State.wf (State.writeback s) = true := by
  unfold State.writeback
  repeat' (with_reducible first | assumption | apply wf_State_settleOwn | apply wf_State_setG)
theorem wf_State_trapSnap (s : State) (cause : Nat) (h0 : s.wf = true) : State.wf (State.trapSnap s cause) = true :=
    by
  unfold State.trapSnap
  repeat' (with_reducible first | assumption | apply wf_State_fireSnap | split)
theorem wf_State_faultRecord (s : State) (src : Nat) (t : TrapV) (h0 : s.wf = true) : State.wf (State.faultRecord s
    src t) = true := by
  unfold State.faultRecord
  repeat' (with_reducible first | assumption | apply wf_State_setG | apply wf_State_fresh | apply wf_State_record)
theorem wf_State_trap (s : State) (t : TrapV) (h0 : s.wf = true) : State.wf (State.trap s t) = true := by
  unfold State.trap
  repeat' (with_reducible first
    | assumption | apply wf_State_trapSnap | apply wf_State_setG | apply wf_State_faultRecord | split
    | (simp only))
theorem wf_State_poisonTrap (s : State) (p : Pend) (h0 : s.wf = true) : State.wf (State.poisonTrap s p) = true := by
  unfold State.poisonTrap
  repeat' (with_reducible first | assumption | apply wf_State_setG | apply wf_State_trap)
theorem wf_State_entering (s : State) (k : State → Out) (h0 : s.wf = true) (h1 : ∀ y0, y0.wf = true → OutWf (k y0)) :
    OutWf (State.entering s k) := by
  unfold State.entering
  repeat' (with_reducible first
    | assumption | apply h1 | apply wf_State_writeback | apply wf_State_blockOn | apply wf_State_poisonTrap
    | apply OutWf.next | split | (simp only))
theorem wf_State_enumBump (s : State) (h0 : s.wf = true) : State.wf (State.enumBump s) = true := by
  unfold State.enumBump
  repeat' (with_reducible first | assumption | (refine wf_back ?_) | (simp only [wf_mk]))
theorem wf_State_evict (s : State) (line : Nat) (h0 : s.wf = true) : State.wf (State.evict s line) = true := by
  unfold State.evict
  repeat' (with_reducible first
    | assumption | apply wf_State_widen | apply wf_State_request | apply wf_State_setPeer | apply wf_State_dropLine
    | split | (simp only))
theorem wf_State_fillTlb (s : State) (tlbs : List Nat) (ctx : Nat) (off : Nat) (h0 : s.wf = true) : State.wf
    (State.fillTlb s tlbs ctx off) = true := by
  unfold State.fillTlb
  repeat' (with_reducible first | assumption | apply wf_State_cacheIn | apply wf_foldL | intro _ | split)
theorem wf_State_fillTlbs (s : State) (accs : List (W64 × Acc)) (h0 : s.wf = true) : State.wf (State.fillTlbs s accs)
    = true := by
  unfold State.fillTlbs
  repeat' (with_reducible first | assumption | apply wf_State_fillTlb | apply wf_foldL | intro _ | split)
theorem wf_State_publishFence (s : State) (f : FenceRec) (h0 : s.wf = true) : State.wf (State.publishFence s f) =
    true := by
  unfold State.publishFence
  repeat' (with_reducible first | assumption | apply wf_State_setG | apply wf_State_releaseSome | split)
theorem wf_State_runFence (s : State) (f : FenceRec) (h0 : s.wf = true) : State.wf (State.runFence s f) = true := by
  unfold State.runFence
  repeat' (with_reducible first
    | assumption | apply wf_State_flushInvals | apply wf_State_publishFence | apply wf_State_releaseBank)
theorem wf_State_finishFence (s : State) (k : Nat) (h0 : s.wf = true) : State.wf (State.finishFence s k) = true := by
  unfold State.finishFence
  repeat' (with_reducible first
    | assumption | apply wf_State_settleOwn | apply wf_State_runFence | apply wf_State_endFence
    | apply wf_State_getLine | split | (simp only))
theorem wf_State_finishFences (s : State) (h0 : s.wf = true) : State.wf (State.finishFences s) = true := by
  unfold State.finishFences
  repeat' (with_reducible first | assumption | apply wf_State_finishFence | apply wf_foldL | intro _)
theorem wf_State_flitIn (s : State) (n : Nat) (data : List Byte) (seq : BitVec 16) (fidx : Nat) (last : Bool) (h0 :
    s.wf = true) : State.wf (State.flitIn s n data seq fidx last) = true := by
  unfold State.flitIn
  repeat' (with_reducible first
    | assumption | apply wf_State_setLink | apply wf_State_emit | apply wf_State_uncorrectable | split
    | (simp only))
theorem wf_State_focus (s : State) (u : UnitId) (h0 : s.wf = true) : OptWf (State.focus s u) := by
  unfold State.focus
  repeat' (with_reducible first | assumption | apply wf_State_swapTo | apply OptWf.some | exact OptWf.none | split)
theorem wf_State_forgetOwner (s : State) (page : W64) (old : Nat) (h0 : s.wf = true) : State.wf (State.forgetOwner s
    page old) = true := by
  unfold State.forgetOwner
  repeat' (with_reducible first | assumption | (refine wf_back ?_) | (simp only [wf_mk]))
theorem wf_State_forward (s : State) (h0 : s.wf = true) : State.wf (State.forward s) = true := by
  unfold State.forward
  repeat' (with_reducible first
    | assumption | apply wf_State_setG | apply wf_State_faultRecord | split | (simp only))
theorem wf_State_freeStream (s : State) (pair : Nat) (h0 : s.wf = true) : State.wf (State.freeStream s pair) = true
    := by
  unfold State.freeStream
  repeat' (with_reducible first
    | assumption | apply wf_State_boundary | apply wf_State_streamEnd | apply wf_State_convEnd | split
    | (simp only))
theorem wf_State_giveUp (s : State) (p : Packet) (h0 : s.wf = true) : State.wf (State.giveUp s p) = true := by
  unfold State.giveUp
  repeat' (with_reducible first
    | assumption | apply wf_State_reply | apply wf_State_dropLine | apply wf_State_widen | split
    | (simp only))
theorem wf_State_readHome (s : State) (ks : List Nat) (h0 : s.wf = true) : State.wf (State.readHome s ks).1 = true :=
    by
  unfold State.readHome
  repeat' (with_reducible first | assumption | apply wf_State_widen)
theorem wf_State_hostGet (s : State) (ks : List Nat) (h0 : s.wf = true) : State.wf (State.hostGet s ks).1 = true := by
  unfold State.hostGet
  repeat' (with_reducible first | assumption | apply wf_State_readHome)
theorem wf_State_hostPut (s : State) (ks : List Nat) (bytes : List Byte) (h0 : s.wf = true) : State.wf (State.hostPut
    s ks bytes) = true := by
  unfold State.hostPut
  repeat' (with_reducible first | assumption | apply wf_State_overCut | apply wf_State_homeWrite)
theorem wf_State_hcopyMove (s : State) (x : HCopy) (ks : List Nat) (h0 : s.wf = true) : State.wf (State.hcopyMove s x
    ks) = true := by
  unfold State.hcopyMove
  repeat' (with_reducible first
    | assumption | apply wf_State_hostGet | apply wf_State_hostPut | (refine wf_back ?_) | split
    | (simp only [wf_mk]))
theorem wf_State_refuse (s : State) (p : Packet) (h0 : s.wf = true) : State.wf (State.refuse s p) = true := by
  unfold State.refuse
  repeat' (with_reducible first | assumption | apply wf_State_replyStatus | (refine wf_back ?_) | (simp only [wf_mk]))
theorem wf_State_hold (s : State) (p : Packet) (h0 : s.wf = true) : State.wf (State.hold s p) = true := by
  unfold State.hold
  repeat' (with_reducible first
    | assumption | apply wf_State_refuse | (refine wf_back ?_) | split | (simp only [wf_mk]))
theorem wf_State_hostAcc (s : State) (a__internal_hyg0 : HostAcc) (h0 : s.wf = true) : State.wf (State.hostAcc s
    a__internal_hyg0).1 = true := by
  unfold State.hostAcc
  repeat' (with_reducible first
    | assumption | apply wf_State_settle | apply wf_State_getLine | apply wf_State_hostPut | apply wf_State_hostGet
    | (refine wf_back ?_) | split | (simp only [wf_mk]))
theorem wf_State_hostRun (s : State) (a__internal_hyg0 : List HostAcc) (h0 : s.wf = true) : State.wf (State.hostRun s
    a__internal_hyg0) = true := by
  induction a__internal_hyg0 generalizing s with
  | nil =>
    unfold State.hostRun
    repeat' (with_reducible first | assumption | (refine wf_back ?_) | (simp only [wf_mk]))
  | cons _ _ ih =>
    unfold State.hostRun
    repeat' (with_reducible first
      | apply ih | assumption | apply wf_State_hostAcc | (refine wf_back ?_) | split | (simp only [wf_mk]))
theorem wf_State_hostMore (s : State) (a : HostAcc) (h0 : s.wf = true) : State.wf (State.hostMore s a) = true := by
  unfold State.hostMore
  repeat' (with_reducible first | assumption | apply wf_State_hostRun)
theorem wf_State_raise (s : State) (cause : Nat) (addr : W64) (info : W64) (h0 : s.wf = true) : OutWf (State.raise s
    cause addr info) := by
  unfold State.raise
  repeat' (with_reducible first
    | assumption | apply wf_State_entering | apply wf_State_trap | apply OutWf.next | intro _)
theorem wf_State_illegal (s : State) (info : W64) (h0 : s.wf = true) : OutWf (State.illegal s info) := by
  unfold State.illegal
  repeat' (with_reducible first | assumption | apply wf_State_raise)
theorem wf_State_invalidate (s : State) (ctx : Nat) (lo : Nat) (len : Nat) (h0 : s.wf = true) : State.wf
    (State.invalidate s ctx lo len) = true := by
  unfold State.invalidate
  repeat' (with_reducible first | assumption | (refine wf_back ?_) | (simp only [wf_mk]))
theorem wf_State_invalDone (s : State) (ctx : Nat) (lo : Nat) (len : Nat) (h0 : s.wf = true) : State.wf
    (State.invalDone s ctx lo len) = true := by
  unfold State.invalDone
  repeat' (with_reducible first | assumption | apply wf_State_invalidate | apply wf_State_drainHome)
theorem wf_State_joinRetrain (s : State) (n : Nat) (h0 : s.wf = true) : State.wf (State.joinRetrain s n) = true := by
  unfold State.joinRetrain
  repeat' (with_reducible first | assumption | apply wf_State_setLink | split | (simp only))
theorem wf_State_keep (s : State) (t : State) (h0 : s.wf = true) (h1 : t.wf = true) : State.wf (State.keep s t) =
    true := by
  unfold State.keep
  repeat' (with_reducible first | assumption | (refine wf_back ?_) | (simp only [wf_mk]))
theorem wf_State_launchDead (s : State) (l : Launch) (h0 : s.wf = true) : State.wf (State.launchDead s l) = true := by
  unfold State.launchDead
  repeat' (with_reducible first | assumption | apply wf_State_countDone | apply wf_State_packetRecord)
theorem wf_State_lineLost (s : State) (l : Nat) (h0 : s.wf = true) : State.wf (State.lineLost s l) = true := by
  unfold State.lineLost
  repeat' (with_reducible first
    | assumption | apply wf_State_putBytes | apply wf_State_setPsn | apply wf_foldL | intro _)
theorem wf_State_lineReply (s : State) (p : Packet) (ks : List Nat) (odd : Bool) (h0 : s.wf = true) : State.wf
    (State.lineReply s p ks odd) = true := by
  unfold State.lineReply
  repeat' (with_reducible first | assumption | apply wf_State_reply)
theorem wf_State_linkDown (s : State) (n : Nat) (h0 : s.wf = true) : State.wf (State.linkDown s n) = true := by
  unfold State.linkDown
  repeat' (with_reducible first
    | assumption | apply wf_State_setLink | apply wf_State_refusePacket | apply wf_State_enumBump | apply wf_foldL
    | intro _)
theorem wf_State_loopRefill (s : State) (c : Nat) (o : EngOp) (h0 : s.wf = true) : State.wf (State.loopRefill s c o)
    = true := by
  unfold State.loopRefill
  repeat' (with_reducible first | assumption | apply wf_State_loopStages)
theorem wf_State_mboxDone (s : State) (status : Nat) (h0 : s.wf = true) : State.wf (State.mboxDone s status) = true
    := by
  unfold State.mboxDone
  repeat' (with_reducible first | assumption | (refine wf_back ?_) | (simp only [wf_mk]))
theorem wf_State_mcCopy (s : State) (p : Packet) (id : Nat) (n : Nat) (h0 : s.wf = true) : State.wf (State.mcCopy s p
    id n) = true := by
  unfold State.mcCopy
  repeat' (with_reducible first
    | assumption | apply wf_State_mcLost | apply wf_State_uncorrectable | apply wf_State_linkSend
    | (refine wf_back ?_) | split | (simp only [wf_mk]))
theorem wf_State_mcDeliver (s : State) (e : MGroup) (p : Packet) (h0 : s.wf = true) : State.wf (State.mcDeliver s e
    p).1 = true := by
  unfold State.mcDeliver
  repeat' (with_reducible first | assumption | apply wf_State_homeWrite | split)
theorem wf_State_mcGo (s : State) (p : Packet) (parent : Option Packet) (op : Nat) (h0 : s.wf = true) : State.wf
    (State.mcGo s p parent op) = true := by
  unfold State.mcGo
  repeat' (with_reducible first
    | assumption | apply wf_State_mcAnswer | apply wf_State_notice | apply wf_State_fresh | apply wf_State_mcDeliver
    | apply wf_State_mcCheck | apply wf_State_mcCopy | apply wf_foldL | (refine wf_back ?_) | intro _ | split
    | (simp only [wf_mk]))
theorem wf_State_ridPsn (s : State) (o : RidOp) (b : Bool) (h0 : s.wf = true) : State.wf (State.ridPsn s o b) = true
    := by
  unfold State.ridPsn
  repeat' (with_reducible first | assumption | apply wf_State_modRid | split)
theorem wf_State_mcRoot (s : State) (p : Packet) (parent : Option Packet) (op : Nat) (h0 : s.wf = true) : State.wf
    (State.mcRoot s p parent op) = true := by
  unfold State.mcRoot
  repeat' (with_reducible first | assumption | apply wf_State_mcGo)
theorem wf_State_mcIssue (s : State) (o : RidOp) (h0 : s.wf = true) : State.wf (State.mcIssue s o) = true := by
  unfold State.mcIssue
  repeat' (with_reducible first
    | assumption | apply wf_State_mcIssuer | apply wf_State_modRid | apply wf_State_ridPsn | apply wf_State_request
    | apply wf_State_getLine | apply wf_State_mcRoot | split | (simp only))
theorem wf_State_takeLines (s : State) (m : Msg) (h0 : s.wf = true) : State.wf (State.takeLines s m) = true := by
  unfold State.takeLines
  repeat' (with_reducible first | assumption | apply wf_State_homeWrite)
theorem wf_State_setLeaf (s : State) (ctx : Nat) (page : W64) (e : Nat) (a : Nat) (h0 : s.wf = true) : State.wf
    (State.setLeaf s ctx page e a) = true := by
  unfold State.setLeaf
  repeat' (with_reducible first | assumption | apply wf_State_invalidate | apply wf_State_setPhysWord)
theorem wf_State_rekey (s : State) (lo : Nat) (n : Nat) (hi : Nat) (h0 : s.wf = true) : State.wf (State.rekey s lo n
    hi) = true := by
  unfold State.rekey
  repeat' (with_reducible first
    | assumption | apply wf_State_modEver | apply wf_foldL | (refine wf_back ?_) | intro _ | (simp only [wf_mk]))
theorem wf_State_takePage (s : State) (m : Msg) (h0 : s.wf = true) : State.wf (State.takePage s m) = true := by
  unfold State.takePage
  repeat' (with_reducible first
    | assumption | apply wf_State_setLeaf | apply wf_State_dropFrame | apply wf_State_poisonWords
    | apply wf_State_homeWrite | apply wf_State_dropLine | apply wf_State_rekey | apply wf_foldL
    | (refine wf_back ?_) | intro _ | split | (simp only [wf_mk]))
theorem wf_State_setRecord (s : State) (page : W64) (d : Nat) (h0 : s.wf = true) : State.wf (State.setRecord s page
    d) = true := by
  unfold State.setRecord
  repeat' (with_reducible first | assumption | (refine wf_back ?_) | (simp only [wf_mk]))
theorem wf_State_writeRoute (s : State) (d : Nat) (e : Nat) (h0 : s.wf = true) : State.wf (State.writeRoute s d e) =
    true := by
  unfold State.writeRoute
  repeat' (with_reducible first
    | assumption | apply wf_State_linkSend | (refine wf_back ?_) | split | (simp only [wf_mk]))
theorem wf_State_writeGroup (s : State) (n : Nat) (b : List Byte) (h0 : s.wf = true) : State.wf (State.writeGroup s n
    b) = true := by
  unfold State.writeGroup
  repeat' (with_reducible first | assumption | (refine wf_back ?_) | (simp only [wf_mk]))
theorem wf_State_stokerApply (s : State) (src : Nat) (m : Msg) (h0 : s.wf = true) : State.wf (State.stokerApply s src
    m).1 = true := by
  unfold State.stokerApply
  repeat' (with_reducible first
    | assumption | apply wf_State_takeLines | apply wf_State_takePage | apply wf_State_setRecord
    | apply wf_State_writeRoute | apply wf_State_writeGroup | apply wf_State_joinRetrain | (refine wf_back ?_)
    | split | (simp only [wf_mk]))
theorem wf_State_tell (s : State) (d : Nat) (m : Msg) (h0 : s.wf = true) : State.wf (State.tell s d m).1 = true := by
  unfold State.tell
  repeat' (with_reducible first
    | assumption | apply wf_State_stokerApply | apply wf_State_emit | (refine wf_back ?_) | split
    | (simp only [wf_mk]))
theorem wf_State_onDampers (s : State) (f : Damper → Damper) (h0 : s.wf = true) : State.wf (State.onDampers s f) =
    true := by
  unfold State.onDampers
  repeat' (with_reducible first | assumption | apply wf_State_setDamper | apply wf_foldL | intro _)
theorem wf_State_modMig (s : State) (page : W64) (f : Mig → Mig) (h0 : s.wf = true) : State.wf (State.modMig s page
    f) = true := by
  unfold State.modMig
  repeat' (with_reducible first | assumption | (refine wf_back ?_) | (simp only [wf_mk]))
theorem wf_State_migBegin (s : State) (m : Mig) (h0 : s.wf = true) : State.wf (State.migBegin s m) = true := by
  unfold State.migBegin
  repeat' (with_reducible first
    | assumption | apply wf_State_drainHome | apply wf_State_setLeaf | apply wf_State_onDampers
    | apply wf_State_modMig | split)
theorem wf_State_migAsked (s : State) (page : W64) (h0 : s.wf = true) : State.wf (State.migAsked s page) = true := by
  unfold State.migAsked
  repeat' (with_reducible first
    | assumption | apply wf_State_tell | apply wf_State_dropMig | apply wf_State_mboxDone | apply wf_State_migBegin
    | split)
theorem wf_State_openLocks (s : State) (page : W64) (h0 : s.wf = true) : State.wf (State.openLocks s page).1 = true
    := by
  unfold State.openLocks
  repeat' (with_reducible first | assumption | apply wf_State_onDampers)
theorem wf_State_shipIn (s : State) (d : Nat) (r : SecReq) (h0 : s.wf = true) : State.wf (State.shipIn s d r) = true
    := by
  unfold State.shipIn
  repeat' (with_reducible first | assumption | apply wf_State_setDamper | split | (simp only))
theorem wf_State_migCancel (s : State) (m : Mig) (h0 : s.wf = true) : State.wf (State.migCancel s m) = true := by
  unfold State.migCancel
  repeat' (with_reducible first
    | assumption | apply wf_State_setLeaf | apply wf_State_tell | apply wf_State_dropMig | apply wf_State_openLocks
    | apply wf_State_requeue | apply wf_State_shipIn | apply wf_State_wakePeer | apply wf_State_notice
    | apply wf_foldL | intro _ | split)
theorem wf_State_sendShip (s : State) (r : SecReq) (here : Bool) (h0 : s.wf = true) : State.wf (State.sendShip s r
    here) = true := by
  unfold State.sendShip
  repeat' (with_reducible first | assumption | apply wf_State_shipIn | apply wf_State_request | split)
theorem wf_State_relayOn (s : State) (p : Packet) (q : Packet) (h0 : s.wf = true) : State.wf (State.relayOn s p q) =
    true := by
  unfold State.relayOn
  repeat' (with_reducible first
    | assumption | apply wf_State_refuse | (refine wf_back ?_) | split | (simp only [wf_mk]))
theorem wf_State_shipOn (s : State) (r : SecReq) (d : Nat) (h0 : s.wf = true) : State.wf (State.shipOn s r d) = true
    := by
  unfold State.shipOn
  repeat' (with_reducible first | assumption | apply wf_State_sendShip | apply wf_State_relayOn | split)
theorem wf_State_migFinish (s : State) (m : Mig) (h0 : s.wf = true) : State.wf (State.migFinish s m) = true := by
  unfold State.migFinish
  repeat' (with_reducible first
    | assumption | apply wf_State_dropMig | apply wf_State_rekey | apply wf_State_setLeaf | apply wf_State_dropFrame
    | apply wf_State_tell | apply wf_State_openLocks | apply wf_State_requeue | apply wf_State_shipOn
    | apply wf_State_wakePeer | apply wf_State_notice | apply wf_foldL | (refine wf_back ?_) | intro _ | split
    | (simp only [wf_mk]))
theorem wf_State_migRecall (s : State) (l : Leaf) (h0 : s.wf = true) : State.wf (State.migRecall s l) = true := by
  unfold State.migRecall
  repeat' (with_reducible first
    | assumption | apply wf_State_forcePublish | apply wf_State_recall | apply wf_State_flushInvals | apply wf_foldL
    | (refine wf_back ?_) | intro _ | split | (simp only [wf_mk]))
theorem wf_State_msi (s : State) (v : Nat) (h0 : s.wf = true) : State.wf (State.msi s v) = true := by
  unfold State.msi
  repeat' (with_reducible first | assumption | (refine wf_back ?_) | (simp only [wf_mk]))
theorem wf_State_neighbour (s : State) (n : Nat) (d : Nat) (port : Nat) (h0 : s.wf = true) : State.wf
    (State.neighbour s n d port) = true := by
  unfold State.neighbour
  repeat' (with_reducible first
    | assumption | apply wf_State_notice | apply wf_State_linkDown | apply wf_State_setLink | split)
theorem wf_State_noteAsker (s : State) (a : W64) (d : Nat) (h0 : s.wf = true) : State.wf (State.noteAsker s a d) =
    true := by
  unfold State.noteAsker
  repeat' (with_reducible first | assumption | (refine wf_back ?_) | split | (simp only [wf_mk]))
theorem wf_State_notePart (s : State) (ks : List Nat) (a__internal_hyg0 : List Nat) (h0 : s.wf = true) : State.wf
    (State.notePart s ks a__internal_hyg0) = true := by
  induction a__internal_hyg0 generalizing s ks with
  | nil =>
    unfold State.notePart
    repeat' (with_reducible first | assumption | split)
  | cons _ _ ih =>
    unfold State.notePart
    repeat' (with_reducible first | apply ih | assumption | (refine wf_back ?_) | split | (simp only [wf_mk]))
theorem wf_asUnit (u : UnitId) (f : State → Out) (s : State) (h1 : ∀ y0, y0.wf = true → OutWf (f y0)) (h2 : s.wf =
    true) : OutWf (asUnit u f s) := by
  unfold asUnit
  repeat' (with_reducible first
    | assumption | apply h1 | apply wf_State_swapTo | apply OutWf.next | split | (refine wf_out ?_ (by assumption)))
theorem wf_State_onUnit (s : State) (u : UnitId) (f : State → State) (h0 : s.wf = true) (h2 : ∀ y0, y0.wf = true →
    State.wf (f y0) = true) : OutWf (State.onUnit s u f) := by
  unfold State.onUnit
  repeat' (with_reducible first | assumption | apply h2 | apply wf_asUnit | apply OutWf.next | intro _)
theorem wf_State_opsInc (s : State) (n : Nat) (k : Nat) (h0 : s.wf = true) : State.wf (State.opsInc s n k) = true :=
    by
  unfold State.opsInc
  repeat' (with_reducible first | assumption | apply wf_State_modLaunch)
theorem wf_State_overtake (s : State) (line : Nat) (h0 : s.wf = true) : State.wf (State.overtake s line) = true := by
  unfold State.overtake
  repeat' (with_reducible first | assumption | (refine wf_back ?_) | (simp only [wf_mk]))
theorem wf_State_performOne (s : State) (p : HomeOp → Bool) (h0 : s.wf = true) : State.wf (State.performOne s p) =
    true := by
  unfold State.performOne
  repeat' (with_reducible first | assumption | apply wf_State_drainHome | split)
theorem wf_mapFirst (s : State) (h0 : s.wf = true) : State.wf (mapFirst s) = true := by
  unfold mapFirst
  repeat' (with_reducible first | assumption | apply wf_State_writeClean)
theorem wf_State_withFirst (s : State) (h0 : s.wf = true) : State.wf (State.withFirst s) = true := by
  unfold State.withFirst
  repeat' (with_reducible first | assumption | apply wf_mapFirst | (refine wf_back ?_) | (simp only [wf_mk]))
theorem wf_State_placeWord (s : State) (nbits : Nat) (w : Nat) (h0 : s.wf = true) : State.wf (State.placeWord s nbits
    w) = true := by
  unfold State.placeWord
  repeat' (with_reducible first
    | assumption | apply wf_State_writeClean | apply wf_State_withFirst | (refine wf_back ?_) | split
    | (simp only [wf_mk]))
theorem wf_State_poisonAt (s : State) (a__internal_hyg0 : BadWord) (h0 : s.wf = true) : State.wf (State.poisonAt s
    a__internal_hyg0) = true := by
  unfold State.poisonAt
  repeat' (with_reducible first
    | assumption | apply wf_State_setPsn | apply wf_State_modCore | apply wf_State_modEver | apply wf_State_setArr
    | (refine wf_back ?_) | split | (simp only [wf_mk]))
theorem wf_State_pollLoops (s : State) (before : Group) (h0 : s.wf = true) : State.wf (State.pollLoops s before) =
    true := by
  unfold State.pollLoops
  repeat' (with_reducible first | assumption | apply wf_State_loopPoll | split)
theorem wf_State_queueWalk (s : State) (w : Who) (off : Nat) (h0 : s.wf = true) : State.wf (State.queueWalk s w off)
    = true := by
  unfold State.queueWalk
  repeat' (with_reducible first | assumption | (refine wf_back ?_) | split | (simp only [wf_mk]))
theorem wf_State_prefetch (s : State) (llc : Bool) (a : W64) (h0 : s.wf = true) : State.wf (State.prefetch s llc a) =
    true := by
  unfold State.prefetch
  repeat' (with_reducible first
    | assumption | apply wf_State_queueWalk | apply wf_State_askLine | apply wf_State_modCore | split
    | (simp only))
theorem wf_State_prepare (s : State) (ks : List Nat) (wr : Bool) (keep : Option Nat) (h0 : s.wf = true) : ReadyWf
    (State.prepare s ks wr keep) := by
  unfold State.prepare
  repeat' (with_reducible first
    | assumption | apply wf_State_flushInvals | apply wf_State_widen | apply wf_State_settle | apply wf_State_getLine
    | apply wf_State_unshare | apply ReadyWf.wait | apply ReadyWf.go | split | (simp only)
    | (refine wf_opt ?_ (by assumption)))
theorem wf_State_quantumCheck (s : State) (before : W64) (h0 : s.wf = true) : State.wf (State.quantumCheck s before)
    = true := by
  unfold State.quantumCheck
  repeat' (with_reducible first | assumption | apply wf_State_setG | split)
theorem wf_State_quantumPublish (s : State) (g : Group) (h0 : s.wf = true) : State.wf (State.quantumPublish s g) =
    true := by
  unfold State.quantumPublish
  repeat' (with_reducible first
    | assumption | apply wf_State_widen | apply wf_State_overCut | apply wf_State_modEver | apply wf_State_publish
    | split)
theorem wf_State_raiseAt (s : State) (cause : Nat) (addr : W64) (info : W64) (thread : Nat) (fmask : W32) (h0 : s.wf
    = true) : OutWf (State.raiseAt s cause addr info thread fmask) := by
  unfold State.raiseAt
  repeat' (with_reducible first
    | assumption | apply wf_State_entering | apply wf_State_trap | apply OutWf.next | intro _)
theorem wf_State_readCount (s : State) (acc : Acc) (h0 : s.wf = true) : State.wf (State.readCount s acc).1 = true :=
    by
  unfold State.readCount
  repeat' (with_reducible first
    | assumption | apply wf_State_settle | apply wf_State_readHome | apply wf_State_setG | split
    | (simp only))
theorem wf_State_redirected (s : State) (p : Packet) (r : Req) (h0 : s.wf = true) : State.wf (State.redirected s p r)
    = true := by
  unfold State.redirected
  repeat' (with_reducible first
    | assumption | apply wf_State_learnOwner | apply wf_State_migCount | (refine wf_back ?_) | split
    | (simp only [wf_mk]))
theorem wf_State_setErrcnt (s : State) (k : Nat) (v : W32) (h0 : s.wf = true) : State.wf (State.setErrcnt s k v) =
    true := by
  unfold State.setErrcnt
  repeat' (with_reducible first | assumption | (refine wf_back ?_) | split | (simp only [wf_mk]))
theorem wf_State_setRptr (s : State) (v : W64) (h0 : s.wf = true) : State.wf (State.setRptr s v) = true := by
  unfold State.setRptr
  repeat' (with_reducible first | assumption | (refine wf_back ?_) | (simp only [wf_mk]))
theorem wf_State_snapWrite (s : State) (v : W32) (h0 : s.wf = true) : State.wf (State.snapWrite s v) = true := by
  unfold State.snapWrite
  repeat' (with_reducible first | assumption | apply wf_State_fireSnap | split)
theorem wf_State_regWrite (s : State) (off : Nat) (v : W64) (h0 : s.wf = true) : State.wf (State.regWrite s off v) =
    true := by
  unfold State.regWrite
  repeat' (with_reducible first
    | assumption | apply wf_State_setErrcnt | apply wf_State_door | apply wf_State_setRptr | apply wf_State_attStart
    | apply wf_State_snapWrite | (refine wf_back ?_) | split | (simp only [wf_mk]))
theorem wf_State_replayMap (s : State) (ctx : Nat) (c : Nat) (a__internal_hyg0 : List MapEnt) (h0 : s.wf = true) :
    State.wf (State.replayMap s ctx c a__internal_hyg0) = true := by
  induction a__internal_hyg0 generalizing s ctx c with
  | nil =>
    unfold State.replayMap
    repeat' (with_reducible assumption)
  | cons _ _ ih =>
    unfold State.replayMap
    repeat' (with_reducible first | apply ih | assumption | apply wf_State_runPlan)
theorem wf_State_reset : State.wf (State.reset) = true := by
  rfl
theorem wf_State_restoreCore (s : State) (ctx : Nat) (e : SavedCore) (d : Nat) (h0 : s.wf = true) : State.wf
    (State.restoreCore s ctx e d) = true := by
  unfold State.restoreCore
  repeat' (with_reducible first
    | assumption | apply wf_State_clearCore | apply wf_State_drainBanks | apply wf_State_putBytes
    | apply wf_State_setPsn | apply wf_State_modCore | apply wf_State_replayMap | apply wf_State_setArr
    | apply wf_foldL | intro _ | split)
theorem wf_State_result (s : State) (flag : Option Nat) (addr : W64) (writes : List (Dest × W64 × Bool)) (h0 : s.wf =
    true) : State.wf (State.result s flag addr writes) = true := by
  unfold State.result
  repeat' (with_reducible first | assumption | apply wf_State_setG | apply wf_State_fresh | split)
theorem wf_State_retire (s : State) (words : Nat) (h0 : s.wf = true) : State.wf (State.retire s words) = true := by
  unfold State.retire
  repeat' (with_reducible first | assumption | apply wf_State_setG)
theorem wf_State_retrainDone (s : State) (n : Nat) (h0 : s.wf = true) : State.wf (State.retrainDone s n) = true := by
  unfold State.retrainDone
  repeat' (with_reducible first
    | assumption | apply wf_State_mboxDone | apply wf_State_setLink | split | (simp only))
theorem wf_State_sendWrite (s : State) (o : RidOp) (i : Nat) (a : W64) (l : List (Byte × Bool)) (h0 : s.wf = true) :
    State.wf (State.sendWrite s o i a l) = true := by
  unfold State.sendWrite
  repeat' (with_reducible first | assumption | apply wf_State_request)
theorem wf_State_ridStore (s : State) (o : RidOp) (i : Nat) (a : W64) (ks : List Nat) (l : List (Byte × Bool)) (h0 :
    s.wf = true) : State.wf (State.ridStore s o i a ks l) = true := by
  unfold State.ridStore
  repeat' (with_reducible first | assumption | apply wf_State_engWrite | apply wf_State_sendWrite | split)
theorem wf_State_ridAdd (s : State) (o : RidOp) (i : Nat) (a : W64) (ks : List Nat) (l : List (Byte × Bool)) (h0 :
    s.wf = true) : State.wf (State.ridAdd s o i a ks l) = true := by
  unfold State.ridAdd
  repeat' (with_reducible first
    | assumption | apply wf_State_ridPsn | apply wf_State_ridStore | apply wf_State_request
    | apply wf_State_lostWrite | apply wf_State_widen | apply wf_State_tagged | apply wf_State_uncorrectable
    | apply wf_State_filterOwn | apply wf_State_flushInvals | apply wf_State_writeHome | split | (simp only))
theorem wf_State_ridGather (s : State) (o : RidOp) (i : Nat) (ks : List Nat) (x : Nat × Nat) (h0 : s.wf = true) :
    State.wf (State.ridGather s o i ks x) = true := by
  unfold State.ridGather
  repeat' (with_reducible first
    | assumption | apply wf_State_widen | apply wf_State_ridWriteLoc | apply wf_State_dropLost
    | apply wf_State_modRid | apply wf_State_ridPsn | apply wf_State_engWrite | split | (simp only))
theorem wf_State_ridPage (s : State) (o : RidOp) (pg : Option W64) (i : Nat) (in_ : Bool) (h0 : s.wf = true) :
    State.wf (State.ridPage s o pg i in_) = true := by
  unfold State.ridPage
  repeat' (with_reducible first | assumption | apply wf_State_modRid | split)
theorem wf_State_ridScatter (s : State) (o : RidOp) (i : Nat) (a : W64) (ks : List Nat) (x : Nat × Nat) (h0 : s.wf =
    true) : State.wf (State.ridScatter s o i a ks x) = true := by
  unfold State.ridScatter
  repeat' (with_reducible first | assumption | apply wf_State_ridPsn | apply wf_State_ridStore)
theorem wf_State_ridScatadd (s : State) (o : RidOp) (i : Nat) (a : W64) (ks : List Nat) (x : Nat × Nat) (h0 : s.wf =
    true) : State.wf (State.ridScatadd s o i a ks x) = true := by
  unfold State.ridScatadd
  repeat' (with_reducible first | assumption | apply wf_State_ridAdd)
theorem wf_State_ridStep (s : State) (id : Nat) (n : Nat) (h0 : s.wf = true) : State.wf (State.ridStep s id n) = true
    := by
  unfold State.ridStep
  repeat' (with_reducible first
    | assumption | apply wf_State_modRid | apply wf_State_ridFault | apply wf_State_ridPage | apply wf_State_getLine
    | apply wf_State_settle | apply wf_State_ridGather | apply wf_State_ridScatter | apply wf_State_ridScatadd
    | split | (simp only))
theorem wf_State_ridPerform (s : State) (o : RidOp) (h0 : s.wf = true) : State.wf (State.ridPerform s o) = true := by
  unfold State.ridPerform
  repeat' (with_reducible first | assumption | apply wf_State_ridStep | apply wf_State_modRid | split)
theorem wf_State_storePriv (s : State) (cells : List (Nat × Byte)) (psn : Bool) (h0 : s.wf = true) : State.wf
    (State.storePriv s cells psn) = true := by
  unfold State.storePriv
  repeat' (with_reducible first | assumption | apply wf_State_setG | apply wf_State_notePart)
theorem wf_State_storeRun (s : State) (acc : Acc) (l : List (Byte × Bool)) (h0 : s.wf = true) : State.wf
    (State.storeRun s acc l) = true := by
  unfold State.storeRun
  repeat' (with_reducible first
    | assumption | apply wf_State_storePriv | apply wf_State_writePoisoned | apply wf_State_writeClean | split)
theorem wf_State_saveArea (s : State) (c : Nat) (last : Bool) (h0 : s.wf = true) : State.wf (State.saveArea s c last)
    = true := by
  unfold State.saveArea
  repeat' (with_reducible first | assumption | apply wf_State_storeRun | split | (simp only))
theorem wf_State_sendAtomic (s : State) (x : AtomKind) (pend : Option Nat) (after : List Nat) (r : AtomReq) (h0 :
    s.wf = true) : State.wf (State.sendAtomic s x pend after r) = true := by
  unfold State.sendAtomic
  repeat' (with_reducible first | assumption | apply wf_State_tagged | apply wf_State_queueOp | apply wf_State_setG)
theorem wf_State_sendAtomics (s : State) (x : AtomKind) (pend : Option Nat) (after : List Nat) (a__internal_hyg0 :
    List AtomReq) (h0 : s.wf = true) : State.wf (State.sendAtomics s x pend after a__internal_hyg0) = true := by
  induction a__internal_hyg0 generalizing s x pend after with
  | nil =>
    unfold State.sendAtomics
    repeat' (with_reducible assumption)
  | cons _ _ ih =>
    unfold State.sendAtomics
    repeat' (with_reducible first | apply ih | assumption | apply wf_State_sendAtomic)
theorem wf_State_sendNeighbour (s : State) (n : Nat) (h0 : s.wf = true) : State.wf (State.sendNeighbour s n) = true
    := by
  unfold State.sendNeighbour
  repeat' (with_reducible first | assumption | apply wf_State_linkSend)
theorem wf_State_setPower (s : State) (c : Nat) (p : Power) (h0 : s.wf = true) : State.wf (State.setPower s c p) =
    true := by
  unfold State.setPower
  repeat' (with_reducible first | assumption | apply wf_State_modCore)
theorem wf_State_setSlot (s : State) (j : Nat) (x : Slot) (h0 : s.wf = true) : State.wf (State.setSlot s j x) = true
    := by
  unfold State.setSlot
  repeat' (with_reducible first | assumption | (refine wf_back ?_) | (simp only [wf_mk]))
theorem wf_State_setTq (s : State) (ks : List Nat) (off : Nat) (v : W64) (h0 : s.wf = true) : State.wf (State.setTq s
    ks off v) = true := by
  unfold State.setTq
  repeat' (with_reducible first | assumption | apply wf_State_homeWrite)
theorem wf_State_settled (s : State) (ks : List Nat) (h0 : s.wf = true) : State.wf (State.settled s ks) = true := by
  unfold State.settled
  repeat' (with_reducible first | assumption | apply wf_State_drainBefore | apply wf_State_settle)
theorem wf_State_shipAgain (s : State) (r : Req) (h0 : s.wf = true) : State.wf (State.shipAgain s r) = true := by
  unfold State.shipAgain
  repeat' (with_reducible first
    | assumption | apply wf_State_reissue | apply wf_State_emit | apply wf_State_modReq | split
    | (simp only))
theorem wf_State_splitReply (s : State) (t : W64) (p : Packet) (h0 : s.wf = true) : State.wf (State.splitReply s t p)
    = true := by
  unfold State.splitReply
  repeat' (with_reducible first
    | assumption | apply wf_State_retryTx | apply wf_State_reply | apply wf_foldL | (refine wf_back ?_) | intro _
    | split | (simp only [wf_mk]))
theorem wf_State_startTask (s : State) (slot : W64) (r : List Byte) (psn : Bool) (h0 : s.wf = true) : State.wf
    (State.startTask s slot r psn) = true := by
  unfold State.startTask
  repeat' (with_reducible first | assumption | apply wf_State_setG | apply wf_State_trap | split)
theorem wf_State_stokerAnswer (s : State) (p : Packet) (r : Req) (h0 : s.wf = true) : State.wf (State.stokerAnswer s
    p r) = true := by
  unfold State.stokerAnswer
  repeat' (with_reducible first
    | assumption | apply wf_State_emit | apply wf_State_endReq | apply wf_State_migAsked | apply wf_State_modMig
    | split | (simp only))
theorem wf_State_unbind (s : State) (j : Nat) (h0 : s.wf = true) : State.wf (State.unbind s j) = true := by
  unfold State.unbind
  repeat' (with_reducible first
    | assumption | apply wf_State_setSlot | (refine wf_back ?_) | split | (simp only [wf_mk]))
theorem wf_State_stopSections (s : State) (c : Nat) (h0 : s.wf = true) : State.wf (State.stopSections s c) = true :=
    by
  unfold State.stopSections
  repeat' (with_reducible first
    | assumption | apply wf_State_abortSections | apply wf_State_modGroups | apply wf_State_onDampers
    | apply wf_State_sectionResult | apply wf_foldL | intro _)
theorem wf_State_stopRiddle (s : State) (c : Nat) (h0 : s.wf = true) : State.wf (State.stopRiddle s c) = true := by
  unfold State.stopRiddle
  repeat' (with_reducible first
    | assumption | apply wf_State_ridReport | apply wf_foldL | (refine wf_back ?_) | intro _ | split
    | (simp only [wf_mk]))
theorem wf_State_stopEngines (s : State) (c : Nat) (h0 : s.wf = true) : State.wf (State.stopEngines s c) = true := by
  unfold State.stopEngines
  repeat' (with_reducible first
    | assumption | apply wf_State_modCore | apply wf_State_engStop | apply wf_foldL | intro _)
theorem wf_State_stopContext (s : State) (c : Nat) (h0 : s.wf = true) : State.wf (State.stopContext s c) = true := by
  unfold State.stopContext
  repeat' (with_reducible first
    | assumption | apply wf_State_setCtx | apply wf_State_unbind | apply wf_State_stopSections
    | apply wf_State_stopRiddle | apply wf_State_stopEngines | apply wf_State_engStop | apply wf_State_freeGroup
    | apply wf_State_drainHome | apply wf_foldL | (refine wf_back ?_) | intro _ | split | (simp only [wf_mk]))
theorem wf_State_storeBank (s : State) (ks : List Nat) (data : W64) (h0 : s.wf = true) : State.wf (State.storeBank s
    ks data) = true := by
  unfold State.storeBank
  repeat' (with_reducible first | assumption | apply wf_State_modCore | apply wf_State_homeNow | split)
theorem wf_State_store (s : State) (a : Acc) (data : W64) (h0 : s.wf = true) : State.wf (State.store s a data) = true
    := by
  unfold State.store
  repeat' (with_reducible first | assumption | apply wf_State_storePriv | apply wf_State_storeBank | split)
theorem wf_State_storeOr (s : State) (a : W64) (acc : Acc) (data : W64) (h0 : s.wf = true) : State.wf (State.storeOr
    s a acc data) = true := by
  unfold State.storeOr
  repeat' (with_reducible first | assumption | apply wf_State_lostWrite | apply wf_State_store | split)
theorem wf_State_streamOn (s : State) (pair : Nat) (h0 : s.wf = true) : State.wf (State.streamOn s pair) = true := by
  unfold State.streamOn
  repeat' (with_reducible first
    | assumption | apply wf_State_streamTo | apply wf_State_draw | apply wf_State_setArr | split
    | (simp only))
theorem wf_State_take (s : State) (p : Packet) (h0 : s.wf = true) : State.wf (State.take s p) = true := by
  unfold State.take
  repeat' (with_reducible first | assumption | (refine wf_back ?_) | (simp only [wf_mk]))
theorem wf_State_takeIn (s : State) (p : Packet) (h0 : s.wf = true) : State.wf (State.takeIn s p) = true := by
  unfold State.takeIn
  repeat' (with_reducible first | assumption | (refine wf_back ?_) | split | (simp only [wf_mk]))
theorem wf_State_tearDown (s : State) (c : Nat) (h0 : s.wf = true) : State.wf (State.tearDown s c) = true := by
  unfold State.tearDown
  repeat' (with_reducible first
    | assumption | apply wf_State_stopContext | apply wf_State_mboxDone | split | (simp only))
theorem wf_State_tellFor (s : State) (page : W64) (a__internal_hyg0 : List (Nat × Msg)) (h0 : s.wf = true) : State.wf
    (State.tellFor s page a__internal_hyg0) = true := by
  induction a__internal_hyg0 generalizing s page with
  | nil =>
    unfold State.tellFor
    repeat' (with_reducible first | assumption | apply wf_State_modMig)
  | cons _ _ ih =>
    unfold State.tellFor
    repeat' (with_reducible first | apply ih | assumption | apply wf_State_tell | apply wf_State_modMig | split)
theorem wf_State_thawAtTret (s : State) (h0 : s.wf = true) : State.wf (State.thawAtTret s) = true := by
  unfold State.thawAtTret
  repeat' (with_reducible first | assumption | apply wf_State_setArr | split | (simp only))
theorem wf_State_tick (s : State) (h0 : s.wf = true) : State.wf (State.tick s) = true := by
  unfold State.tick
  repeat' (with_reducible first | assumption | (refine wf_back ?_) | (simp only [wf_mk]))
theorem wf_State_tqPut (s : State) (launch : Nat) (ks : List Nat) (slots : List (List Nat)) (recs : List (List (Byte
    × Bool))) (h0 : s.wf = true) : State.wf (State.tqPut s launch ks slots recs) = true := by
  unfold State.tqPut
  repeat' (with_reducible first
    | assumption | apply wf_State_setTq | apply wf_State_homeWrite | apply wf_State_modLaunch | apply wf_foldL
    | intro _)
theorem wf_State_tqRefuse (s : State) (ks : List Nat) (h0 : s.wf = true) : State.wf (State.tqRefuse s ks) = true := by
  unfold State.tqRefuse
  repeat' (with_reducible first | assumption | apply wf_State_setTq)
theorem wf_State_withFetchWord (s : State) (nbits : Nat) (w : Nat) (h0 : s.wf = true) : State.wf (State.withFetchWord
    s nbits w) = true := by
  unfold State.withFetchWord
  repeat' (with_reducible first | assumption | apply wf_State_placeWord)
theorem wf_State_writeCells (s : State) (psn : Bool) (cells : List (Nat × Byte)) (h0 : s.wf = true) : State.wf
    (State.writeCells s psn cells) = true := by
  unfold State.writeCells
  repeat' (with_reducible first | assumption | apply wf_State_writePoisoned | apply wf_State_writeClean | split)
theorem wf_accWait (s : State) (ks : List Nat) (k : State → Out) (h0 : s.wf = true) (h2 : ∀ y0, y0.wf = true → OutWf
    (k y0)) : OutWf (accWait s ks k) := by
  unfold accWait
  repeat' (with_reducible first
    | assumption | apply h2 | apply wf_State_settle | apply wf_State_blockOn | apply wf_State_getLine | split
    | (simp only))
theorem wf_acquiring (s : State) (k : State → Out) (h0 : s.wf = true) (h1 : ∀ y0, y0.wf = true → OutWf (k y0)) :
    OutWf (acquiring s k) := by
  unfold acquiring
  repeat' (with_reducible first
    | assumption | apply h1 | apply wf_State_settleOwn | apply wf_State_blockOn | apply wf_State_acquire | split
    | (simp only))
theorem wf_checked (s : State) (vs : List VReg) (priv : Option W64) (sec : Option Nat) (k : Out) (h0 : s.wf = true)
    (h4 : OutWf (k)) : OutWf (checked s vs priv sec k) := by
  unfold checked
  repeat' (with_reducible first | assumption | apply wf_State_illegal | apply wf_State_raise | split)
theorem wf_saveGroup (s : State) (h0 : s.wf = true) : OutWf (saveGroup s) := by
  unfold saveGroup
  repeat' (with_reducible first
    | assumption | apply wf_State_writeback | apply wf_State_finishFences | apply wf_State_blockOn
    | apply wf_State_drainBanks | apply wf_State_settleGroup | apply wf_State_flushInvals
    | apply wf_State_forcePublish | apply wf_State_runArray | apply wf_State_freezeArray | apply wf_State_saveArea
    | apply wf_State_setCtx | apply wf_State_saveLast | apply wf_State_setG | apply OutWf.next | split
    | (simp only))
theorem wf_enterAt (s : State) (k : State → Out) (h0 : s.wf = true) (h1 : ∀ y0, y0.wf = true → OutWf (k y0)) : OutWf
    (enterAt s k) := by
  unfold enterAt
  repeat' (with_reducible first
    | assumption | apply h1 | apply wf_State_raise | apply wf_State_blockOn | apply wf_State_getLine
    | apply wf_State_dropFetched | apply wf_State_setG | split | (simp only))
theorem wf_stalled (s : State) (uses : List Nat) (k : State → Out) (h0 : s.wf = true) (h2 : ∀ y0, y0.wf = true →
    OutWf (k y0)) : OutWf (stalled s uses k) := by
  unfold stalled
  repeat' (with_reducible first
    | assumption | apply h2 | apply wf_State_writeback | apply wf_State_entering | apply wf_State_poisonTrap
    | apply wf_State_blockOn | apply OutWf.next | intro _ | split | (simp only))
theorem wf_uniform (s : State) (priv : Option W64) (sec : Option Nat) (uses : List Nat) (k : State → Out) (h0 : s.wf
    = true) (h4 : ∀ y0, y0.wf = true → OutWf (k y0)) : OutWf (uniform s priv sec uses k) := by
  unfold uniform
  repeat' (with_reducible first | assumption | apply wf_checked | apply wf_stalled)
theorem wf_inTurn (s : State) (k : State → Out) (h0 : s.wf = true) (h1 : ∀ y0, y0.wf = true → OutWf (k y0)) : OutWf
    (inTurn s k) := by
  unfold inTurn
  repeat' (with_reducible first
    | assumption | apply h1 | apply wf_State_modGid | apply wf_State_blockOn | apply OutWf.next | split
    | (refine wf_out ?_ (by assumption)))
theorem wf_withAcc (s : State) (r : Except Fail Acc) (k : Acc → Out) (h0 : s.wf = true) (h2 : ∀ y0, OutWf (k y0)) :
    OutWf (withAcc s r k) := by
  unfold withAcc
  repeat' (with_reducible first | assumption | apply h2 | apply wf_State_raise | split)
theorem wf_releasing (s : State) (sc : Scope) (k : State → Out) (h0 : s.wf = true) (h2 : ∀ y0, y0.wf = true → OutWf
    (k y0)) : OutWf (releasing s sc k) := by
  unfold releasing
  have h := wf_State_releaseStep s sc h0
  split
  · rename_i t b e
    rw [e] at h
    exact wf_State_blockOn _ _ h
  · rename_i t e
    rw [e] at h
    exact h2 _ h
theorem wf_atObject (s : State) (ks : List Nat) (k : State → Out) (h0 : s.wf = true) (h2 : ∀ y0, y0.wf = true → OutWf
    (k y0)) : OutWf (atObject s ks k) := by
  unfold atObject
  repeat' (with_reducible first
    | assumption | apply h2 | apply wf_State_settled | apply wf_State_blockOn | split | (simp only))
theorem wf_arriveOp (k : ArrKind) (sc : Scope) (a : SReg) (b : SReg) (f : DForm) (s : State) (h5 : s.wf = true) :
    OutWf (arriveOp k sc a b f s) := by
  unfold arriveOp
  repeat' (with_reducible first
    | assumption | apply wf_uniform | apply wf_inTurn | apply wf_withAcc | apply wf_releasing | apply wf_atObject
    | apply wf_State_raise | apply wf_State_blockOn | apply wf_State_tagged | apply wf_State_filterOwn
    | apply wf_State_setBar
    | apply wf_State_retire | apply wf_State_setG | apply OutWf.next | intro _ | split)
theorem wf_atOwner (p : Packet) (f : Bool → State → Leaf → Ready) (s : State) (h1 : ∀ y0 y1 y2, y1.wf = true →
    ReadyWf (f y0 y1 y2)) (h2 : s.wf = true) : OutWf (atOwner p f s) := by
  unfold atOwner
  repeat' (with_reducible first
    | assumption | apply h1 | apply wf_State_take | apply wf_State_refuse | apply wf_State_takeIn
    | apply wf_State_hold | apply wf_State_noteAsker | apply wf_State_relayOn | apply wf_State_replyStatus
    | apply wf_State_uncorrectable | apply OutWf.next | split | (simp only)
    | (refine wf_readyW ?_ (by assumption)) | (refine wf_readyG ?_ (by assumption)))
theorem wf_atRest (s : State) (k : State → Out) (h0 : s.wf = true) (h1 : ∀ y0, y0.wf = true → OutWf (k y0)) : OutWf
    (atRest s k) := by
  unfold atRest
  repeat' (with_reducible first | assumption | apply h1 | apply wf_State_runArray)
theorem wf_finishAtomic (s : State) (x : AtomKind) (p : Pend) (h0 : s.wf = true) : OutWf (finishAtomic s x p) := by
  unfold finishAtomic
  repeat' (with_reducible first
    | assumption | apply wf_State_retire | apply wf_State_setG | apply wf_State_entering | apply wf_State_raiseAt
    | apply wf_State_settleOwn | apply wf_State_blockOn | apply wf_acquiring | apply OutWf.next | intro _ | split
    | (simp only))
theorem wf_checkThreads (s : State) (uni : Bool) (ts : List Nat) (chk : Nat → Option Fail) (k : Out) (h0 : s.wf =
    true) (h4 : OutWf (k)) : OutWf (checkThreads s uni ts chk k) := by
  unfold checkThreads
  repeat' (with_reducible first
    | assumption | apply wf_State_raise | apply wf_State_raiseAt | split | (simp only))
theorem wf_withFlag (s : State) (f : Bool) (k : State → Option Nat → Out) (h0 : s.wf = true) (h2 : ∀ y0 y1, y0.wf =
    true → OutWf (k y0 y1)) : OutWf (withFlag s f k) := by
  unfold withFlag
  repeat' (with_reducible first
    | assumption | apply h2 | apply wf_State_writeback | apply wf_State_blockOn | split | (simp only))
theorem wf_issueAtomic (s : State) (x : AtomKind) (flag : Option Nat) (l : List AtomReq) (h0 : s.wf = true) : OutWf
    (issueAtomic s x flag l) := by
  unfold issueAtomic
  repeat' (with_reducible first
    | assumption | apply wf_State_fillTlbs | apply wf_State_drainBefore | apply wf_State_settle
    | apply wf_State_widen | apply wf_State_raiseAt | apply wf_State_await | apply wf_State_setG
    | apply wf_State_sendAtomics | apply wf_State_claimOpen | apply wf_finishAtomic | apply wf_State_retire
    | apply wf_releasing | apply OutWf.next | intro _ | split | (simp only))
theorem wf_runAtomic (s : State) (x : AtomKind) (f : Bool) (accs : State → List AtomReq) (h0 : s.wf = true) : OutWf
    (runAtomic s x f accs) := by
  unfold runAtomic
  repeat' (with_reducible first | assumption | apply wf_withFlag | apply wf_issueAtomic | intro _ | split)
theorem wf_vector (s : State) (vs : List VReg) (sec : Option Nat) (uses : List Nat) (m : MReg) (words : Nat) (k :
    State → List Nat → Out) (h0 : s.wf = true) (h6 : ∀ y0 y1, y0.wf = true → OutWf (k y0 y1)) : OutWf (vector s vs
    sec uses m words k) := by
  unfold vector
  repeat' (with_reducible first
    | assumption | apply h6 | apply wf_checked | apply wf_State_retire | apply wf_stalled | apply OutWf.next
    | intro _ | split)
theorem wf_atomOp (x : AtomIns) (f : Bool) (s : State) (h2 : s.wf = true) : OutWf (atomOp x f s) := by
  unfold atomOp
  repeat' (with_reducible first
    | assumption | apply wf_inTurn | apply wf_finishAtomic | apply wf_checkThreads | apply wf_runAtomic
    | apply wf_uniform | apply wf_vector | intro _ | split)
theorem wf_claimOp (clu : Bool) (f : Bool) (a : SReg) (b : SReg) (d : DForm) (s : State) (h5 : s.wf = true) : OutWf
    (claimOp clu f a b d s) := by
  unfold claimOp
  repeat' (with_reducible first
    | assumption | apply wf_uniform | apply wf_inTurn | apply wf_finishAtomic | apply wf_State_raise
    | apply wf_State_deliverAll | apply wf_State_blockOn | apply wf_runAtomic | intro _ | split
    | (simp only))
theorem wf_countOp (a : SReg) (b : SReg) (c : SReg) (f : DForm) (s : State) (k : State → Acc → W64 → Out) (h4 : s.wf
    = true) (h5 : ∀ y0 y1 y2, y0.wf = true → OutWf (k y0 y1 y2)) : OutWf (countOp a b c f s k) := by
  unfold countOp
  repeat' (with_reducible first
    | assumption | apply h5 | apply wf_uniform | apply wf_inTurn | apply wf_withAcc | apply wf_State_readCount
    | apply wf_State_fillTlbs | apply wf_State_raise | apply wf_accWait | apply wf_atObject | intro _ | split
    | (simp only))
theorem wf_finishLoad (s : State) (words : Nat) (id : Nat) (h0 : s.wf = true) : OutWf (finishLoad s words id) := by
  unfold finishLoad
  repeat' (with_reducible first
    | assumption | apply wf_State_settleOwn | apply wf_State_retire | apply wf_State_blockOn
    | apply wf_State_entering | apply wf_State_raiseAt | apply wf_State_setG | apply OutWf.next | intro _ | split
    | (simp only))
theorem wf_deferLoads (s : State) (flag : Option Nat) (words : Nat) (l : List (Dest × W64 × Acc)) (h0 : s.wf = true)
    : OutWf (deferLoads s flag words l) := by
  unfold deferLoads
  repeat' (with_reducible first
    | assumption | apply wf_State_await | apply wf_State_setG | apply wf_State_settleOwn | apply wf_State_deferLoad
    | apply wf_State_retire | apply wf_finishLoad | apply OutWf.next | apply wf_foldL | intro _ | split)
theorem wf_ownBanks (s : State) (k : State → Out) (h0 : s.wf = true) (h1 : ∀ y0, y0.wf = true → OutWf (k y0)) : OutWf
    (ownBanks s k) := by
  unfold ownBanks
  repeat' (with_reducible first
    | assumption | apply h1 | apply wf_State_drainOwn | apply wf_State_settleOwn | apply wf_State_blockOn | split
    | (simp only))
theorem wf_framed (s : State) (ts : List Nat) (off : W64) (same : List W32 → Except Fail Unit) (scales : Bool) (at_ :
    Nat → Nat × List Nat) (k : State → Nat → List W32 → Out) (h0 : s.wf = true) (h6 : ∀ y0 y1 y2, y0.wf = true →
    OutWf (k y0 y1 y2)) : OutWf (framed s ts off same scales at_ k) := by
  unfold framed
  repeat' (with_reducible first
    | assumption | apply h6 | apply wf_ownBanks | apply wf_State_raiseAt | apply wf_checkThreads | intro _ | split
    | (simp only))
theorem wf_descOp (s : State) (t : FType) (f : VForm) (a : VReg) (b : VReg) (c : SReg) (scales : Bool) (val : State →
    Nat → List W32 → Nat → Nat → Nat) (h0 : s.wf = true) : OutWf (descOp s t f a b c scales val) := by
  unfold descOp
  repeat' (with_reducible first
    | assumption | apply wf_vector | apply wf_framed | apply wf_State_setG | apply OutWf.next | intro _)
theorem wf_transfer (s : State) (t : W64) (k : Group → Group) (h0 : s.wf = true) : OutWf (transfer s t k) := by
  unfold transfer
  repeat' (with_reducible first
    | assumption | apply wf_State_raise | apply wf_State_blockOn | apply wf_State_getLine
    | apply wf_State_dropFetched | apply wf_State_setG | apply OutWf.next | split)
theorem wf_settledOwn (s : State) (k : State → Out) (h0 : s.wf = true) (h1 : ∀ y0, y0.wf = true → OutWf (k y0)) :
    OutWf (settledOwn s k) := by
  unfold settledOwn
  repeat' (with_reducible first
    | assumption | apply h1 | apply wf_State_writeback | apply wf_State_entering | apply wf_State_poisonTrap
    | apply wf_State_blockOn | apply OutWf.next | intro _ | split | (simp only))
theorem wf_withOwn (s : State) (ctx : Nat) (k : Kind) (a : W64) (n : Nat) (f : List Nat → Out) (h0 : s.wf = true) (h5
    : ∀ y0, OutWf (f y0)) : OutWf (withOwn s ctx k a n f) := by
  unfold withOwn
  repeat' (with_reducible first
    | assumption | apply h5 | apply wf_State_raise | apply wf_State_blockOn | apply wf_State_getLine | split)
theorem wf_spawn (s : State) (ctx : Nat) (launch : Nat) (tq : W64) (recs : List (List (Byte × Bool))) (k : State →
    Option W64 → Out) (h0 : s.wf = true) (h5 : ∀ y0 y1, y0.wf = true → OutWf (k y0 y1)) : OutWf (spawn s ctx launch
    tq recs k) := by
  unfold spawn
  repeat' (with_reducible first
    | assumption | apply h5 | apply wf_withOwn | apply wf_State_tqRefuse | apply wf_State_raise
    | apply wf_State_blockOn | apply wf_State_getLine | apply wf_State_tqPut | intro _ | split | (simp only))
theorem wf_tdoneSucc (s : State) (l : Launch) (succ : W64) (next : W64) (nextn : W64) (k : State → Out) (h0 : s.wf =
    true) (h5 : ∀ y0, y0.wf = true → OutWf (k y0)) : OutWf (tdoneSucc s l succ next nextn k) := by
  unfold tdoneSucc
  repeat' (with_reducible first
    | assumption | apply h5 | apply wf_State_errorRecord | apply wf_State_blockOn | apply wf_State_getLine
    | apply wf_State_settle | apply wf_State_cntAddAt | apply wf_State_raise | apply wf_spawn | apply wf_accWait
    | apply wf_atObject | intro _ | split | (simp only))
theorem wf_tdoneOp (s : State) (l : Launch) (h0 : s.wf = true) : OutWf (tdoneOp s l) := by
  unfold tdoneOp
  repeat' (with_reducible first
    | assumption | apply wf_settledOwn | apply wf_State_finishFences | apply wf_State_blockOn | apply wf_releasing
    | apply wf_State_setG | apply wf_tdoneSucc | apply wf_State_acquire | apply OutWf.next | intro _ | split)
theorem wf_exitOp (s : State) (h0 : s.wf = true) : OutWf (exitOp s) := by
  unfold exitOp
  repeat' (with_reducible first
    | assumption | apply wf_settledOwn | apply wf_State_setG | apply wf_releasing | apply wf_State_freeGroup
    | apply OutWf.next | intro _ | split)
theorem wf_nextTrap (s : State) (cause : Nat) (info : W64) (h0 : s.wf = true) : OutWf (nextTrap s cause info) := by
  unfold nextTrap
  repeat' (with_reducible first
    | assumption | apply wf_State_entering | apply wf_State_retire | apply wf_State_trap | apply OutWf.next
    | intro _)
theorem wf_uop (s : State) (u : Bool) (a : SReg) (b : SReg) (c : UC) (f : W64 → W64 → W64) (h0 : s.wf = true) : OutWf
    (uop s u a b c f) := by
  unfold uop
  repeat' (with_reducible first | assumption | apply wf_stalled | apply wf_State_setG | apply OutWf.next | intro _)
theorem wf_uop1 (s : State) (words : Nat) (a : SReg) (b : SReg) (f : W64 → W64) (h0 : s.wf = true) : OutWf (uop1 s
    words a b f) := by
  unfold uop1
  repeat' (with_reducible first | assumption | apply wf_stalled | apply wf_State_setG | apply OutWf.next | intro _)
theorem wf_uconst (s : State) (words : Nat) (a : SReg) (v : W64) (h0 : s.wf = true) : OutWf (uconst s words a v) := by
  unfold uconst
  repeat' (with_reducible first | assumption | apply wf_stalled | apply wf_State_setG | apply OutWf.next | intro _)
theorem wf_maskOp (s : State) (a : MReg) (v : W32) (h0 : s.wf = true) : OutWf (maskOp s a v) := by
  unfold maskOp
  repeat' (with_reducible first | assumption | apply wf_State_setG | apply OutWf.next)
theorem wf_vwrite (s : State) (vs : List VReg) (sec : Option Nat) (uses : List Nat) (f : VForm) (a : VReg) (val :
    State → Nat → W64) (h0 : s.wf = true) : OutWf (vwrite s vs sec uses f a val) := by
  unfold vwrite
  repeat' (with_reducible first | assumption | apply wf_vector | apply wf_State_setG | apply OutWf.next | intro _)
theorem wf_vint2 (s : State) (z : Size) (f : VForm) (a : VReg) (b : VReg) (c : VC) (op : Nat → Nat → Nat → Nat) (h0 :
    s.wf = true) : OutWf (vint2 s z f a b c op) := by
  unfold vint2
  repeat' (with_reducible first | assumption | apply wf_vwrite)
theorem wf_vint1 (s : State) (z : Size) (f : VForm) (a : VReg) (b : VReg) (op : Nat → Nat → Nat) (h0 : s.wf = true) :
    OutWf (vint1 s z f a b op) := by
  unfold vint1
  repeat' (with_reducible first | assumption | apply wf_vwrite)
theorem wf_vmask (s : State) (vs : List VReg) (f : VForm) (a : MReg) (test : State → Nat → Bool) (h0 : s.wf = true) :
    OutWf (vmask s vs f a test) := by
  unfold vmask
  repeat' (with_reducible first | assumption | apply wf_vector | apply wf_State_setG | apply OutWf.next | intro _)
theorem wf_vconst (s : State) (words : Nat) (a : VReg) (v : W64) (h0 : s.wf = true) : OutWf (vconst s words a v) := by
  unfold vconst
  repeat' (with_reducible first | assumption | apply wf_vector | apply wf_State_setG | apply OutWf.next | intro _)
theorem wf_vfl2 (s : State) (t : FType) (f : VForm) (a : VReg) (b : VReg) (c : VC) (op : Fmt → Fp → Fp → Nat) (h0 :
    s.wf = true) : OutWf (vfl2 s t f a b c op) := by
  unfold vfl2
  repeat' (with_reducible first | assumption | apply wf_vwrite)
theorem wf_vfl1 (s : State) (t : FType) (f : VForm) (a : VReg) (b : VReg) (op : Nat → Nat) (h0 : s.wf = true) : OutWf
    (vfl1 s t f a b op) := by
  unfold vfl1
  repeat' (with_reducible first | assumption | apply wf_vwrite)
theorem wf_qconv (s : State) (t : FType) (f : VForm) (a : VReg) (b : VReg) (c : VC) (op : Nat → Nat → Nat) (h0 : s.wf
    = true) : OutWf (qconv s t f a b c op) := by
  unfold qconv
  repeat' (with_reducible first
    | assumption | apply wf_vector | apply wf_checkThreads | apply wf_State_setG | apply OutWf.next | intro _)
theorem wf_moveElems (s : State) (vs : List VReg) (uses : List Nat) (z : Size) (f : VForm) (a : VReg) (b : VReg) (idx
    : Group → Nat → Option Nat) (h0 : s.wf = true) : OutWf (moveElems s vs uses z f a b idx) := by
  unfold moveElems
  repeat' (with_reducible first
    | assumption | apply wf_vector | apply wf_State_raise | apply wf_State_setG | apply OutWf.next | intro _ | split
    | (simp only))
theorem wf_memInstr (s : State) (o : MOpnd) (m : MReg) (words : Nat) (sec : Option Nat) (k : State → List Nat → Out)
    (h0 : s.wf = true) (h5 : ∀ y0 y1, y0.wf = true → OutWf (k y0 y1)) : OutWf (memInstr s o m words sec k) := by
  unfold memInstr
  repeat' (with_reducible first | assumption | apply h5 | apply wf_uniform | apply wf_vector | intro _ | split)
theorem wf_loadThreads (s : State) (a__internal_hyg0 : List (Nat × W64 × Acc)) (h0 : s.wf = true) : State.wf
    (loadThreads s a__internal_hyg0).1 = true := by
  induction a__internal_hyg0 generalizing s with
  | nil =>
    unfold loadThreads
    repeat' (with_reducible assumption)
  | cons _ _ ih =>
    unfold loadThreads
    repeat' (with_reducible first | apply ih | assumption | apply wf_State_load)
theorem wf_loadOp (z : Size) (o : MOpnd) (d : Sys2Proof.Disp) (f : Bool) (sec : Option Nat) (acc : AccFn) (s : State)
    (h6 : s.wf = true) : OutWf (loadOp z o d f sec acc s) := by
  unfold loadOp
  repeat' (with_reducible first
    | assumption | apply wf_memInstr | apply wf_finishLoad | apply wf_checkThreads | apply wf_withFlag
    | apply wf_State_drainBefore | apply wf_State_fillTlbs | apply wf_State_settle | apply wf_deferLoads
    | apply wf_loadThreads | apply wf_State_raise | apply wf_State_raiseAt | apply wf_State_result
    | apply wf_State_retire | apply OutWf.next | intro _ | split | (simp only))
theorem wf_storeThreads (s : State) (a__internal_hyg0 : List (W64 × Acc × W64)) (h0 : s.wf = true) : State.wf
    (storeThreads s a__internal_hyg0) = true := by
  induction a__internal_hyg0 generalizing s with
  | nil =>
    unfold storeThreads
    repeat' (with_reducible assumption)
  | cons _ _ ih =>
    unfold storeThreads
    repeat' (with_reducible first | apply ih | assumption | apply wf_State_storeOr)
theorem wf_storeOp (z : Size) (o : MOpnd) (d : Sys2Proof.Disp) (sec : Option Nat) (acc : AccFn) (s : State) (h5 :
    s.wf = true) : OutWf (storeOp z o d sec acc s) := by
  unfold storeOp
  repeat' (with_reducible first
    | assumption | apply wf_memInstr | apply wf_checkThreads | apply wf_State_fillTlbs | apply wf_State_settle
    | apply wf_State_retire | apply wf_storeThreads | apply OutWf.next | intro _)
theorem wf_stqOp (s : State) (vs : List VReg) (m : MReg) (words : Nat) (a : VReg) (b : VReg) (c : SReg) (disp : W64)
    (at_ : Group → Nat → Nat → Nat × List Nat) (h0 : s.wf = true) : OutWf (stqOp s vs m words a b c disp at_) := by
  unfold stqOp
  repeat' (with_reducible first
    | assumption | apply wf_vector | apply wf_framed | apply wf_checkThreads | apply wf_State_fillTlbs
    | apply wf_State_settle | apply wf_State_retire | apply wf_storeThreads | apply OutWf.next | intro _)
theorem wf_pfgOp (s : State) (llc : Bool) (o : POpnd) (f : DForm) (h0 : s.wf = true) : OutWf (pfgOp s llc o f) := by
  unfold pfgOp
  repeat' (with_reducible first
    | assumption | apply wf_State_retire | apply wf_State_prefetch | apply wf_uniform | apply wf_vector
    | apply OutWf.next | apply wf_foldL | intro _ | split)
theorem wf_spOp (s : State) (o : MOpnd) (f : VForm) (val : State → W64 → W64) (h0 : s.wf = true) : OutWf (spOp s o f
    val) := by
  unfold spOp
  repeat' (with_reducible first | assumption | apply wf_memInstr | apply wf_State_setG | apply OutWf.next | intro _)
theorem wf_waitFalse (s : State) (b : Block) (h0 : s.wf = true) : OutWf (waitFalse s b) := by
  unfold waitFalse
  repeat' (with_reducible first
    | assumption | apply wf_State_blockOn | apply wf_State_setG | apply OutWf.next | split)
theorem wf_mstatResult (f : Bool) (a : SReg) (ext : Bool) (s : State) (h3 : s.wf = true) : OutWf (mstatResult f a ext
    s) := by
  unfold mstatResult
  repeat' (with_reducible first
    | assumption | apply wf_withFlag | apply wf_State_retire | apply wf_State_result | apply OutWf.next | intro _)
theorem wf_forking (s : State) (sc : Scope) (k : State → Out) (h0 : s.wf = true) (h2 : ∀ y0, y0.wf = true → OutWf (k
    y0)) : OutWf (forking s sc k) := by
  unfold forking
  repeat' (with_reducible first
    | assumption | apply h2 | apply wf_releasing | apply wf_State_finishFences | apply wf_State_blockOn | intro _
    | split | (simp only))
theorem wf_riddleOp_go (s : State) (o : RidOp) (h0 : s.wf = true) : OutWf (riddleOp.go s o) := by
  unfold riddleOp.go
  repeat' (with_reducible first
    | assumption | apply wf_forking | apply wf_State_opsInc | apply wf_State_fresh | apply wf_State_setG
    | apply wf_State_retire | apply OutWf.next | (refine wf_back ?_) | intro _ | split | (simp only [wf_mk]))
theorem wf_riddleOp (kind : RidKind) (base : SReg) (co : Compl) (tr : Bool) (p : PBlock) (wf : PBlock → Bool) (s :
    State) (h6 : s.wf = true) : OutWf (riddleOp kind base co tr p wf s) := by
  unfold riddleOp
  repeat' (with_reducible first
    | assumption | apply wf_State_illegal | apply wf_State_raise | apply wf_ownBanks | apply wf_State_finishFence
    | apply wf_State_blockOn | apply wf_riddleOp_go | apply wf_uniform | apply wf_inTurn | intro _ | split
    | (simp only))
theorem wf_shipThread (s : State) (ent : W64) (k : Nat) (r : ShipRegs) (t : Nat) (h0 : s.wf = true) : State.wf
    (shipThread s ent k r t) = true := by
  unfold shipThread
  repeat' (with_reducible first
    | assumption | apply wf_State_opsInc | apply wf_State_fresh | apply wf_State_setG | apply wf_State_sendShip
    | split)
theorem wf_onReply (p : Packet) (f : State → Req → State) (s : State) (h1 : ∀ y0 y1, y0.wf = true → State.wf (f y0
    y1) = true) (h2 : s.wf = true) : OutWf (onReply p f s) := by
  unfold onReply
  repeat' (with_reducible first
    | assumption | apply h1 | apply wf_State_take | apply OutWf.next | split | (simp only))
theorem wf_onCommand (code : Nat) (f : State → State) (s : State) (h1 : ∀ y0, y0.wf = true → State.wf (f y0) = true)
    (h2 : s.wf = true) : OutWf (onCommand code f s) := by
  unfold onCommand
  repeat' (with_reducible first
    | assumption | apply h1 | apply OutWf.next | (refine wf_back ?_) | split | (simp only [wf_mk]))
theorem wf_resolveOp (act : Nat) (ok : RecLog → Bool) (f : State → RecLog → Group → State) (s : State) (h2 : ∀ y0 y1
    y2, y0.wf = true → State.wf (f y0 y1 y2) = true) (h3 : s.wf = true) : OutWf (resolveOp act ok f s) := by
  unfold resolveOp
  repeat' (with_reducible first
    | assumption | apply h2 | apply wf_onCommand | apply wf_State_mboxDone | apply OutWf.next | intro _ | split)
theorem wf_hcopyOp (toHost : Bool) (s : State) (h1 : s.wf = true) : OutWf (hcopyOp toHost s) := by
  unfold hcopyOp
  repeat' (with_reducible first
    | assumption | apply wf_onCommand | apply wf_State_mboxDone | apply OutWf.next | (refine wf_back ?_) | intro _
    | split | (simp only [wf_mk]))

end Sys2Proof.Machine
end

