-- ==== Sys2Proof/Laws/WfMeanings.lean ====
section
/-!
SUPPORT. Every meaning keeps the canonical form of memory and poison marks, and so does the default order of acts.
-/
namespace Sys2Proof.Machine

theorem wf_execTret (s : State) (h0 : s.wf = true) : OutWf (execTret s) := by
  unfold execTret
  repeat' (with_reducible first
    | assumption | apply wf_checked | apply wf_State_raise | apply wf_State_blockOn | apply wf_State_getLine
    | apply wf_State_dropFetched | apply wf_State_thawAtTret | apply wf_State_setG | apply OutWf.next | split
    | (simp only))
theorem wf_firmwareStep (s : State) (h0 : s.wf = true) : OutWf (firmwareStep s) := by
  unfold firmwareStep
  repeat' (with_reducible first
    | assumption | apply wf_execTret | apply wf_State_setG | apply wf_saveGroup | apply wf_State_forward
    | apply OutWf.next | split | (refine wf_out ?_ (by assumption)))
theorem wf_execInstructionFetchFault (cause : BitVec 8) (addr : W64) (info : W64) (s : State) (h3 : s.wf = true) :
    OutWf (execInstructionFetchFault cause addr info s) := by
  unfold execInstructionFetchFault
  repeat' (with_reducible first | assumption | apply wf_State_raise)
theorem wf_execUnassignedEncoding (info : W64) (s : State) (h1 : s.wf = true) : OutWf (execUnassignedEncoding info s)
    := by
  unfold execUnassignedEncoding
  repeat' (with_reducible first | assumption | apply wf_State_illegal)
theorem wf_actGroup (run : Instr → State → Out) (s : State) (h0 : ∀ y0 y1, y1.wf = true → OutWf (run y0 y1)) (h1 :
    s.wf = true) : OutWf (actGroup run s) := by
  unfold actGroup
  repeat' (with_reducible first
    | assumption | apply h0 | apply wf_firmwareStep | apply wf_enterAt | apply wf_State_blockOn
    | apply wf_State_getLine | apply wf_execInstructionFetchFault | apply wf_State_dropFetched
    | apply wf_execUnassignedEncoding | apply wf_State_pollLoops | apply wf_State_quantumCheck | apply OutWf.next
    | intro _ | split | (refine wf_out ?_ (by assumption)))
theorem wf_actUnit (run : Instr → State → Out) (u : UnitId) (s : State) (h0 : ∀ y0 y1, y1.wf = true → OutWf (run y0
    y1)) (h2 : s.wf = true) : OutWf (actUnit run u s) := by
  unfold actUnit
  repeat' (with_reducible first
    | assumption | apply wf_State_focus | apply wf_actGroup | apply OutWf.next | split
    | (refine wf_opt ?_ (by assumption)))
theorem wf_execClause (wait : BitVec 12) (fa : FlagSel) (fb : FlagSel) (a3 : Bool) (a4 : Bool) (a5 : Bool) (s :
    State) (h6 : s.wf = true) : OutWf (execClause wait fa fb a3 a4 a5 s) := by
  unfold execClause
  repeat' (with_reducible first
    | assumption | apply wf_State_setG | apply wf_State_writeback | apply wf_State_blockOn | apply OutWf.next | split
    | (simp only))
theorem wf_execBr (off : W32) (s : State) (h1 : s.wf = true) : OutWf (execBr off s) := by
  unfold execBr
  repeat' (with_reducible first | assumption | apply wf_transfer)
theorem wf_execBrc (cond : Cond) (a : SReg) (b : SReg) (off : W32) (s : State) (h4 : s.wf = true) : OutWf (execBrc
    cond a b off s) := by
  unfold execBrc
  repeat' (with_reducible first
    | assumption | apply wf_stalled | apply wf_transfer | apply wf_State_retire | apply OutWf.next | intro _ | split)
theorem wf_execBrm (cond : MCond) (a : MReg) (off : W32) (s : State) (h3 : s.wf = true) : OutWf (execBrm cond a off
    s) := by
  unfold execBrm
  repeat' (with_reducible first | assumption | apply wf_transfer | apply wf_State_retire | apply OutWf.next | split)
theorem wf_execJmp (a : SReg) (s : State) (h1 : s.wf = true) : OutWf (execJmp a s) := by
  unfold execJmp
  repeat' (with_reducible first | assumption | apply wf_stalled | apply wf_transfer | intro _)
theorem wf_execCall (a : SReg) (off : W32) (s : State) (h2 : s.wf = true) : OutWf (execCall a off s) := by
  unfold execCall
  repeat' (with_reducible first | assumption | apply wf_stalled | apply wf_transfer | intro _)
theorem wf_execRet (a : SReg) (s : State) (h1 : s.wf = true) : OutWf (execRet a s) := by
  unfold execRet
  repeat' (with_reducible first | assumption | apply wf_stalled | apply wf_transfer | intro _)
theorem wf_execLoop (a : SReg) (off : W32) (s : State) (h2 : s.wf = true) : OutWf (execLoop a off s) := by
  unfold execLoop
  repeat' (with_reducible first
    | assumption | apply wf_stalled | apply wf_transfer | apply wf_State_setG | apply OutWf.next | intro _ | split)
theorem wf_execExit (s : State) (h0 : s.wf = true) : OutWf (execExit s) := by
  unfold execExit
  repeat' (with_reducible first | assumption | apply wf_checked | apply wf_tdoneOp | apply wf_exitOp | split)
theorem wf_execYield (s : State) (h0 : s.wf = true) : OutWf (execYield s) := by
  unfold execYield
  repeat' (with_reducible first | assumption | apply wf_State_retire | apply wf_State_setG | apply OutWf.next)
theorem wf_execWaitf (mask : BitVec 12) (s : State) (h1 : s.wf = true) : OutWf (execWaitf mask s) := by
  unfold execWaitf
  repeat' (with_reducible first
    | assumption | apply wf_State_writeback | apply wf_State_blockOn | apply wf_State_retire | apply OutWf.next
    | split | (simp only))
theorem wf_execNop (s : State) (h0 : s.wf = true) : OutWf (execNop s) := by
  unfold execNop
  repeat' (with_reducible first | assumption | apply wf_State_retire | apply OutWf.next)
theorem wf_execNopTag (f : NopForm) (s : State) (h1 : s.wf = true) : OutWf (execNopTag f s) := by
  unfold execNopTag
  repeat' (with_reducible first | assumption | apply wf_State_retire | apply OutWf.next)
theorem wf_execTrap (code : BitVec 12) (s : State) (h1 : s.wf = true) : OutWf (execTrap code s) := by
  unfold execTrap
  repeat' (with_reducible first | assumption | apply wf_nextTrap)
theorem wf_execBkpt (s : State) (h0 : s.wf = true) : OutWf (execBkpt s) := by
  unfold execBkpt
  repeat' (with_reducible first | assumption | apply wf_nextTrap)
theorem wf_execAdd (a : SReg) (b : SReg) (c : UC) (s : State) (h3 : s.wf = true) : OutWf (execAdd a b c s) := by
  unfold execAdd
  repeat' (with_reducible first | assumption | apply wf_uop)
theorem wf_execSub (a : SReg) (b : SReg) (c : UC) (s : State) (h3 : s.wf = true) : OutWf (execSub a b c s) := by
  unfold execSub
  repeat' (with_reducible first | assumption | apply wf_uop)
theorem wf_execMull (a : SReg) (b : SReg) (c : UC) (s : State) (h3 : s.wf = true) : OutWf (execMull a b c s) := by
  unfold execMull
  repeat' (with_reducible first | assumption | apply wf_uop)
theorem wf_execMulh (u : Bool) (a : SReg) (b : SReg) (c : UC) (s : State) (h4 : s.wf = true) : OutWf (execMulh u a b
    c s) := by
  unfold execMulh
  repeat' (with_reducible first | assumption | apply wf_uop)
theorem wf_execDiv (u : Bool) (a : SReg) (b : SReg) (c : UC) (s : State) (h4 : s.wf = true) : OutWf (execDiv u a b c
    s) := by
  unfold execDiv
  repeat' (with_reducible first | assumption | apply wf_uop)
theorem wf_execRem (u : Bool) (a : SReg) (b : SReg) (c : UC) (s : State) (h4 : s.wf = true) : OutWf (execRem u a b c
    s) := by
  unfold execRem
  repeat' (with_reducible first | assumption | apply wf_uop)
theorem wf_execMin (u : Bool) (a : SReg) (b : SReg) (c : UC) (s : State) (h4 : s.wf = true) : OutWf (execMin u a b c
    s) := by
  unfold execMin
  repeat' (with_reducible first | assumption | apply wf_uop)
theorem wf_execMax (u : Bool) (a : SReg) (b : SReg) (c : UC) (s : State) (h4 : s.wf = true) : OutWf (execMax u a b c
    s) := by
  unfold execMax
  repeat' (with_reducible first | assumption | apply wf_uop)
theorem wf_execAnd (a : SReg) (b : SReg) (c : UC) (s : State) (h3 : s.wf = true) : OutWf (execAnd a b c s) := by
  unfold execAnd
  repeat' (with_reducible first | assumption | apply wf_uop)
theorem wf_execOr (a : SReg) (b : SReg) (c : UC) (s : State) (h3 : s.wf = true) : OutWf (execOr a b c s) := by
  unfold execOr
  repeat' (with_reducible first | assumption | apply wf_uop)
theorem wf_execXor (a : SReg) (b : SReg) (c : UC) (s : State) (h3 : s.wf = true) : OutWf (execXor a b c s) := by
  unfold execXor
  repeat' (with_reducible first | assumption | apply wf_uop)
theorem wf_execShl (a : SReg) (b : SReg) (c : UC) (s : State) (h3 : s.wf = true) : OutWf (execShl a b c s) := by
  unfold execShl
  repeat' (with_reducible first | assumption | apply wf_uop)
theorem wf_execShr (a : SReg) (b : SReg) (c : UC) (s : State) (h3 : s.wf = true) : OutWf (execShr a b c s) := by
  unfold execShr
  repeat' (with_reducible first | assumption | apply wf_uop)
theorem wf_execShra (a : SReg) (b : SReg) (c : UC) (s : State) (h3 : s.wf = true) : OutWf (execShra a b c s) := by
  unfold execShra
  repeat' (with_reducible first | assumption | apply wf_uop)
theorem wf_execRot (a : SReg) (b : SReg) (c : UC) (s : State) (h3 : s.wf = true) : OutWf (execRot a b c s) := by
  unfold execRot
  repeat' (with_reducible first | assumption | apply wf_uop)
theorem wf_execClz (ext : Bool) (a : SReg) (b : SReg) (s : State) (h3 : s.wf = true) : OutWf (execClz ext a b s) := by
  unfold execClz
  repeat' (with_reducible first | assumption | apply wf_uop1)
theorem wf_execPopc (ext : Bool) (a : SReg) (b : SReg) (s : State) (h3 : s.wf = true) : OutWf (execPopc ext a b s) :=
    by
  unfold execPopc
  repeat' (with_reducible first | assumption | apply wf_uop1)
theorem wf_execMov (ext : Bool) (a : SReg) (b : SReg) (s : State) (h3 : s.wf = true) : OutWf (execMov ext a b s) := by
  unfold execMov
  repeat' (with_reducible first | assumption | apply wf_uop1)
theorem wf_execMovImm (a : SReg) (v : W32) (s : State) (h2 : s.wf = true) : OutWf (execMovImm a v s) := by
  unfold execMovImm
  repeat' (with_reducible first | assumption | apply wf_uconst)
theorem wf_execMovi (a : SReg) (v : W32) (s : State) (h2 : s.wf = true) : OutWf (execMovi a v s) := by
  unfold execMovi
  repeat' (with_reducible first | assumption | apply wf_uconst)
theorem wf_execMoviQ (a : SReg) (v : W64) (s : State) (h2 : s.wf = true) : OutWf (execMoviQ a v s) := by
  unfold execMoviQ
  repeat' (with_reducible first | assumption | apply wf_uconst)
theorem wf_execAddi (a : SReg) (b : SReg) (v : W32) (s : State) (h3 : s.wf = true) : OutWf (execAddi a b v s) := by
  unfold execAddi
  repeat' (with_reducible first | assumption | apply wf_uop1)
theorem wf_execSel (a : SReg) (b : SReg) (f : SelForm) (s : State) (h3 : s.wf = true) : OutWf (execSel a b f s) := by
  unfold execSel
  repeat' (with_reducible first | assumption | apply wf_stalled | apply wf_State_setG | apply OutWf.next | intro _)
theorem wf_execLea (a : SReg) (b : SReg) (c : SReg) (f : LeaForm) (s : State) (h4 : s.wf = true) : OutWf (execLea a b
    c f s) := by
  unfold execLea
  repeat' (with_reducible first | assumption | apply wf_stalled | apply wf_State_setG | apply OutWf.next | intro _)
theorem wf_execBext (a : SReg) (b : SReg) (f : BitForm) (s : State) (h3 : s.wf = true) : OutWf (execBext a b f s) :=
    by
  unfold execBext
  repeat' (with_reducible first | assumption | apply wf_stalled | apply wf_State_setG | apply OutWf.next | intro _)
theorem wf_execBins (a : SReg) (b : SReg) (f : BitForm) (s : State) (h3 : s.wf = true) : OutWf (execBins a b f s) :=
    by
  unfold execBins
  repeat' (with_reducible first | assumption | apply wf_stalled | apply wf_State_setG | apply OutWf.next | intro _)
theorem wf_execSetc (cond : Cond) (a : SReg) (b : SReg) (c : UC) (s : State) (h4 : s.wf = true) : OutWf (execSetc
    cond a b c s) := by
  unfold execSetc
  repeat' (with_reducible first | assumption | apply wf_uop)
theorem wf_execMset (a : MReg) (b : SReg) (s : State) (h2 : s.wf = true) : OutWf (execMset a b s) := by
  unfold execMset
  repeat' (with_reducible first | assumption | apply wf_stalled | apply wf_maskOp | intro _)
theorem wf_execMand (a : MReg) (b : MReg) (c : MReg) (s : State) (h3 : s.wf = true) : OutWf (execMand a b c s) := by
  unfold execMand
  repeat' (with_reducible first | assumption | apply wf_maskOp)
theorem wf_execMor (a : MReg) (b : MReg) (c : MReg) (s : State) (h3 : s.wf = true) : OutWf (execMor a b c s) := by
  unfold execMor
  repeat' (with_reducible first | assumption | apply wf_maskOp)
theorem wf_execMxor (a : MReg) (b : MReg) (c : MReg) (s : State) (h3 : s.wf = true) : OutWf (execMxor a b c s) := by
  unfold execMxor
  repeat' (with_reducible first | assumption | apply wf_maskOp)
theorem wf_execMnot (a : MReg) (b : MReg) (s : State) (h2 : s.wf = true) : OutWf (execMnot a b s) := by
  unfold execMnot
  repeat' (with_reducible first | assumption | apply wf_maskOp)
theorem wf_execMpop (a : SReg) (b : MReg) (s : State) (h2 : s.wf = true) : OutWf (execMpop a b s) := by
  unfold execMpop
  repeat' (with_reducible first | assumption | apply wf_uconst)
theorem wf_execMfirst (a : SReg) (b : MReg) (s : State) (h2 : s.wf = true) : OutWf (execMfirst a b s) := by
  unfold execMfirst
  repeat' (with_reducible first | assumption | apply wf_uconst)
theorem wf_execMmov (a : SReg) (b : MReg) (s : State) (h2 : s.wf = true) : OutWf (execMmov a b s) := by
  unfold execMmov
  repeat' (with_reducible first | assumption | apply wf_uconst)
theorem wf_execCsrrd (a : SReg) (num : BitVec 15) (s : State) (h2 : s.wf = true) : OutWf (execCsrrd a num s) := by
  unfold execCsrrd
  repeat' (with_reducible first | assumption | apply wf_uniform | apply wf_State_setG | apply OutWf.next | intro _)
theorem wf_execCsrwr (a : SReg) (num : BitVec 15) (s : State) (h2 : s.wf = true) : OutWf (execCsrwr a num s) := by
  unfold execCsrwr
  repeat' (with_reducible first | assumption | apply wf_uniform | apply wf_State_setG | apply OutWf.next | intro _)
theorem wf_execVadd (z : Size) (f : VForm) (a : VReg) (b : VReg) (c : VC) (s : State) (h5 : s.wf = true) : OutWf
    (execVadd z f a b c s) := by
  unfold execVadd
  repeat' (with_reducible first | assumption | apply wf_vint2)
theorem wf_execVsub (z : Size) (f : VForm) (a : VReg) (b : VReg) (c : VC) (s : State) (h5 : s.wf = true) : OutWf
    (execVsub z f a b c s) := by
  unfold execVsub
  repeat' (with_reducible first | assumption | apply wf_vint2)
theorem wf_execVadds (z : Size) (f : VForm) (a : VReg) (b : VReg) (c : VC) (s : State) (h5 : s.wf = true) : OutWf
    (execVadds z f a b c s) := by
  unfold execVadds
  repeat' (with_reducible first | assumption | apply wf_vint2)
theorem wf_execVsubs (z : Size) (f : VForm) (a : VReg) (b : VReg) (c : VC) (s : State) (h5 : s.wf = true) : OutWf
    (execVsubs z f a b c s) := by
  unfold execVsubs
  repeat' (with_reducible first | assumption | apply wf_vint2)
theorem wf_execVmul (z : Size) (f : VForm) (a : VReg) (b : VReg) (c : VC) (s : State) (h5 : s.wf = true) : OutWf
    (execVmul z f a b c s) := by
  unfold execVmul
  repeat' (with_reducible first | assumption | apply wf_vint2)
theorem wf_execVmulh (z : Size) (f : VForm) (a : VReg) (b : VReg) (c : VC) (s : State) (h5 : s.wf = true) : OutWf
    (execVmulh z f a b c s) := by
  unfold execVmulh
  repeat' (with_reducible first | assumption | apply wf_vint2)
theorem wf_execVmad (z : Size) (f : VForm) (a : VReg) (b : VReg) (c : VC) (d : VReg) (s : State) (h6 : s.wf = true) :
    OutWf (execVmad z f a b c d s) := by
  unfold execVmad
  repeat' (with_reducible first | assumption | apply wf_vwrite)
theorem wf_execVneg (z : Size) (f : VForm) (a : VReg) (b : VReg) (s : State) (h4 : s.wf = true) : OutWf (execVneg z f
    a b s) := by
  unfold execVneg
  repeat' (with_reducible first | assumption | apply wf_vint1)
theorem wf_execVand (z : Size) (f : VForm) (a : VReg) (b : VReg) (c : VC) (s : State) (h5 : s.wf = true) : OutWf
    (execVand z f a b c s) := by
  unfold execVand
  repeat' (with_reducible first | assumption | apply wf_vint2)
theorem wf_execVor (z : Size) (f : VForm) (a : VReg) (b : VReg) (c : VC) (s : State) (h5 : s.wf = true) : OutWf
    (execVor z f a b c s) := by
  unfold execVor
  repeat' (with_reducible first | assumption | apply wf_vint2)
theorem wf_execVxor (z : Size) (f : VForm) (a : VReg) (b : VReg) (c : VC) (s : State) (h5 : s.wf = true) : OutWf
    (execVxor z f a b c s) := by
  unfold execVxor
  repeat' (with_reducible first | assumption | apply wf_vint2)
theorem wf_execVnot (z : Size) (f : VForm) (a : VReg) (b : VReg) (s : State) (h4 : s.wf = true) : OutWf (execVnot z f
    a b s) := by
  unfold execVnot
  repeat' (with_reducible first | assumption | apply wf_vint1)
theorem wf_execVshl (z : Size) (f : VForm) (a : VReg) (b : VReg) (c : VC) (s : State) (h5 : s.wf = true) : OutWf
    (execVshl z f a b c s) := by
  unfold execVshl
  repeat' (with_reducible first | assumption | apply wf_vint2)
theorem wf_execVshr (z : Size) (f : VForm) (a : VReg) (b : VReg) (c : VC) (s : State) (h5 : s.wf = true) : OutWf
    (execVshr z f a b c s) := by
  unfold execVshr
  repeat' (with_reducible first | assumption | apply wf_vint2)
theorem wf_execVshra (z : Size) (f : VForm) (a : VReg) (b : VReg) (c : VC) (s : State) (h5 : s.wf = true) : OutWf
    (execVshra z f a b c s) := by
  unfold execVshra
  repeat' (with_reducible first | assumption | apply wf_vint2)
theorem wf_execVclz (z : Size) (f : VForm) (a : VReg) (b : VReg) (s : State) (h4 : s.wf = true) : OutWf (execVclz z f
    a b s) := by
  unfold execVclz
  repeat' (with_reducible first | assumption | apply wf_vint1)
theorem wf_execVmin (z : Size) (f : VForm) (a : VReg) (b : VReg) (c : VC) (s : State) (h5 : s.wf = true) : OutWf
    (execVmin z f a b c s) := by
  unfold execVmin
  repeat' (with_reducible first | assumption | apply wf_vint2)
theorem wf_execVmax (z : Size) (f : VForm) (a : VReg) (b : VReg) (c : VC) (s : State) (h5 : s.wf = true) : OutWf
    (execVmax z f a b c s) := by
  unfold execVmax
  repeat' (with_reducible first | assumption | apply wf_vint2)
theorem wf_execVminU (z : Size) (f : VForm) (a : VReg) (b : VReg) (c : VC) (s : State) (h5 : s.wf = true) : OutWf
    (execVminU z f a b c s) := by
  unfold execVminU
  repeat' (with_reducible first | assumption | apply wf_vint2)
theorem wf_execVmaxU (z : Size) (f : VForm) (a : VReg) (b : VReg) (c : VC) (s : State) (h5 : s.wf = true) : OutWf
    (execVmaxU z f a b c s) := by
  unfold execVmaxU
  repeat' (with_reducible first | assumption | apply wf_vint2)
theorem wf_execVabs (z : Size) (f : VForm) (a : VReg) (b : VReg) (s : State) (h4 : s.wf = true) : OutWf (execVabs z f
    a b s) := by
  unfold execVabs
  repeat' (with_reducible first | assumption | apply wf_vint1)
theorem wf_execVabss (z : Size) (f : VForm) (a : VReg) (b : VReg) (s : State) (h4 : s.wf = true) : OutWf (execVabss z
    f a b s) := by
  unfold execVabss
  repeat' (with_reducible first | assumption | apply wf_vint1)
theorem wf_execVpopc (z : Size) (f : VForm) (a : VReg) (b : VReg) (s : State) (h4 : s.wf = true) : OutWf (execVpopc z
    f a b s) := by
  unfold execVpopc
  repeat' (with_reducible first | assumption | apply wf_vint1)
theorem wf_execVcmp (cond : Cond) (z : Size) (f : VForm) (a : MReg) (b : VReg) (c : VC) (s : State) (h6 : s.wf =
    true) : OutWf (execVcmp cond z f a b c s) := by
  unfold execVcmp
  repeat' (with_reducible first | assumption | apply wf_vmask)
theorem wf_execVmov (a0 : Size) (f : VForm) (a : VReg) (b : VReg) (s : State) (h4 : s.wf = true) : OutWf (execVmov a0
    f a b s) := by
  unfold execVmov
  repeat' (with_reducible first | assumption | apply wf_vwrite)
theorem wf_execVmovImm (z : Size) (m : MReg) (a : VReg) (v : W32) (s : State) (h4 : s.wf = true) : OutWf (execVmovImm
    z m a v s) := by
  unfold execVmovImm
  repeat' (with_reducible first | assumption | apply wf_vwrite)
theorem wf_execVmovi (z : Size) (a : VReg) (v : W32) (s : State) (h3 : s.wf = true) : OutWf (execVmovi z a v s) := by
  unfold execVmovi
  repeat' (with_reducible first | assumption | apply wf_vconst)
theorem wf_execVmoviQ (a : VReg) (v : W64) (s : State) (h2 : s.wf = true) : OutWf (execVmoviQ a v s) := by
  unfold execVmoviQ
  repeat' (with_reducible first | assumption | apply wf_vconst)
theorem wf_execVbcast (z : Size) (f : VForm) (a : VReg) (b : SReg) (s : State) (h4 : s.wf = true) : OutWf (execVbcast
    z f a b s) := by
  unfold execVbcast
  repeat' (with_reducible first | assumption | apply wf_vwrite)
theorem wf_execVexts (z : Size) (f : VForm) (a : VReg) (b : VReg) (nm1 : Fin 64) (s : State) (h5 : s.wf = true) :
    OutWf (execVexts z f a b nm1 s) := by
  unfold execVexts
  repeat' (with_reducible first | assumption | apply wf_vwrite)
theorem wf_execVpack (z : Size) (f : VForm) (a : VReg) (b : VReg) (c : VC) (s : State) (h5 : s.wf = true) : OutWf
    (execVpack z f a b c s) := by
  unfold execVpack
  repeat' (with_reducible first | assumption | apply wf_vwrite)
theorem wf_execVunpk (z : Size) (f : VForm) (a : VReg) (b : VReg) (h : Bool) (s : State) (h5 : s.wf = true) : OutWf
    (execVunpk z f a b h s) := by
  unfold execVunpk
  repeat' (with_reducible first | assumption | apply wf_vwrite)
theorem wf_execVsel (z : Size) (f : VForm) (a : VReg) (b : VReg) (c : VC) (d : VReg) (s : State) (h6 : s.wf = true) :
    OutWf (execVsel z f a b c d s) := by
  unfold execVsel
  repeat' (with_reducible first | assumption | apply wf_vwrite)
theorem wf_execVfadd (t : FType) (f : VForm) (a : VReg) (b : VReg) (c : VC) (s : State) (h5 : s.wf = true) : OutWf
    (execVfadd t f a b c s) := by
  unfold execVfadd
  repeat' (with_reducible first | assumption | apply wf_vfl2)
theorem wf_execVfsub (t : FType) (f : VForm) (a : VReg) (b : VReg) (c : VC) (s : State) (h5 : s.wf = true) : OutWf
    (execVfsub t f a b c s) := by
  unfold execVfsub
  repeat' (with_reducible first | assumption | apply wf_vfl2)
theorem wf_execVfmul (t : FType) (f : VForm) (a : VReg) (b : VReg) (c : VC) (s : State) (h5 : s.wf = true) : OutWf
    (execVfmul t f a b c s) := by
  unfold execVfmul
  repeat' (with_reducible first | assumption | apply wf_vfl2)
theorem wf_execVfma (t : FType) (f : VForm) (a : VReg) (b : VReg) (c : VC) (d : VReg) (s : State) (h6 : s.wf = true)
    : OutWf (execVfma t f a b c d s) := by
  unfold execVfma
  repeat' (with_reducible first | assumption | apply wf_vwrite)
theorem wf_execVfmin (t : FType) (f : VForm) (a : VReg) (b : VReg) (c : VC) (s : State) (h5 : s.wf = true) : OutWf
    (execVfmin t f a b c s) := by
  unfold execVfmin
  repeat' (with_reducible first | assumption | apply wf_vfl2)
theorem wf_execVfmax (t : FType) (f : VForm) (a : VReg) (b : VReg) (c : VC) (s : State) (h5 : s.wf = true) : OutWf
    (execVfmax t f a b c s) := by
  unfold execVfmax
  repeat' (with_reducible first | assumption | apply wf_vfl2)
theorem wf_execVfabs (t : FType) (f : VForm) (a : VReg) (b : VReg) (s : State) (h4 : s.wf = true) : OutWf (execVfabs
    t f a b s) := by
  unfold execVfabs
  repeat' (with_reducible first | assumption | apply wf_vfl1)
theorem wf_execVfneg (t : FType) (f : VForm) (a : VReg) (b : VReg) (s : State) (h4 : s.wf = true) : OutWf (execVfneg
    t f a b s) := by
  unfold execVfneg
  repeat' (with_reducible first | assumption | apply wf_vfl1)
theorem wf_execVfrcp (t : FType) (f : VForm) (a : VReg) (b : VReg) (s : State) (h4 : s.wf = true) : OutWf (execVfrcp
    t f a b s) := by
  unfold execVfrcp
  repeat' (with_reducible first | assumption | apply wf_vfl1)
theorem wf_execVfrsq (t : FType) (f : VForm) (a : VReg) (b : VReg) (s : State) (h4 : s.wf = true) : OutWf (execVfrsq
    t f a b s) := by
  unfold execVfrsq
  repeat' (with_reducible first | assumption | apply wf_vfl1)
theorem wf_execVfsqrt (t : FType) (f : VForm) (a : VReg) (b : VReg) (s : State) (h4 : s.wf = true) : OutWf
    (execVfsqrt t f a b s) := by
  unfold execVfsqrt
  repeat' (with_reducible first | assumption | apply wf_vfl1)
theorem wf_execVfdiv (t : FType) (f : VForm) (a : VReg) (b : VReg) (c : VC) (s : State) (h5 : s.wf = true) : OutWf
    (execVfdiv t f a b c s) := by
  unfold execVfdiv
  repeat' (with_reducible first | assumption | apply wf_vfl2)
theorem wf_execVfexp2 (t : FType) (f : VForm) (a : VReg) (b : VReg) (s : State) (h4 : s.wf = true) : OutWf
    (execVfexp2 t f a b s) := by
  unfold execVfexp2
  repeat' (with_reducible first | assumption | apply wf_vfl1)
theorem wf_execVflog2 (t : FType) (f : VForm) (a : VReg) (b : VReg) (s : State) (h4 : s.wf = true) : OutWf
    (execVflog2 t f a b s) := by
  unfold execVflog2
  repeat' (with_reducible first | assumption | apply wf_vfl1)
theorem wf_execVfrnd (t : FType) (f : VForm) (a : VReg) (b : VReg) (mode : RMode) (s : State) (h5 : s.wf = true) :
    OutWf (execVfrnd t f a b mode s) := by
  unfold execVfrnd
  repeat' (with_reducible first | assumption | apply wf_vfl1)
theorem wf_execVfclass (t : FType) (f : VForm) (a : VReg) (b : VReg) (s : State) (h4 : s.wf = true) : OutWf
    (execVfclass t f a b s) := by
  unfold execVfclass
  repeat' (with_reducible first | assumption | apply wf_vfl1)
theorem wf_execVfcmp (cond : FCond) (t : FType) (f : VForm) (a : MReg) (b : VReg) (c : VC) (s : State) (h6 : s.wf =
    true) : OutWf (execVfcmp cond t f a b c s) := by
  unfold execVfcmp
  repeat' (with_reducible first | assumption | apply wf_vmask)
theorem wf_execVfcvt (dt : CType) (st : CType) (f : VForm) (a : VReg) (b : VReg) (h : Bool) (mode : RMode) (s :
    State) (h7 : s.wf = true) : OutWf (execVfcvt dt st f a b h mode s) := by
  unfold execVfcvt
  repeat' (with_reducible first | assumption | apply wf_vwrite)
theorem wf_execVqnt (t : FType) (f : VForm) (a : VReg) (b : VReg) (c : VC) (s : State) (h5 : s.wf = true) : OutWf
    (execVqnt t f a b c s) := by
  unfold execVqnt
  repeat' (with_reducible first | assumption | apply wf_qconv)
theorem wf_execVdqnt (t : FType) (f : VForm) (a : VReg) (b : VReg) (c : VC) (s : State) (h5 : s.wf = true) : OutWf
    (execVdqnt t f a b c s) := by
  unfold execVdqnt
  repeat' (with_reducible first | assumption | apply wf_qconv)
theorem wf_execVdith (t : FType) (f : VForm) (a : VReg) (b : VReg) (c : SReg) (s : State) (h5 : s.wf = true) : OutWf
    (execVdith t f a b c s) := by
  unfold execVdith
  repeat' (with_reducible first | assumption | apply wf_descOp)
theorem wf_execVscale (t : FType) (f : VForm) (a : VReg) (b : VReg) (c : SReg) (s : State) (h5 : s.wf = true) : OutWf
    (execVscale t f a b c s) := by
  unfold execVscale
  repeat' (with_reducible first | assumption | apply wf_descOp)
theorem wf_execVrand (a0 : Size) (f : VForm) (a : VReg) (b : SReg) (s : State) (h4 : s.wf = true) : OutWf (execVrand
    a0 f a b s) := by
  unfold execVrand
  repeat' (with_reducible first | assumption | apply wf_vector | apply wf_State_setG | apply OutWf.next | intro _)
theorem wf_execXsel (z : Size) (f : VForm) (a : VReg) (b : VReg) (c : VC) (s : State) (h5 : s.wf = true) : OutWf
    (execXsel z f a b c s) := by
  unfold execXsel
  repeat' (with_reducible first | assumption | apply wf_moveElems)
theorem wf_execXshf (z : Size) (f : VForm) (a : VReg) (b : VReg) (c : XC) (s : State) (h5 : s.wf = true) : OutWf
    (execXshf z f a b c s) := by
  unfold execXshf
  repeat' (with_reducible first | assumption | apply wf_moveElems)
theorem wf_execXrot (z : Size) (f : VForm) (a : VReg) (b : VReg) (c : XC) (s : State) (h5 : s.wf = true) : OutWf
    (execXrot z f a b c s) := by
  unfold execXrot
  repeat' (with_reducible first | assumption | apply wf_moveElems)
theorem wf_execXbfly (z : Size) (f : VForm) (a : VReg) (b : VReg) (p : Fin 8) (s : State) (h5 : s.wf = true) : OutWf
    (execXbfly z f a b p s) := by
  unfold execXbfly
  repeat' (with_reducible first | assumption | apply wf_vector | apply wf_State_setG | apply OutWf.next | intro _)
theorem wf_execXred (op : RedOp) (z : Size) (f : VForm) (a : VReg) (b : VReg) (s : State) (h5 : s.wf = true) : OutWf
    (execXred op z f a b s) := by
  unfold execXred
  repeat' (with_reducible first | assumption | apply wf_vector | apply wf_State_setG | apply OutWf.next | intro _)
theorem wf_execXscan (op : RedOp) (x : Bool) (z : Size) (f : VForm) (a : VReg) (b : VReg) (s : State) (h6 : s.wf =
    true) : OutWf (execXscan op x z f a b s) := by
  unfold execXscan
  repeat' (with_reducible first | assumption | apply wf_vector | apply wf_State_setG | apply OutWf.next | intro _)
theorem wf_execXbal (a0 : Size) (f : VForm) (a : MReg) (b : VReg) (s : State) (h4 : s.wf = true) : OutWf (execXbal a0
    f a b s) := by
  unfold execXbal
  repeat' (with_reducible first | assumption | apply wf_vmask)
theorem wf_execLd (z : Size) (o : MOpnd) (d : Sys2Proof.Disp) (f : Bool) (s : State) (h4 : s.wf = true) : OutWf
    (execLd z o d f s) := by
  unfold execLd
  repeat' (with_reducible first | assumption | apply wf_loadOp)
theorem wf_execSt (z : Size) (o : MOpnd) (d : Sys2Proof.Disp) (s : State) (h3 : s.wf = true) : OutWf (execSt z o d s)
    := by
  unfold execSt
  repeat' (with_reducible first | assumption | apply wf_storeOp)
theorem wf_execLdg (z : Size) (o : MOpnd) (d : Sys2Proof.Disp) (f : Bool) (s : State) (h4 : s.wf = true) : OutWf
    (execLdg z o d f s) := by
  unfold execLdg
  repeat' (with_reducible first | assumption | apply wf_loadOp)
theorem wf_execStg (z : Size) (o : MOpnd) (d : Sys2Proof.Disp) (s : State) (h3 : s.wf = true) : OutWf (execStg z o d
    s) := by
  unfold execStg
  repeat' (with_reducible first | assumption | apply wf_storeOp)
theorem wf_execLds (z : Size) (o : MOpnd) (d : Sys2Proof.Disp) (f : Bool) (s : State) (h4 : s.wf = true) : OutWf
    (execLds z o d f s) := by
  unfold execLds
  repeat' (with_reducible first | assumption | apply wf_loadOp)
theorem wf_execSts (z : Size) (o : MOpnd) (d : Sys2Proof.Disp) (s : State) (h3 : s.wf = true) : OutWf (execSts z o d
    s) := by
  unfold execSts
  repeat' (with_reducible first | assumption | apply wf_storeOp)
theorem wf_execLdc (z : Size) (o : MOpnd) (d : Sys2Proof.Disp) (f : Bool) (s : State) (h4 : s.wf = true) : OutWf
    (execLdc z o d f s) := by
  unfold execLdc
  repeat' (with_reducible first | assumption | apply wf_loadOp)
theorem wf_execStc (z : Size) (o : MOpnd) (d : Sys2Proof.Disp) (s : State) (h3 : s.wf = true) : OutWf (execStc z o d
    s) := by
  unfold execStc
  repeat' (with_reducible first | assumption | apply wf_storeOp)
theorem wf_execLdl (z : Size) (o : MOpnd) (d : Sys2Proof.Disp) (f : Bool) (s : State) (h4 : s.wf = true) : OutWf
    (execLdl z o d f s) := by
  unfold execLdl
  repeat' (with_reducible first | assumption | apply wf_loadOp)
theorem wf_execStl (z : Size) (o : MOpnd) (d : Sys2Proof.Disp) (s : State) (h3 : s.wf = true) : OutWf (execStl z o d
    s) := by
  unfold execStl
  repeat' (with_reducible first | assumption | apply wf_storeOp)
theorem wf_execLdx (z : Size) (o : MOpnd) (d : Sys2Proof.Disp) (f : Bool) (s : State) (h4 : s.wf = true) : OutWf
    (execLdx z o d f s) := by
  unfold execLdx
  repeat' (with_reducible first | assumption | apply wf_loadOp)
theorem wf_execStx (z : Size) (o : MOpnd) (d : Sys2Proof.Disp) (s : State) (h3 : s.wf = true) : OutWf (execStx z o d
    s) := by
  unfold execStx
  repeat' (with_reducible first | assumption | apply wf_storeOp)
theorem wf_execStq (a : VReg) (b : VReg) (c : SReg) (s : State) (h3 : s.wf = true) : OutWf (execStq a b c s) := by
  unfold execStq
  repeat' (with_reducible first | assumption | apply wf_stqOp)
theorem wf_execStqCoord (m : MReg) (a : VReg) (b : VReg) (c : SReg) (d : VReg) (v : W32) (s : State) (h6 : s.wf =
    true) : OutWf (execStqCoord m a b c d v s) := by
  unfold execStqCoord
  repeat' (with_reducible first | assumption | apply wf_stqOp)
theorem wf_execPfg (o : POpnd) (f : DForm) (s : State) (h2 : s.wf = true) : OutWf (execPfg o f s) := by
  unfold execPfg
  repeat' (with_reducible first | assumption | apply wf_pfgOp)
theorem wf_execPfgLlc (o : POpnd) (f : DForm) (s : State) (h2 : s.wf = true) : OutWf (execPfgLlc o f s) := by
  unfold execPfgLlc
  repeat' (with_reducible first | assumption | apply wf_pfgOp)
theorem wf_execSptest (o : MOpnd) (f : VForm) (s : State) (h2 : s.wf = true) : OutWf (execSptest o f s) := by
  unfold execSptest
  repeat' (with_reducible first | assumption | apply wf_spOp)
theorem wf_execSpcastG (o : MOpnd) (f : VForm) (c : Space) (s : State) (h3 : s.wf = true) : OutWf (execSpcastG o f c
    s) := by
  unfold execSpcastG
  repeat' (with_reducible first | assumption | apply wf_spOp)
theorem wf_execSpcastS (o : MOpnd) (f : VForm) (c : Space) (s : State) (h3 : s.wf = true) : OutWf (execSpcastS o f c
    s) := by
  unfold execSpcastS
  repeat' (with_reducible first | assumption | apply wf_spOp)
theorem wf_execAtomAdd (o : AOpnd) (t : AtomAttr) (f : Bool) (s : State) (h3 : s.wf = true) : OutWf (execAtomAdd o t
    f s) := by
  unfold execAtomAdd
  repeat' (with_reducible first | assumption | apply wf_atomOp)
theorem wf_execAtomAnd (o : AOpnd) (t : AtomAttr) (f : Bool) (s : State) (h3 : s.wf = true) : OutWf (execAtomAnd o t
    f s) := by
  unfold execAtomAnd
  repeat' (with_reducible first | assumption | apply wf_atomOp)
theorem wf_execAtomOr (o : AOpnd) (t : AtomAttr) (f : Bool) (s : State) (h3 : s.wf = true) : OutWf (execAtomOr o t f
    s) := by
  unfold execAtomOr
  repeat' (with_reducible first | assumption | apply wf_atomOp)
theorem wf_execAtomXor (o : AOpnd) (t : AtomAttr) (f : Bool) (s : State) (h3 : s.wf = true) : OutWf (execAtomXor o t
    f s) := by
  unfold execAtomXor
  repeat' (with_reducible first | assumption | apply wf_atomOp)
theorem wf_execAtomMin (o : AOpnd) (t : AtomAttr) (f : Bool) (s : State) (h3 : s.wf = true) : OutWf (execAtomMin o t
    f s) := by
  unfold execAtomMin
  repeat' (with_reducible first | assumption | apply wf_atomOp)
theorem wf_execAtomMax (o : AOpnd) (t : AtomAttr) (f : Bool) (s : State) (h3 : s.wf = true) : OutWf (execAtomMax o t
    f s) := by
  unfold execAtomMax
  repeat' (with_reducible first | assumption | apply wf_atomOp)
theorem wf_execAtomXchg (o : AOpnd) (t : AtomAttr) (f : Bool) (s : State) (h3 : s.wf = true) : OutWf (execAtomXchg o
    t f s) := by
  unfold execAtomXchg
  repeat' (with_reducible first | assumption | apply wf_atomOp)
theorem wf_execAtomIncwrap (o : AOpnd) (t : AtomAttr) (f : Bool) (s : State) (h3 : s.wf = true) : OutWf
    (execAtomIncwrap o t f s) := by
  unfold execAtomIncwrap
  repeat' (with_reducible first | assumption | apply wf_atomOp)
theorem wf_execAtomFadd (o : AOpnd) (t : AtomAttr) (f : Bool) (s : State) (h3 : s.wf = true) : OutWf (execAtomFadd o
    t f s) := by
  unfold execAtomFadd
  repeat' (with_reducible first | assumption | apply wf_atomOp)
theorem wf_execAcas (o : CasOpnd) (t : AtomAttr) (f : Bool) (s : State) (h3 : s.wf = true) : OutWf (execAcas o t f s)
    := by
  unfold execAcas
  repeat' (with_reducible first | assumption | apply wf_atomOp)
theorem wf_execRedAdd (o : ROpnd) (t : AtomAttr) (s : State) (h2 : s.wf = true) : OutWf (execRedAdd o t s) := by
  unfold execRedAdd
  repeat' (with_reducible first | assumption | apply wf_atomOp)
theorem wf_execRedFadd (o : ROpnd) (t : AtomAttr) (s : State) (h2 : s.wf = true) : OutWf (execRedFadd o t s) := by
  unfold execRedFadd
  repeat' (with_reducible first | assumption | apply wf_atomOp)
theorem wf_execRedMin (o : ROpnd) (t : AtomAttr) (s : State) (h2 : s.wf = true) : OutWf (execRedMin o t s) := by
  unfold execRedMin
  repeat' (with_reducible first | assumption | apply wf_atomOp)
theorem wf_execRedMax (o : ROpnd) (t : AtomAttr) (s : State) (h2 : s.wf = true) : OutWf (execRedMax o t s) := by
  unfold execRedMax
  repeat' (with_reducible first | assumption | apply wf_atomOp)
theorem wf_execFence (sc : Scope) (k : KReg) (s : State) (h2 : s.wf = true) : OutWf (execFence sc k s) := by
  unfold execFence
  repeat' (with_reducible first
    | assumption | apply wf_State_finishFence | apply wf_State_blockOn | apply wf_State_retire | apply wf_State_setG
    | apply OutWf.next | split | (simp only))
theorem wf_execFwait (k : KReg) (s : State) (h1 : s.wf = true) : OutWf (execFwait k s) := by
  unfold execFwait
  repeat' (with_reducible first
    | assumption | apply wf_State_finishFence | apply wf_waitFalse | apply wf_State_blockOn | apply wf_acquiring
    | apply wf_State_retire | apply wf_inTurn | apply OutWf.next | intro _ | split | (simp only))
theorem wf_execPhase (sc : Scope) (s : State) (h1 : s.wf = true) : OutWf (execPhase sc s) := by
  unfold execPhase
  repeat' (with_reducible first
    | assumption | apply wf_releasing | apply wf_acquiring | apply wf_State_retire | apply OutWf.next | intro _)
theorem wf_execAcq (a0 : Scope) (s : State) (h1 : s.wf = true) : OutWf (execAcq a0 s) := by
  unfold execAcq
  repeat' (with_reducible first
    | assumption | apply wf_acquiring | apply wf_State_retire | apply OutWf.next | intro _)
theorem wf_execRel (sc : Scope) (s : State) (h1 : s.wf = true) : OutWf (execRel sc s) := by
  unfold execRel
  repeat' (with_reducible first
    | assumption | apply wf_releasing | apply wf_State_retire | apply OutWf.next | intro _)
theorem wf_execBararv (sc : Scope) (a : SReg) (b : SReg) (f : DForm) (s : State) (h4 : s.wf = true) : OutWf
    (execBararv sc a b f s) := by
  unfold execBararv
  repeat' (with_reducible first | assumption | apply wf_arriveOp)
theorem wf_execBararvDrop (sc : Scope) (a : SReg) (b : SReg) (f : DForm) (s : State) (h4 : s.wf = true) : OutWf
    (execBararvDrop sc a b f s) := by
  unfold execBararvDrop
  repeat' (with_reducible first | assumption | apply wf_arriveOp)
theorem wf_execBararvJoin (sc : Scope) (a : SReg) (b : SReg) (f : DForm) (s : State) (h4 : s.wf = true) : OutWf
    (execBararvJoin sc a b f s) := by
  unfold execBararvJoin
  repeat' (with_reducible first | assumption | apply wf_arriveOp)
theorem wf_execBararvFz (sc : Scope) (a : SReg) (b : SReg) (f : DForm) (s : State) (h4 : s.wf = true) : OutWf
    (execBararvFz sc a b f s) := by
  unfold execBararvFz
  repeat' (with_reducible first
    | assumption | apply wf_uniform | apply wf_inTurn | apply wf_withAcc | apply wf_State_await
    | apply wf_State_tagged | apply wf_State_setG | apply wf_releasing | apply wf_State_retire
    | apply wf_State_settleOwn | apply wf_State_finishFence | apply OutWf.next | intro _ | split)
theorem wf_execBarexp (b : SReg) (c : SReg) (f : DForm) (s : State) (h3 : s.wf = true) : OutWf (execBarexp b c f s)
    := by
  unfold execBarexp
  repeat' (with_reducible first
    | assumption | apply wf_uniform | apply wf_withAcc | apply wf_State_retire | apply wf_State_tagged
    | apply wf_State_queueOp | apply OutWf.next | intro _)
theorem wf_execBarwait (t : Bool) (a1 : Scope) (a : SReg) (b : SReg) (f : DForm) (s : State) (h5 : s.wf = true) :
    OutWf (execBarwait t a1 a b f s) := by
  unfold execBarwait
  repeat' (with_reducible first
    | assumption | apply wf_uniform | apply wf_inTurn | apply wf_withAcc | apply wf_atObject | apply wf_State_raise
    | apply wf_State_retire | apply wf_State_setG | apply wf_acquiring | apply wf_waitFalse | apply OutWf.next
    | intro _ | split | (simp only))
theorem wf_execBartest (a0 : Scope) (a : SReg) (b : SReg) (f : DForm) (s : State) (h4 : s.wf = true) : OutWf
    (execBartest a0 a b f s) := by
  unfold execBartest
  repeat' (with_reducible first
    | assumption | apply wf_uniform | apply wf_inTurn | apply wf_withAcc | apply wf_atObject | apply wf_State_raise
    | apply wf_State_retire | apply wf_State_setG | apply wf_acquiring | apply OutWf.next | intro _ | split
    | (simp only))
theorem wf_execCntwait (a : SReg) (b : SReg) (c : SReg) (f : DForm) (s : State) (h4 : s.wf = true) : OutWf
    (execCntwait a b c f s) := by
  unfold execCntwait
  repeat' (with_reducible first
    | assumption | apply wf_countOp | apply wf_acquiring | apply wf_State_retire | apply wf_State_setG
    | apply wf_waitFalse | apply OutWf.next | intro _ | split)
theorem wf_execCnttest (a : SReg) (b : SReg) (c : SReg) (f : DForm) (s : State) (h4 : s.wf = true) : OutWf
    (execCnttest a b c f s) := by
  unfold execCnttest
  repeat' (with_reducible first
    | assumption | apply wf_countOp | apply wf_acquiring | apply wf_State_retire | apply wf_State_setG
    | apply OutWf.next | intro _ | split)
theorem wf_execTspawn (f : Bool) (m : VForm) (a : VReg) (b : VReg) (s : State) (h4 : s.wf = true) : OutWf (execTspawn
    f m a b s) := by
  unfold execTspawn
  repeat' (with_reducible first
    | assumption | apply wf_vector | apply wf_withFlag | apply wf_releasing | apply wf_checkThreads
    | apply wf_State_retire | apply wf_State_result | apply wf_State_drainBefore | apply wf_spawn | apply OutWf.next
    | intro _ | split)
theorem wf_execTclaim (f : Bool) (a : SReg) (b : SReg) (d : DForm) (s : State) (h4 : s.wf = true) : OutWf (execTclaim
    f a b d s) := by
  unfold execTclaim
  repeat' (with_reducible first | assumption | apply wf_claimOp)
theorem wf_execTclaimClu (f : Bool) (a : SReg) (b : SReg) (d : DForm) (s : State) (h4 : s.wf = true) : OutWf
    (execTclaimClu f a b d s) := by
  unfold execTclaimClu
  repeat' (with_reducible first | assumption | apply wf_claimOp)
theorem wf_execTclaimw (f : Bool) (a : SReg) (ext : Bool) (s : State) (h3 : s.wf = true) : OutWf (execTclaimw f a ext
    s) := by
  unfold execTclaimw
  repeat' (with_reducible first
    | assumption | apply wf_uniform | apply wf_withFlag | apply wf_State_deliverAll | apply wf_State_blockOn
    | apply wf_State_setG | apply wf_State_retire | apply wf_State_result | apply OutWf.next | intro _ | split
    | (simp only))
theorem wf_execTdone (a0 : Bool) (s : State) (h1 : s.wf = true) : OutWf (execTdone a0 s) := by
  unfold execTdone
  repeat' (with_reducible first | assumption | apply wf_checked | apply wf_tdoneOp | apply wf_exitOp | split)
theorem wf_execLaunch (b : SReg) (d : DForm) (s : State) (h2 : s.wf = true) : OutWf (execLaunch b d s) := by
  unfold execLaunch
  repeat' (with_reducible first
    | assumption | apply wf_uniform | apply wf_releasing | apply wf_State_raise | apply wf_State_load
    | apply wf_State_fillTlbs | apply wf_State_retire | apply wf_State_rejectPacket | apply wf_State_blockOn
    | apply wf_State_setCtx | apply wf_accWait | apply wf_atObject | apply OutWf.next | intro _ | split
    | (simp only))
theorem wf_execEvset (b : SReg) (c : SReg) (ext : Bool) (s : State) (h3 : s.wf = true) : OutWf (execEvset b c ext s)
    := by
  unfold execEvset
  repeat' (with_reducible first
    | assumption | apply wf_uniform | apply wf_releasing | apply wf_State_retire | apply wf_State_evUnit
    | apply OutWf.next | intro _)
theorem wf_execMma (p : PBlock) (s : State) (h1 : s.wf = true) : OutWf (execMma p s) := by
  unfold execMma
  repeat' (with_reducible first
    | assumption | apply wf_uniform | apply wf_State_freeStream | apply wf_State_blockOn | apply wf_State_illegal
    | apply wf_ownBanks | apply wf_State_raise | apply wf_State_setArr | apply wf_State_retire
    | apply wf_State_streamTo | apply OutWf.next | intro _ | split | (simp only))
theorem wf_execMzero (n : AccReg) (ext : Bool) (s : State) (h2 : s.wf = true) : OutWf (execMzero n ext s) := by
  unfold execMzero
  repeat' (with_reducible first
    | assumption | apply wf_uniform | apply wf_atRest | apply wf_State_retire | apply wf_State_setArr
    | apply OutWf.next | intro _)
theorem wf_execMdrain (f : Bool) (a : SReg) (b : SReg) (c : SReg) (d : DForm) (s : State) (h5 : s.wf = true) : OutWf
    (execMdrain f a b c d s) := by
  unfold execMdrain
  repeat' (with_reducible first
    | assumption | apply wf_uniform | apply wf_atRest | apply wf_withAcc | apply wf_atObject | apply wf_withFlag
    | apply wf_State_fillTlbs | apply wf_State_settle | apply wf_State_lostWrite | apply wf_State_storeRun
    | apply wf_State_retire | apply wf_State_result | apply OutWf.next | (refine wf_back ?_) | intro _ | split
    | (simp only [wf_mk]))
theorem wf_execMloadc (b : SReg) (c : SReg) (d : DForm) (s : State) (h3 : s.wf = true) : OutWf (execMloadc b c d s)
    := by
  unfold execMloadc
  repeat' (with_reducible first
    | assumption | apply wf_uniform | apply wf_atRest | apply wf_withAcc | apply wf_ownBanks | apply wf_State_load
    | apply wf_State_fillTlbs | apply wf_State_raise | apply wf_State_retire | apply wf_State_setArr
    | apply wf_accWait | apply wf_atObject | apply OutWf.next | intro _ | split | (simp only))
theorem wf_execMstat (f : Bool) (a : SReg) (ext : Bool) (s : State) (h3 : s.wf = true) : OutWf (execMstat f a ext s)
    := by
  unfold execMstat
  repeat' (with_reducible first | assumption | apply wf_uniform | apply wf_mstatResult)
theorem wf_execMstatIdle (f : Bool) (a : SReg) (ext : Bool) (s : State) (h3 : s.wf = true) : OutWf (execMstatIdle f a
    ext s) := by
  unfold execMstatIdle
  repeat' (with_reducible first | assumption | apply wf_uniform | apply wf_atRest | apply wf_mstatResult | intro _)
theorem wf_execMfreeze (ext : Bool) (s : State) (h1 : s.wf = true) : OutWf (execMfreeze ext s) := by
  unfold execMfreeze
  repeat' (with_reducible first
    | assumption | apply wf_uniform | apply wf_State_setArr | apply wf_State_retire | apply OutWf.next | intro _
    | split)
theorem wf_execMthaw (ext : Bool) (s : State) (h1 : s.wf = true) : OutWf (execMthaw ext s) := by
  unfold execMthaw
  repeat' (with_reducible first
    | assumption | apply wf_uniform | apply wf_State_setArr | apply wf_State_retire | apply OutWf.next | intro _
    | split)
theorem wf_execKick (b : SReg) (s : State) (h1 : s.wf = true) : OutWf (execKick b s) := by
  unfold execKick
  repeat' (with_reducible first
    | assumption | apply wf_uniform | apply wf_inTurn | apply wf_State_raise | apply wf_ownBanks
    | apply wf_State_blockOn | apply wf_forking | apply wf_State_opsInc | apply wf_State_fresh
    | apply wf_State_retire | apply wf_State_modCore | apply OutWf.next | intro _ | split | (simp only))
theorem wf_execEquiesce (s : State) (h0 : s.wf = true) : OutWf (execEquiesce s) := by
  unfold execEquiesce
  repeat' (with_reducible first
    | assumption | apply wf_uniform | apply wf_State_finishFences | apply wf_State_blockOn | apply wf_acquiring
    | apply wf_State_retire | apply OutWf.next | intro _ | split | (simp only))
theorem wf_execGather (base : SReg) (co : Compl) (tr : Bool) (p : PBlock) (s : State) (h4 : s.wf = true) : OutWf
    (execGather base co tr p s) := by
  unfold execGather
  repeat' (with_reducible first | assumption | apply wf_riddleOp)
theorem wf_execScatter (base : SReg) (co : Compl) (tr : Bool) (p : PBlock) (s : State) (h4 : s.wf = true) : OutWf
    (execScatter base co tr p s) := by
  unfold execScatter
  repeat' (with_reducible first | assumption | apply wf_riddleOp)
theorem wf_execScatadd (base : SReg) (co : Compl) (tr : Bool) (p : PBlock) (s : State) (h4 : s.wf = true) : OutWf
    (execScatadd base co tr p s) := by
  unfold execScatadd
  repeat' (with_reducible first | assumption | apply wf_riddleOp)
theorem wf_execMcst (off : SReg) (co : Compl) (p : PBlock) (s : State) (h3 : s.wf = true) : OutWf (execMcst off co p
    s) := by
  unfold execMcst
  repeat' (with_reducible first | assumption | apply wf_riddleOp)
theorem wf_execShip (ent : SReg) (kt : KReg) (narg : Fin 7) (nres : Fin 5) (p : PBlock) (s : State) (h5 : s.wf =
    true) : OutWf (execShip ent kt narg nres p s) := by
  unfold execShip
  repeat' (with_reducible first
    | assumption | apply wf_vector | apply wf_inTurn | apply wf_State_illegal | apply wf_State_raiseAt
    | apply wf_checkThreads | apply wf_stalled | apply wf_State_finishFence | apply wf_State_blockOn
    | apply wf_forking | apply wf_State_setG | apply wf_State_retire | apply wf_shipThread | apply OutWf.next
    | apply wf_foldL | intro _ | split | (simp only))
theorem wf_execSret (s : State) (h0 : s.wf = true) : OutWf (execSret s) := by
  unfold execSret
  repeat' (with_reducible first
    | assumption | apply wf_State_raise | apply wf_State_writeback | apply wf_State_finishFences
    | apply wf_State_entering | apply wf_State_poisonTrap | apply wf_State_blockOn | apply wf_releasing
    | apply wf_State_sectionResult | apply wf_State_setG | apply OutWf.next | intro _ | split | (simp only))
theorem wf_execWaittok (k : KReg) (s : State) (h1 : s.wf = true) : OutWf (execWaittok k s) := by
  unfold execWaittok
  repeat' (with_reducible first
    | assumption | apply wf_inTurn | apply wf_State_finishFence | apply wf_waitFalse | apply wf_acquiring
    | apply wf_State_retire | apply OutWf.next | intro _ | split | (simp only))
theorem wf_execToktest (a : SReg) (k : KReg) (s : State) (h2 : s.wf = true) : OutWf (execToktest a k s) := by
  unfold execToktest
  repeat' (with_reducible first
    | assumption | apply wf_uniform | apply wf_inTurn | apply wf_State_finishFence | apply wf_State_retire
    | apply wf_State_setG | apply wf_acquiring | apply OutWf.next | intro _ | split | (simp only))
theorem wf_execTlbinv (b : SReg) (c : TC) (s : State) (h2 : s.wf = true) : OutWf (execTlbinv b c s) := by
  unfold execTlbinv
  repeat' (with_reducible first
    | assumption | apply wf_uniform | apply wf_State_drainHome | apply wf_State_settleOwn | apply wf_State_blockOn
    | apply wf_State_retire | apply wf_State_invalDone | apply OutWf.next | intro _ | split | (simp only))
theorem wf_execL1wb (s : State) (h0 : s.wf = true) : OutWf (execL1wb s) := by
  unfold execL1wb
  repeat' (with_reducible first
    | assumption | apply wf_uniform | apply wf_State_retire | apply wf_State_flushInvals
    | apply wf_State_forcePublish | apply OutWf.next | intro _)
theorem wf_execL1inv (s : State) (h0 : s.wf = true) : OutWf (execL1inv s) := by
  unfold execL1inv
  repeat' (with_reducible first
    | assumption | apply wf_uniform | apply wf_State_retire | apply wf_State_modCore | apply OutWf.next | intro _)
theorem wf_execPmark (tag : BitVec 12) (s : State) (h1 : s.wf = true) : OutWf (execPmark tag s) := by
  unfold execPmark
  repeat' (with_reducible first
    | assumption | apply wf_State_retire | apply wf_State_modCore | apply wf_State_setDamper | apply OutWf.next
    | split)
theorem wf_execSnaptrig (tag : BitVec 8) (s : State) (h1 : s.wf = true) : OutWf (execSnaptrig tag s) := by
  unfold execSnaptrig
  repeat' (with_reducible first
    | assumption | apply wf_State_retire | apply wf_State_fireSnap | apply OutWf.next | split)
theorem wf_execDeferredPoisonTrap (u : UnitId) (s : State) (h1 : s.wf = true) : OutWf (execDeferredPoisonTrap u s) :=
    by
  unfold execDeferredPoisonTrap
  repeat' (with_reducible first
    | assumption | apply wf_asUnit | apply wf_State_entering | apply wf_State_poisonTrap | apply OutWf.next | intro _
    | split)
theorem wf_execResultWriteback (u : UnitId) (i : Nat) (s : State) (h2 : s.wf = true) : OutWf (execResultWriteback u i
    s) := by
  unfold execResultWriteback
  repeat' (with_reducible first
    | assumption | apply wf_State_onUnit | apply wf_State_settleOwn | apply wf_State_setG | intro _ | split
    | (simp only))
theorem wf_execBlockedWaitWake (u : UnitId) (s : State) (h1 : s.wf = true) : OutWf (execBlockedWaitWake u s) := by
  unfold execBlockedWaitWake
  repeat' (with_reducible first
    | assumption | apply wf_State_onUnit | apply wf_State_finishFences | apply wf_State_settleOwn
    | apply wf_State_setG | intro _ | split | (simp only))
theorem wf_execRefusedRequestRetry (u : UnitId) (s : State) (h1 : s.wf = true) : OutWf (execRefusedRequestRetry u s)
    := by
  unfold execRefusedRequestRetry
  repeat' (with_reducible first | assumption | apply wf_State_onUnit | apply wf_State_setG | intro _ | split)
theorem wf_execGtsPeriodicRaise (u : UnitId) (s : State) (h1 : s.wf = true) : OutWf (execGtsPeriodicRaise u s) := by
  unfold execGtsPeriodicRaise
  repeat' (with_reducible first | assumption | apply wf_State_onUnit | apply wf_State_acquire)
theorem wf_execTclaimDelivery (s : State) (h0 : s.wf = true) : OutWf (execTclaimDelivery s) := by
  unfold execTclaimDelivery
  repeat' (with_reducible first | assumption | apply wf_State_deliverOne | apply OutWf.next)
theorem wf_execFenceTokenComplete (u : UnitId) (k : KReg) (s : State) (h2 : s.wf = true) : OutWf
    (execFenceTokenComplete u k s) := by
  unfold execFenceTokenComplete
  repeat' (with_reducible first | assumption | apply wf_State_onUnit | apply wf_State_finishFence | intro _)
theorem wf_execL1Miss (core : Nat) (s : State) (h1 : s.wf = true) : OutWf (execL1Miss core s) := by
  unfold execL1Miss
  repeat' (with_reducible first
    | assumption | apply wf_State_modCore | apply wf_State_flushInvals | apply wf_State_serveMiss | apply OutWf.next
    | split)
theorem wf_execPublication (u : UnitId) (k : KReg) (s : State) (h2 : s.wf = true) : OutWf (execPublication u k s) :=
    by
  unfold execPublication
  repeat' (with_reducible first
    | assumption | apply wf_State_onUnit | apply wf_State_settleOwn | apply wf_State_runFence | intro _ | split
    | (simp only))
theorem wf_execForcedPublish (core : Nat) (s : State) (h1 : s.wf = true) : OutWf (execForcedPublish core s) := by
  unfold execForcedPublish
  repeat' (with_reducible first
    | assumption | apply wf_State_flushInvals | apply wf_State_forcePublish | apply OutWf.next)
theorem wf_execAtomicAtHome (s : State) (h0 : s.wf = true) : OutWf (execAtomicAtHome s) := by
  unfold execAtomicAtHome
  repeat' (with_reducible first | assumption | apply wf_State_performOne | apply OutWf.next)
theorem wf_execBarrierUpdate (s : State) (h0 : s.wf = true) : OutWf (execBarrierUpdate s) := by
  unfold execBarrierUpdate
  repeat' (with_reducible first | assumption | apply wf_State_performOne | apply OutWf.next)
theorem wf_execCounterAddition (s : State) (h0 : s.wf = true) : OutWf (execCounterAddition s) := by
  unfold execCounterAddition
  repeat' (with_reducible first | assumption | apply wf_State_performOne | apply OutWf.next)
theorem wf_execTlbWalk (die : Nat) (s : State) (h1 : s.wf = true) : OutWf (execTlbWalk die s) := by
  unfold execTlbWalk
  repeat' (with_reducible first
    | assumption | apply wf_State_fillTlb | apply OutWf.next | apply wf_foldL | (refine wf_back ?_) | intro _ | split
    | (simp only [wf_mk]))
theorem wf_execTlbInvalidationDone (s : State) (h0 : s.wf = true) : OutWf (execTlbInvalidationDone s) := by
  unfold execTlbInvalidationDone
  repeat' (with_reducible first
    | assumption | apply wf_State_drainHome | apply wf_State_invalDone | apply wf_State_mboxDone | apply OutWf.next
    | (refine wf_back ?_) | split | (simp only [wf_mk]))
theorem wf_execCombineWindow (s : State) (h0 : s.wf = true) : OutWf (execCombineWindow s) := by
  unfold execCombineWindow
  repeat' (with_reducible first
    | assumption | apply wf_State_retryTx | apply wf_State_route | apply OutWf.next | (refine wf_back ?_) | split
    | (simp only [wf_mk]))
theorem wf_execEngineRecordStart (core : Nat) (s : State) (h1 : s.wf = true) : OutWf (execEngineRecordStart core s)
    := by
  unfold execEngineRecordStart
  repeat' (with_reducible first | assumption | apply wf_State_engStart | apply OutWf.next)
theorem wf_execEngineOpComplete (core : Nat) (op : Nat) (s : State) (h2 : s.wf = true) : OutWf (execEngineOpComplete
    core op s) := by
  unfold execEngineOpComplete
  repeat' (with_reducible first | assumption | apply wf_State_engFinish | apply OutWf.next | split)
theorem wf_execLoopRefill (core : Nat) (op : Nat) (s : State) (h2 : s.wf = true) : OutWf (execLoopRefill core op s)
    := by
  unfold execLoopRefill
  repeat' (with_reducible first | assumption | apply wf_State_loopRefill | apply OutWf.next | split)
theorem wf_execRiddleOpComplete (op : Nat) (s : State) (h1 : s.wf = true) : OutWf (execRiddleOpComplete op s) := by
  unfold execRiddleOpComplete
  repeat' (with_reducible first | assumption | apply wf_State_ridFinish | apply OutWf.next | split)
theorem wf_execSectionStart (damper : Nat) (s : State) (h1 : s.wf = true) : OutWf (execSectionStart damper s) := by
  unfold execSectionStart
  repeat' (with_reducible first
    | assumption | apply wf_State_setDamper | apply wf_State_fresh | apply wf_State_sectionResult
    | apply wf_State_admitListed | apply OutWf.next | (refine wf_back ?_) | split | (simp only [wf_mk]))
theorem wf_execMmaStreamEnd (pair : Nat) (s : State) (h1 : s.wf = true) : OutWf (execMmaStreamEnd pair s) := by
  unfold execMmaStreamEnd
  repeat' (with_reducible first | assumption | apply wf_State_streamEnd | apply OutWf.next)
theorem wf_execMmaConversionEnd (pair : Nat) (s : State) (h1 : s.wf = true) : OutWf (execMmaConversionEnd pair s) :=
    by
  unfold execMmaConversionEnd
  repeat' (with_reducible first | assumption | apply wf_State_convEnd | apply OutWf.next)
theorem wf_execArrayFreeze (pair : Nat) (s : State) (h1 : s.wf = true) : OutWf (execArrayFreeze pair s) := by
  unfold execArrayFreeze
  repeat' (with_reducible first
    | assumption | apply wf_State_boundary | apply wf_State_freezeArray | apply OutWf.next | split)
theorem wf_execTaskDispatch (launch : Nat) (s : State) (h1 : s.wf = true) : OutWf (execTaskDispatch launch s) := by
  unfold execTaskDispatch
  repeat' (with_reducible first
    | assumption | apply wf_State_getLine | apply wf_State_setTq | apply wf_State_widen | apply wf_State_asGroup
    | apply wf_State_draw | apply wf_State_startTask | apply OutWf.next | intro _ | split | (simp only))
theorem wf_execTaskCommit (launch : Nat) (s : State) (h1 : s.wf = true) : OutWf (execTaskCommit launch s) := by
  unfold execTaskCommit
  repeat' (with_reducible first
    | assumption | apply wf_State_getLine | apply wf_State_modLaunch | apply wf_State_setTq | apply OutWf.next
    | split | (simp only))
theorem wf_execTaskLaunchEnd (launch : Nat) (s : State) (h1 : s.wf = true) : OutWf (execTaskLaunchEnd launch s) := by
  unfold execTaskLaunchEnd
  repeat' (with_reducible first
    | assumption | apply wf_State_getLine | apply wf_State_modLaunch | apply wf_State_freeGroup | apply OutWf.next
    | apply wf_foldL | (refine wf_back ?_) | split | (simp only [wf_mk]))
theorem wf_execQuantumEnd (launch : Nat) (s : State) (h1 : s.wf = true) : OutWf (execQuantumEnd launch s) := by
  unfold execQuantumEnd
  repeat' (with_reducible first
    | assumption | apply wf_State_getLine | apply wf_State_flushInvals | apply wf_State_quantumPublish
    | apply wf_State_freeGroup | apply wf_State_modEver | apply OutWf.next | apply wf_foldL | (refine wf_back ?_)
    | intro _ | split | (simp only [wf_mk]))
theorem wf_execDetTurnGrant (launch : Nat) (s : State) (h1 : s.wf = true) : OutWf (execDetTurnGrant launch s) := by
  unfold execDetTurnGrant
  repeat' (with_reducible first | assumption | apply wf_State_modGid | apply OutWf.next | split)
theorem wf_execDispatchDecision (s : State) (h0 : s.wf = true) : OutWf (execDispatchDecision s) := by
  unfold execDispatchDecision
  repeat' (with_reducible first | assumption | apply wf_State_decideOver | apply OutWf.next)
theorem wf_execPacketReservation (slot : Nat) (s : State) (h1 : s.wf = true) : OutWf (execPacketReservation slot s)
    := by
  unfold execPacketReservation
  repeat' (with_reducible first | assumption | apply OutWf.next | (refine wf_back ?_) | split | (simp only [wf_mk]))
theorem wf_execContextSwitchClear (core : Nat) (s : State) (h1 : s.wf = true) : OutWf (execContextSwitchClear core s)
    := by
  unfold execContextSwitchClear
  repeat' (with_reducible first
    | assumption | apply wf_State_clearCores | apply OutWf.next | split | (simp only))
theorem wf_execLaunchComplete (launch : Nat) (s : State) (h1 : s.wf = true) : OutWf (execLaunchComplete launch s) :=
    by
  unfold execLaunchComplete
  repeat' (with_reducible first
    | assumption | apply wf_State_drainHome | apply wf_State_dropLaunch | apply wf_State_packetDone
    | apply OutWf.next | split)
theorem wf_execContextMarkDead (ctx : Nat) (s : State) (h1 : s.wf = true) : OutWf (execContextMarkDead ctx s) := by
  unfold execContextMarkDead
  repeat' (with_reducible first
    | assumption | apply wf_State_abortSections | apply wf_State_drainHome | apply wf_State_getLine
    | apply wf_State_deadPacket | apply wf_State_deadListed | apply wf_State_dropLaunch | apply wf_State_launchDead
    | apply wf_State_setCtx | apply wf_State_mboxDone | apply OutWf.next | apply wf_foldL | (refine wf_back ?_)
    | intro _ | split | (simp only [wf_mk]))
theorem wf_execStokerReadyClear (queue : Nat) (s : State) (h1 : s.wf = true) : OutWf (execStokerReadyClear queue s)
    := by
  unfold execStokerReadyClear
  repeat' (with_reducible first | assumption | apply OutWf.next | (refine wf_back ?_) | (simp only [wf_mk]))
theorem wf_execSlotBind (slot : Nat) (s : State) (h1 : s.wf = true) : OutWf (execSlotBind slot s) := by
  unfold execSlotBind
  repeat' (with_reducible first
    | assumption | apply wf_State_setCtx | apply wf_State_setSlot | apply wf_State_draw | apply OutWf.next
    | (refine wf_back ?_) | split | (simp only [wf_mk]))
theorem wf_execSlotUnbind (slot : Nat) (s : State) (h1 : s.wf = true) : OutWf (execSlotUnbind slot s) := by
  unfold execSlotUnbind
  repeat' (with_reducible first | assumption | apply wf_State_unbind | apply OutWf.next)
theorem wf_execUnbindAck (slot : Nat) (s : State) (h1 : s.wf = true) : OutWf (execUnbindAck slot s) := by
  unfold execUnbindAck
  repeat' (with_reducible first | assumption | apply wf_State_setSlot | apply OutWf.next)
theorem wf_execSliceExpiry (slot : Nat) (s : State) (h1 : s.wf = true) : OutWf (execSliceExpiry slot s) := by
  unfold execSliceExpiry
  repeat' (with_reducible first | assumption | apply wf_State_unbind | apply OutWf.next | split | (simp only))
theorem wf_execQueueIdleTimeout (slot : Nat) (s : State) (h1 : s.wf = true) : OutWf (execQueueIdleTimeout slot s) :=
    by
  unfold execQueueIdleTimeout
  repeat' (with_reducible first | assumption | apply wf_State_unbind | apply OutWf.next | split | (simp only))
theorem wf_execPreemptSignal (ctx : Nat) (pairs : List Nat) (s : State) (h2 : s.wf = true) : OutWf (execPreemptSignal
    ctx pairs s) := by
  unfold execPreemptSignal
  repeat' (with_reducible first | assumption | apply wf_State_modGroups | apply OutWf.next)
theorem wf_execPreemptTrap (u : UnitId) (s : State) (h1 : s.wf = true) : OutWf (execPreemptTrap u s) := by
  unfold execPreemptTrap
  repeat' (with_reducible first
    | assumption | apply wf_asUnit | apply wf_State_entering | apply wf_State_trap | apply OutWf.next | intro _
    | split)
theorem wf_execContextRestore (ctx : Nat) (cores : List (Nat × Nat)) (s : State) (h2 : s.wf = true) : OutWf
    (execContextRestore ctx cores s) := by
  unfold execContextRestore
  repeat' (with_reducible first
    | assumption | apply wf_State_getLine | apply wf_State_restoreCore | apply wf_State_setCtx | apply OutWf.next
    | apply wf_foldL | (refine wf_back ?_) | intro _ | split | (simp only [wf_mk]))
theorem wf_execPowerGateEntry (core : Nat) (s : State) (h1 : s.wf = true) : OutWf (execPowerGateEntry core s) := by
  unfold execPowerGateEntry
  repeat' (with_reducible first | assumption | apply wf_State_setPower | apply OutWf.next | split)
theorem wf_execPowerGateOff (core : Nat) (s : State) (h1 : s.wf = true) : OutWf (execPowerGateOff core s) := by
  unfold execPowerGateOff
  repeat' (with_reducible first
    | assumption | apply wf_State_modCore | apply wf_State_setArr | apply wf_State_draw | apply OutWf.next | split)
theorem wf_execCoreWake (core : Nat) (s : State) (h1 : s.wf = true) : OutWf (execCoreWake core s) := by
  unfold execCoreWake
  repeat' (with_reducible first | assumption | apply wf_State_setPower | apply OutWf.next | split)
theorem wf_execWakeExitDone (core : Nat) (s : State) (h1 : s.wf = true) : OutWf (execWakeExitDone core s) := by
  unfold execWakeExitDone
  repeat' (with_reducible first | assumption | apply wf_State_setPower | apply OutWf.next | split)
theorem wf_execMigrationStep (page : W64) (s : State) (h1 : s.wf = true) : OutWf (execMigrationStep page s) := by
  unfold execMigrationStep
  repeat' (with_reducible first
    | assumption | apply wf_State_modMig | apply wf_State_migRecall | apply wf_State_tellFor
    | apply wf_State_migFinish | apply OutWf.next | split)
theorem wf_execStubReclaimStart (page : W64) (s : State) (h1 : s.wf = true) : OutWf (execStubReclaimStart page s) :=
    by
  unfold execStubReclaimStart
  repeat' (with_reducible first
    | assumption | apply wf_State_condInvals | apply OutWf.next | (refine wf_back ?_) | split | (simp only [wf_mk]))
theorem wf_execStubCondInval (page : W64) (old : Nat) (s : State) (h2 : s.wf = true) : OutWf (execStubCondInval page
    old s) := by
  unfold execStubCondInval
  repeat' (with_reducible first
    | assumption | apply wf_State_hold | apply wf_State_forgetOwner | apply wf_State_take | apply OutWf.next | split)
theorem wf_execStubInvalAck (page : W64) (old : Nat) (s : State) (h2 : s.wf = true) : OutWf (execStubInvalAck page
    old s) := by
  unfold execStubInvalAck
  repeat' (with_reducible first
    | assumption | apply wf_State_reply | apply OutWf.next | (refine wf_back ?_) | split | (simp only [wf_mk]))
theorem wf_execStubReclaimResult (page : W64) (fail : Option Nat) (s : State) (h2 : s.wf = true) : OutWf
    (execStubReclaimResult page fail s) := by
  unfold execStubReclaimResult
  repeat' (with_reducible first
    | assumption | apply wf_State_tell | apply wf_State_notice | apply OutWf.next | (refine wf_back ?_) | split
    | (simp only [wf_mk]))
theorem wf_execRead (p : Packet) (s : State) (h1 : s.wf = true) : OutWf (execRead p s) := by
  unfold execRead
  repeat' (with_reducible first
    | assumption | apply wf_atOwner | apply wf_State_prepare | apply wf_State_lineReply | apply wf_State_addSharer
    | apply ReadyWf.wait | apply ReadyWf.go | intro _ | split | (simp only)
    | (refine wf_readyW ?_ (by assumption)) | (refine wf_readyG ?_ (by assumption)))
theorem wf_execReadx (p : Packet) (s : State) (h1 : s.wf = true) : OutWf (execReadx p s) := by
  unfold execReadx
  repeat' (with_reducible first
    | assumption | apply wf_atOwner | apply wf_State_prepare | apply wf_State_lineReply | apply ReadyWf.wait
    | apply ReadyWf.go | (refine wf_back ?_) | intro _ | split | (simp only [wf_mk])
    | (refine wf_readyW ?_ (by assumption)) | (refine wf_readyG ?_ (by assumption)))
theorem wf_execWrite (p : Packet) (s : State) (h1 : s.wf = true) : OutWf (execWrite p s) := by
  unfold execWrite
  repeat' (with_reducible first
    | assumption | apply wf_atOwner | apply wf_State_prepare | apply wf_State_reply | apply wf_State_homeWrite
    | apply ReadyWf.wait | apply ReadyWf.go | intro _ | split | (simp only)
    | (refine wf_readyW ?_ (by assumption)) | (refine wf_readyG ?_ (by assumption)))
theorem wf_execWriteback (p : Packet) (s : State) (h1 : s.wf = true) : OutWf (execWriteback p s) := by
  unfold execWriteback
  repeat' (with_reducible first
    | assumption | apply wf_atOwner | apply wf_State_noteAsker | apply wf_State_takeIn | apply wf_State_take
    | apply wf_State_takeBack | apply wf_State_uncorrectable | apply wf_State_wakePeer | apply wf_State_requeue
    | apply wf_State_reply | apply OutWf.next | apply ReadyWf.go | intro _ | split)
theorem wf_execAtomicRequest (p : Packet) (s : State) (h1 : s.wf = true) : OutWf (execAtomicRequest p s) := by
  unfold execAtomicRequest
  repeat' (with_reducible first
    | assumption | apply wf_atOwner | apply wf_State_atomicReply | apply wf_State_refuse | apply wf_State_prepare
    | apply wf_State_filterAdd | apply wf_State_atomicApply | apply ReadyWf.wait | apply ReadyWf.go | intro _ | split
    | (simp only) | (refine wf_readyW ?_ (by assumption)) | (refine wf_readyG ?_ (by assumption)))
theorem wf_execInval (p : Packet) (s : State) (h1 : s.wf = true) : OutWf (execInval p s) := by
  unfold execInval
  repeat' (with_reducible first
    | assumption | apply wf_State_take | apply wf_State_hold | apply wf_State_forgetOwner | apply wf_State_giveUp
    | apply wf_State_overtake | apply wf_State_getLine | apply OutWf.next | split | (simp only))
theorem wf_execOwnerq (p : Packet) (s : State) (h1 : s.wf = true) : OutWf (execOwnerq p s) := by
  unfold execOwnerq
  repeat' (with_reducible first
    | assumption | apply wf_State_take | apply wf_State_replyStatus | apply wf_State_reply | apply OutWf.next | split
    | (simp only))
theorem wf_execShipRequest (p : Packet) (s : State) (h1 : s.wf = true) : OutWf (execShipRequest p s) := by
  unfold execShipRequest
  repeat' (with_reducible first
    | assumption | apply wf_State_take | apply wf_State_refuse | apply wf_State_shipIn | apply wf_State_noteAsker
    | apply wf_State_takeIn | apply wf_atOwner | apply OutWf.next | apply ReadyWf.go | intro _ | split
    | (simp only))
theorem wf_execMcast (p : Packet) (s : State) (h1 : s.wf = true) : OutWf (execMcast p s) := by
  unfold execMcast
  repeat' (with_reducible first
    | assumption | apply wf_State_take | apply wf_State_hold | apply wf_State_getLine | apply wf_State_mcRoot
    | apply wf_State_mcGo | apply OutWf.next | split | (simp only))
theorem wf_execRemoteWrite (p : Packet) (s : State) (h1 : s.wf = true) : OutWf (execRemoteWrite p s) := by
  unfold execRemoteWrite
  repeat' (with_reducible first
    | assumption | apply wf_atOwner | apply wf_State_prepare | apply wf_State_reply | apply wf_State_homeWrite
    | apply ReadyWf.wait | apply ReadyWf.go | intro _ | split | (simp only)
    | (refine wf_readyW ?_ (by assumption)) | (refine wf_readyG ?_ (by assumption)))
theorem wf_execData (p : Packet) (s : State) (h1 : s.wf = true) : OutWf (execData p s) := by
  unfold execData
  repeat' (with_reducible first
    | assumption | apply wf_onReply | apply wf_State_endReq | apply wf_State_redirected | apply wf_State_ackAtomic
    | apply wf_State_askLine | apply wf_State_requeue | apply wf_State_fillLine | apply wf_State_atomReply
    | apply wf_State_ridReplied | apply wf_State_ridPsn | apply wf_State_ownerKnown | apply wf_State_splitReply
    | intro _ | split | (simp only))
theorem wf_execAck (p : Packet) (s : State) (h1 : s.wf = true) : OutWf (execAck p s) := by
  unfold execAck
  repeat' (with_reducible first
    | assumption | apply wf_State_dropTag | apply wf_State_take | apply wf_onReply | apply wf_State_endReq
    | apply wf_State_redirected | apply wf_State_ridReplied | apply wf_State_recallDone | apply wf_State_invalAcked
    | apply wf_State_wbackDone | apply wf_State_reclaimAnswer | apply OutWf.next | intro _ | split)
theorem wf_execMigrationChain (p : Packet) (s : State) (h1 : s.wf = true) : OutWf (execMigrationChain p s) := by
  unfold execMigrationChain
  repeat' (with_reducible first | assumption | apply wf_onReply | apply wf_State_chase | intro _)
theorem wf_execNotOwner (p : Packet) (s : State) (h1 : s.wf = true) : OutWf (execNotOwner p s) := by
  unfold execNotOwner
  repeat' (with_reducible first | assumption | apply wf_onReply | apply wf_State_chase | intro _)
theorem wf_execRetry (p : Packet) (s : State) (h1 : s.wf = true) : OutWf (execRetry p s) := by
  unfold execRetry
  repeat' (with_reducible first
    | assumption | apply wf_onReply | apply wf_State_modReq | apply wf_State_emit | intro _ | split)
theorem wf_execUnreachable (p : Packet) (s : State) (h1 : s.wf = true) : OutWf (execUnreachable p s) := by
  unfold execUnreachable
  repeat' (with_reducible first | assumption | apply wf_onReply | apply wf_State_lose | intro _)
theorem wf_execHeld (p : Packet) (s : State) (h1 : s.wf = true) : OutWf (execHeld p s) := by
  unfold execHeld
  repeat' (with_reducible first | assumption | apply wf_State_take | apply OutWf.next)
theorem wf_execMack (p : Packet) (s : State) (h1 : s.wf = true) : OutWf (execMack p s) := by
  unfold execMack
  repeat' (with_reducible first
    | assumption | apply wf_onReply | apply wf_State_endReq | apply wf_State_mcIssuer | apply wf_State_mcCheck
    | apply wf_State_modMc | intro _ | split)
theorem wf_execSectionResult (p : Packet) (s : State) (h1 : s.wf = true) : OutWf (execSectionResult p s) := by
  unfold execSectionResult
  repeat' (with_reducible first
    | assumption | apply wf_onReply | apply wf_State_endReq | apply wf_State_redirected | apply wf_State_sectionDone
    | intro _ | split)
theorem wf_execStokerMessage (p : Packet) (s : State) (h1 : s.wf = true) : OutWf (execStokerMessage p s) := by
  unfold execStokerMessage
  repeat' (with_reducible first
    | assumption | apply wf_State_take | apply wf_State_neighbour | apply wf_State_stokerAnswer
    | apply wf_State_stokerApply | apply wf_State_replyMgmt | apply OutWf.next | split | (simp only))
theorem wf_execRouteMarker (p : Packet) (s : State) (h1 : s.wf = true) : OutWf (execRouteMarker p s) := by
  unfold execRouteMarker
  repeat' (with_reducible first | assumption | apply wf_State_replyMgmt | apply wf_State_take | apply OutWf.next)
theorem wf_execRouteMarkerReturn (p : Packet) (s : State) (h1 : s.wf = true) : OutWf (execRouteMarkerReturn p s) := by
  unfold execRouteMarkerReturn
  repeat' (with_reducible first
    | assumption | apply wf_State_take | apply wf_State_retryTx | apply OutWf.next | (refine wf_back ?_)
    | (simp only [wf_mk]))
theorem wf_execPacketForward (p : Packet) (s : State) (h1 : s.wf = true) : OutWf (execPacketForward p s) := by
  unfold execPacketForward
  repeat' (with_reducible first
    | assumption | apply wf_State_take | apply wf_State_sendOn | apply OutWf.next | (refine wf_back ?_) | split
    | (simp only [wf_mk]))
theorem wf_execFlitReceive (port : Nat) (bytes : List Byte) (s : State) (h2 : s.wf = true) : OutWf (execFlitReceive
    port bytes s) := by
  unfold execFlitReceive
  repeat' (with_reducible first
    | assumption | apply wf_State_setLink | apply wf_State_flitIn | apply wf_State_pumpLink | apply OutWf.next
    | split | (simp only))
theorem wf_execReplayTimeout (port : Nat) (s : State) (h1 : s.wf = true) : OutWf (execReplayTimeout port s) := by
  unfold execReplayTimeout
  repeat' (with_reducible first | assumption | apply wf_State_setLink | apply OutWf.next | split)
theorem wf_execAckTimer (port : Nat) (s : State) (h1 : s.wf = true) : OutWf (execAckTimer port s) := by
  unfold execAckTimer
  repeat' (with_reducible first | assumption | apply wf_State_setLink | apply OutWf.next | split)
theorem wf_execRequestTimeout (tag : W64) (s : State) (h1 : s.wf = true) : OutWf (execRequestTimeout tag s) := by
  unfold execRequestTimeout
  repeat' (with_reducible first
    | assumption | apply wf_State_stokerAnswer | apply wf_State_lose | apply OutWf.next | split)
theorem wf_execHeldTimer (i : Nat) (s : State) (h1 : s.wf = true) : OutWf (execHeldTimer i s) := by
  unfold execHeldTimer
  repeat' (with_reducible first | assumption | apply wf_State_replyStatus | apply OutWf.next | split)
theorem wf_execMcastChildTimeout (i : Nat) (port : Nat) (s : State) (h2 : s.wf = true) : OutWf (execMcastChildTimeout
    i port s) := by
  unfold execMcastChildTimeout
  repeat' (with_reducible first
    | assumption | apply wf_State_mcLost | apply OutWf.next | (refine wf_back ?_) | split | (simp only [wf_mk]))
theorem wf_execFabricLinkTrained (port : Nat) (badLanes : BitVec 16) (far : Option (Nat × Nat)) (s : State) (h3 :
    s.wf = true) : OutWf (execFabricLinkTrained port badLanes far s) := by
  unfold execFabricLinkTrained
  repeat' (with_reducible first
    | assumption | apply wf_State_linkDown | apply wf_State_setLink | apply wf_State_retrainDone
    | apply wf_State_notice | apply wf_State_enumBump | apply wf_State_pumpLink | apply wf_State_sendNeighbour
    | apply OutWf.next | (refine wf_back ?_) | split | (simp only [wf_mk]))
theorem wf_execFabricLaneFail (port : Nat) (lane : Nat) (s : State) (h2 : s.wf = true) : OutWf (execFabricLaneFail
    port lane s) := by
  unfold execFabricLaneFail
  repeat' (with_reducible first
    | assumption | apply wf_State_correctable | apply wf_State_enumBump | apply wf_State_setLink
    | apply wf_State_retrainDone | apply wf_State_uncorrectable | apply wf_State_linkDown | apply OutWf.next | split
    | (simp only))
theorem wf_execLinkRetrainTimeout (port : Nat) (s : State) (h1 : s.wf = true) : OutWf (execLinkRetrainTimeout port s)
    := by
  unfold execLinkRetrainTimeout
  repeat' (with_reducible first
    | assumption | apply wf_State_retrainDone | apply wf_State_linkDown | apply wf_State_setLink | apply OutWf.next
    | split | (simp only))
theorem wf_execDieLinkLaneFail (link : Nat) (group : Nat) (s : State) (h2 : s.wf = true) : OutWf (execDieLinkLaneFail
    link group s) := by
  unfold execDieLinkLaneFail
  repeat' (with_reducible first
    | assumption | apply wf_State_correctable | apply wf_State_enumBump | apply wf_State_uncorrectable
    | apply OutWf.next | (refine wf_back ?_) | split | (simp only [wf_mk]))
theorem wf_execSetId (s : State) (h0 : s.wf = true) : OutWf (execSetId s) := by
  unfold execSetId
  repeat' (with_reducible first
    | assumption | apply wf_onCommand | apply wf_State_mboxDone | (refine wf_back ?_) | intro _ | split
    | (simp only [wf_mk]))
theorem wf_execCtxCreate (s : State) (h0 : s.wf = true) : OutWf (execCtxCreate s) := by
  unfold execCtxCreate
  repeat' (with_reducible first
    | assumption | apply wf_onCommand | apply wf_State_mboxDone | apply wf_State_setCtx | intro _ | split
    | (simp only))
theorem wf_execCtxTeardown (s : State) (h0 : s.wf = true) : OutWf (execCtxTeardown s) := by
  unfold execCtxTeardown
  repeat' (with_reducible first | assumption | apply wf_onCommand | apply wf_State_tearDown | intro _)
theorem wf_execQueueReg (s : State) (h0 : s.wf = true) : OutWf (execQueueReg s) := by
  unfold execQueueReg
  repeat' (with_reducible first
    | assumption | apply wf_onCommand | apply wf_State_mboxDone | (refine wf_back ?_) | intro _ | split
    | (simp only [wf_mk]))
theorem wf_execQueueUnreg (s : State) (h0 : s.wf = true) : OutWf (execQueueUnreg s) := by
  unfold execQueueUnreg
  repeat' (with_reducible first
    | assumption | apply wf_onCommand | apply wf_State_mboxDone | apply wf_State_unbind | apply wf_foldL
    | (refine wf_back ?_) | intro _ | split | (simp only [wf_mk]))
theorem wf_execShootdown (s : State) (h0 : s.wf = true) : OutWf (execShootdown s) := by
  unfold execShootdown
  repeat' (with_reducible first
    | assumption | apply wf_onCommand | apply wf_State_mboxDone | (refine wf_back ?_) | intro _ | split
    | (simp only [wf_mk]))
theorem wf_execResolveResume (s : State) (h0 : s.wf = true) : OutWf (execResolveResume s) := by
  unfold execResolveResume
  repeat' (with_reducible first
    | assumption | apply wf_resolveOp | apply wf_State_mboxDone | apply wf_State_dropRec | apply wf_State_modEver
    | intro _)
theorem wf_execResolveSkip (s : State) (h0 : s.wf = true) : OutWf (execResolveSkip s) := by
  unfold execResolveSkip
  repeat' (with_reducible first
    | assumption | apply wf_resolveOp | apply wf_State_mboxDone | apply wf_State_dropRec | apply wf_State_modEver
    | intro _)
theorem wf_execResolveTerminate (s : State) (h0 : s.wf = true) : OutWf (execResolveTerminate s) := by
  unfold execResolveTerminate
  repeat' (with_reducible first
    | assumption | apply wf_resolveOp | apply wf_State_tearDown | apply wf_State_dropRec | intro _)
theorem wf_execResolveAbort (s : State) (h0 : s.wf = true) : OutWf (execResolveAbort s) := by
  unfold execResolveAbort
  repeat' (with_reducible first
    | assumption | apply wf_resolveOp | apply wf_State_abortSection | apply wf_State_mboxDone
    | apply wf_State_dropRec | apply wf_State_cmdWaits | intro _ | split | (simp only))
theorem wf_execMigrate (s : State) (h0 : s.wf = true) : OutWf (execMigrate s) := by
  unfold execMigrate
  repeat' (with_reducible first
    | assumption | apply wf_onCommand | apply wf_State_migAsked | apply wf_State_tellFor | apply wf_State_mboxDone
    | (refine wf_back ?_) | intro _ | split | (simp only [wf_mk]))
theorem wf_execRouteWrite (s : State) (h0 : s.wf = true) : OutWf (execRouteWrite s) := by
  unfold execRouteWrite
  repeat' (with_reducible first
    | assumption | apply wf_onCommand | apply wf_State_mboxDone | apply wf_State_writeRoute | intro _ | split
    | (simp only))
theorem wf_execGroupWrite (s : State) (h0 : s.wf = true) : OutWf (execGroupWrite s) := by
  unfold execGroupWrite
  repeat' (with_reducible first
    | assumption | apply wf_onCommand | apply wf_State_mboxDone | apply wf_State_writeGroup | intro _ | split)
theorem wf_execHcopyToHost (s : State) (h0 : s.wf = true) : OutWf (execHcopyToHost s) := by
  unfold execHcopyToHost
  repeat' (with_reducible first | assumption | apply wf_hcopyOp)
theorem wf_execHcopyToDevice (s : State) (h0 : s.wf = true) : OutWf (execHcopyToDevice s) := by
  unfold execHcopyToDevice
  repeat' (with_reducible first | assumption | apply wf_hcopyOp)
theorem wf_execHcopyDone (i : Nat) (s : State) (h1 : s.wf = true) : OutWf (execHcopyDone i s) := by
  unfold execHcopyDone
  repeat' (with_reducible first
    | assumption | apply wf_State_cntComplete | apply wf_State_draw | apply wf_State_settle | apply wf_State_getLine
    | apply wf_State_hcopyMove | apply OutWf.next | (refine wf_back ?_) | split | (simp only [wf_mk]))
theorem wf_execStubFree (s : State) (h0 : s.wf = true) : OutWf (execStubFree s) := by
  unfold execStubFree
  repeat' (with_reducible first
    | assumption | apply wf_onCommand | apply wf_State_mboxDone | (refine wf_back ?_) | intro _ | split
    | (simp only [wf_mk]))
theorem wf_execNbrRead (s : State) (h0 : s.wf = true) : OutWf (execNbrRead s) := by
  unfold execNbrRead
  repeat' (with_reducible first
    | assumption | apply wf_onCommand | apply wf_State_mboxDone | (refine wf_back ?_) | intro _
    | (simp only [wf_mk]))
theorem wf_execMigAbort (s : State) (h0 : s.wf = true) : OutWf (execMigAbort s) := by
  unfold execMigAbort
  repeat' (with_reducible first
    | assumption | apply wf_onCommand | apply wf_State_mboxDone | apply wf_State_migCancel | intro _ | split
    | (simp only))
theorem wf_execLinkRetrain (s : State) (h0 : s.wf = true) : OutWf (execLinkRetrain s) := by
  unfold execLinkRetrain
  repeat' (with_reducible first
    | assumption | apply wf_onCommand | apply wf_State_mboxDone | apply wf_State_askRetrain | apply wf_State_setLink
    | intro _ | split | (simp only))
theorem wf_execGroupDrain (s : State) (h0 : s.wf = true) : OutWf (execGroupDrain s) := by
  unfold execGroupDrain
  repeat' (with_reducible first
    | assumption | apply wf_onCommand | apply wf_State_mboxDone | apply wf_State_cmdWaits | intro _ | split
    | (simp only))
theorem wf_execMboxBadCode (s : State) (h0 : s.wf = true) : OutWf (execMboxBadCode s) := by
  unfold execMboxBadCode
  repeat' (with_reducible first
    | assumption | apply wf_onCommand | apply wf_State_mboxDone | apply OutWf.next | intro _ | split)
theorem wf_execReadySet (j : Nat) (v : W32) (s : State) (h2 : s.wf = true) : OutWf (execReadySet j v s) := by
  unfold execReadySet
  repeat' (with_reducible first | assumption | apply wf_State_hostMore | apply OutWf.next | split)
theorem wf_execApertureWrite (off : Nat) (bytes : List Byte) (s : State) (h2 : s.wf = true) : OutWf
    (execApertureWrite off bytes s) := by
  unfold execApertureWrite
  repeat' (with_reducible first
    | assumption | apply wf_State_hostMore | apply OutWf.next | exact OutWf.fault _ | split)
theorem wf_execApertureRead (off : Nat) (len : Nat) (s : State) (h2 : s.wf = true) : OutWf (execApertureRead off len
    s) := by
  unfold execApertureRead
  repeat' (with_reducible first
    | assumption | apply wf_State_hostMore | apply OutWf.next | exact OutWf.fault _ | split)
theorem wf_execFringRptr (v : W64) (s : State) (h1 : s.wf = true) : OutWf (execFringRptr v s) := by
  unfold execFringRptr
  repeat' (with_reducible first | assumption | apply wf_State_setRptr | apply OutWf.next)
theorem wf_execFaultRecordWrite (s : State) (h0 : s.wf = true) : OutWf (execFaultRecordWrite s) := by
  unfold execFaultRecordWrite
  repeat' (with_reducible first
    | assumption | apply wf_State_msi | apply OutWf.next | (refine wf_back ?_) | split | (simp only [wf_mk]))
theorem wf_execAttDoor (v : W32) (s : State) (h1 : s.wf = true) : OutWf (execAttDoor v s) := by
  unfold execAttDoor
  repeat' (with_reducible first | assumption | apply wf_State_attStart | apply OutWf.next)
theorem wf_execAttReportDone (s : State) (h0 : s.wf = true) : OutWf (execAttReportDone s) := by
  unfold execAttReportDone
  repeat' (with_reducible first
    | assumption | apply wf_State_draw | apply OutWf.next | (refine wf_back ?_) | split | (simp only [wf_mk]))
theorem wf_execSnapTrig (v : W32) (s : State) (h1 : s.wf = true) : OutWf (execSnapTrig v s) := by
  unfold execSnapTrig
  repeat' (with_reducible first | assumption | apply wf_State_snapWrite | apply OutWf.next)
theorem wf_execSnapshotLatch (s : State) (h0 : s.wf = true) : OutWf (execSnapshotLatch s) := by
  unfold execSnapshotLatch
  repeat' (with_reducible first
    | assumption | apply wf_State_draw | apply OutWf.next | (refine wf_back ?_) | split | (simp only [wf_mk]))
theorem wf_execErrcnt (kind : Nat) (v : W32) (s : State) (h2 : s.wf = true) : OutWf (execErrcnt kind v s) := by
  unfold execErrcnt
  repeat' (with_reducible first | assumption | apply wf_State_setErrcnt | apply OutWf.next)
theorem wf_execRegisterWrite (off : Nat) (v : W64) (s : State) (h2 : s.wf = true) : OutWf (execRegisterWrite off v s)
    := by
  unfold execRegisterWrite
  repeat' (with_reducible first | assumption | apply wf_State_regWrite | apply OutWf.next)
theorem wf_execErrorDetected (e : ErrInfo) (s : State) (h1 : s.wf = true) : OutWf (execErrorDetected e s) := by
  unfold execErrorDetected
  repeat' (with_reducible first
    | assumption | apply wf_State_correctable | apply wf_State_poisonAt | apply wf_State_uncorrectable
    | apply OutWf.next | apply wf_foldL | split)
theorem wf_execThermalThrottle (degrees : Nat) (s : State) (h1 : s.wf = true) : OutWf (execThermalThrottle degrees s)
    := by
  unfold execThermalThrottle
  repeat' (with_reducible first
    | assumption | apply wf_State_uncorrectable | apply OutWf.next | (refine wf_back ?_) | split
    | (simp only [wf_mk]))
theorem wf_execColdReset (s : State) (h0 : s.wf = true) : OutWf (execColdReset s) := by
  unfold execColdReset
  repeat' (with_reducible first | assumption | apply wf_State_keep | apply wf_State_reset | apply OutWf.next)
theorem wf_execFunctionReset (s : State) (h0 : s.wf = true) : OutWf (execFunctionReset s) := by
  unfold execFunctionReset
  repeat' (with_reducible first
    | assumption | apply wf_State_keep | apply wf_State_draw | apply wf_State_lineLost | apply OutWf.next
    | apply wf_foldL | (refine wf_keep ?_) | (simp only [wf_mk]))
theorem wf_execBootStepComplete (s : State) (h0 : s.wf = true) : OutWf (execBootStepComplete s) := by
  unfold execBootStepComplete
  repeat' (with_reducible first
    | assumption | apply wf_State_bootFail | apply OutWf.next | (refine wf_back ?_) | split | (simp only [wf_mk]))
theorem wf_execBankAccessPerformed (core : Nat) (s : State) (h1 : s.wf = true) : OutWf (execBankAccessPerformed core
    s) := by
  unfold execBankAccessPerformed
  repeat' (with_reducible first
    | assumption | apply wf_State_performBank | apply wf_State_modCore | apply OutWf.next | split)
theorem wf_execEngineWritePerformed (op : Nat) (s : State) (h1 : s.wf = true) : OutWf (execEngineWritePerformed op s)
    := by
  unfold execEngineWritePerformed
  repeat' (with_reducible first
    | assumption | apply wf_State_engPerform | apply wf_State_mcIssue | apply wf_State_ridPerform | apply OutWf.next
    | split)
theorem wf_execThermalConditionClear (s : State) (h0 : s.wf = true) : OutWf (execThermalConditionClear s) := by
  unfold execThermalConditionClear
  repeat' (with_reducible first | assumption | apply OutWf.next | (refine wf_back ?_) | (simp only [wf_mk]))
theorem wf_execPowerGoodLoss (s : State) (h0 : s.wf = true) : OutWf (execPowerGoodLoss s) := by
  unfold execPowerGoodLoss
  repeat' (with_reducible first
    | assumption | apply wf_State_keep | apply wf_State_reset | apply OutWf.next | (refine wf_back ?_)
    | (simp only [wf_mk]))
theorem wf_execFirmwareImageWrite (img : FwImage) (s : State) (h1 : s.wf = true) : OutWf (execFirmwareImageWrite img
    s) := by
  unfold execFirmwareImageWrite
  repeat' (with_reducible first | assumption | apply OutWf.next | (refine wf_back ?_) | (simp only [wf_mk]))
theorem wf_execHostAccesses (s : State) (h0 : s.wf = true) : OutWf (execHostAccesses s) := by
  unfold execHostAccesses
  repeat' (with_reducible first | assumption | apply wf_State_hostRun | apply OutWf.next)
theorem wf_execStoreAtHome (s : State) (h0 : s.wf = true) : OutWf (execStoreAtHome s) := by
  unfold execStoreAtHome
  repeat' (with_reducible first | assumption | apply wf_State_performOne | apply OutWf.next)
theorem wf_homeAct (h : HomeOp) (s : State) (h1 : s.wf = true) : OutWf (homeAct h s) := by
  unfold homeAct
  repeat' (with_reducible first
    | assumption | apply wf_execAtomicAtHome | apply wf_execBarrierUpdate | apply wf_execCounterAddition
    | apply wf_execStoreAtHome | split)
theorem wf_mailboxAct (s : State) (h0 : s.wf = true) : OutWf (mailboxAct s) := by
  unfold mailboxAct
  repeat' (with_reducible first
    | assumption | apply wf_execSetId | apply wf_execCtxCreate | apply wf_execCtxTeardown | apply wf_execQueueReg
    | apply wf_execQueueUnreg | apply wf_execShootdown | apply wf_execResolveResume | apply wf_execResolveSkip
    | apply wf_execResolveTerminate | apply wf_execResolveAbort | apply wf_execMigrate | apply wf_execRouteWrite
    | apply wf_execGroupWrite | apply wf_execHcopyToHost | apply wf_execHcopyToDevice | apply wf_execStubFree
    | apply wf_execNbrRead | apply wf_execMigAbort | apply wf_execLinkRetrain | apply wf_execGroupDrain
    | apply wf_execMboxBadCode | split)
theorem wf_packetAct (p : Packet) (s : State) (h1 : s.wf = true) : OutWf (packetAct p s) := by
  unfold packetAct
  repeat' (with_reducible first
    | assumption | apply wf_execPacketForward | apply wf_execRead | apply wf_execReadx | apply wf_execWrite
    | apply wf_execWriteback | apply wf_execAtomicRequest | apply wf_execStubCondInval | apply wf_execInval
    | apply wf_execOwnerq | apply wf_execShipRequest | apply wf_execMcast | apply wf_execRemoteWrite
    | apply wf_execData | apply wf_execAck | apply wf_execMigrationChain | apply wf_execNotOwner | apply wf_execRetry
    | apply wf_execUnreachable | apply wf_execHeld | apply wf_execMack | apply wf_execSectionResult
    | apply wf_execRouteMarkerReturn | apply wf_execRouteMarker | apply wf_execStokerMessage | split)
theorem wf_takeGroup (run : Instr → State → Out) (l : List Group) (g : Group) (note : State → State) (s : State) (h0
    : ∀ y0 y1, y1.wf = true → OutWf (run y0 y1)) (h3 : ∀ y0, y0.wf = true → State.wf (note y0) = true) (h4 : s.wf =
    true) : OutWf (takeGroup run l g note s) := by
  unfold takeGroup
  repeat' (with_reducible first
    | assumption | apply h3 | apply wf_actUnit | apply wf_State_chosen | apply OutWf.next | split
    | (refine wf_out ?_ (by assumption)))
theorem acts_uniformActs (s : State) (run : Instr → State → Out) (c : Nat) (l : List Group) (h : ∀ i s, State.wf s = true →
    OutWf (run i s)) : ActsWf (State.uniformActs s run c l) := by
  unfold State.uniformActs
  try dsimp only
  repeat' (with_reducible first
    | assumption
    | exact wf_takeGroup _ _ _ _ _ h (fun _ hy => wf_State_modCore _ _ _ hy) (by assumption)
    | apply actsWf_nil | apply actsWf_append
    | apply actsWf_cons | apply actsWf_flatMap | apply actsWf_map | split | apply ActWf.mk | intro _)
theorem acts_vectorActs (s : State) (run : Instr → State → Out) (c : Nat) (l : List Group) (h : ∀ i s, State.wf s = true →
    OutWf (run i s)) : ActsWf (State.vectorActs s run c l) := by
  unfold State.vectorActs
  try dsimp only
  repeat' (with_reducible first
    | assumption
    | exact wf_takeGroup _ _ _ _ _ h (fun _ hy => wf_State_modCore _ _ _ hy) (by assumption)
    | apply actsWf_nil | apply actsWf_append
    | apply actsWf_cons | apply actsWf_flatMap | apply actsWf_map | split | apply ActWf.mk | intro _)
theorem acts_sectionActs (run : Instr → State → Out) (l : List Group) (h : ∀ i s, State.wf s = true →
    OutWf (run i s)) : ActsWf (sectionActs run l) := by
  unfold sectionActs
  try dsimp only
  repeat' (with_reducible first
    | assumption
    | exact wf_takeGroup _ _ _ _ _ h (fun _ hy => by simpa only [id] using hy) (by assumption)
    | apply actsWf_nil | apply actsWf_append
    | apply actsWf_cons | apply actsWf_flatMap | apply actsWf_map | split | apply ActWf.mk | intro _)
theorem acts_issueActs (s : State) (run : Instr → State → Out) (h : ∀ i s, State.wf s = true →
    OutWf (run i s)) : ActsWf (State.issueActs s run) := by
  unfold State.issueActs
  try dsimp only
  repeat' (with_reducible first
    | assumption
    | exact acts_uniformActs _ _ _ _ h | exact acts_vectorActs _ _ _ _ h
    | exact acts_sectionActs _ _ h
    | apply actsWf_nil | apply actsWf_append
    | apply actsWf_cons | apply actsWf_flatMap | apply actsWf_map | split | apply ActWf.mk | intro _)
theorem acts_groupActs (s : State) : ActsWf (State.groupActs s) := by
  unfold State.groupActs
  try dsimp only
  repeat' (with_reducible first
    | assumption
    | exact wf_State_onUnit _ _ _ (by assumption) (fun _ hy => wf_State_finishFences _ hy)
    | apply wf_execRefusedRequestRetry | apply wf_execBlockedWaitWake | apply wf_execResultWriteback
    | apply wf_execDeferredPoisonTrap | apply wf_execPublication | apply wf_execFenceTokenComplete
    | apply wf_execPreemptTrap | apply wf_execGtsPeriodicRaise | apply actsWf_nil | apply actsWf_append
    | apply actsWf_cons | apply actsWf_flatMap | apply actsWf_map | split | apply ActWf.mk | intro _)
theorem acts_coreActs (s : State) : ActsWf (State.coreActs s) := by
  unfold State.coreActs
  try dsimp only
  repeat' (with_reducible first
    | assumption | apply wf_execL1Miss | apply wf_execBankAccessPerformed | apply wf_execEngineRecordStart
    | apply wf_execEngineWritePerformed | apply wf_execEngineOpComplete | apply wf_execLoopRefill
    | apply wf_execPowerGateEntry | apply wf_execWakeExitDone | apply wf_execPowerGateOff | apply wf_execCoreWake
    | apply actsWf_nil | apply actsWf_append | apply actsWf_cons | apply actsWf_flatMap | apply actsWf_map | split
    | apply ActWf.mk | intro _)
theorem acts_unitActs (s : State) : ActsWf (State.unitActs s) := by
  unfold State.unitActs
  try dsimp only
  repeat' (with_reducible first
    | assumption
    | exact OutWf.next (wf_State_streamOn _ _ (by assumption))
    | apply wf_execMmaConversionEnd | apply wf_execMmaStreamEnd | apply wf_execArrayFreeze
    | apply wf_execEngineWritePerformed | apply wf_execRiddleOpComplete | apply wf_execSectionStart
    | apply actsWf_nil | apply actsWf_append | apply actsWf_cons | apply actsWf_flatMap | apply actsWf_map | split
    | apply ActWf.mk | intro _)
theorem acts_memActs (s : State) : ActsWf (State.memActs s) := by
  unfold State.memActs
  try dsimp only
  repeat' (with_reducible first
    | assumption
    | exact wf_homeAct _ _ (by assumption) | exact OutWf.next (wf_State_flushInvals _ (by assumption))
    | exact OutWf.next (wf_State_ackOwn _ (by assumption)) | exact OutWf.next (wf_State_evict _ _ (by assumption))
    | apply wf_execTlbWalk | apply wf_execTlbInvalidationDone | apply actsWf_nil | apply actsWf_append
    | apply actsWf_cons | apply actsWf_flatMap | apply actsWf_map | split | apply ActWf.mk | intro _)
theorem acts_launchActs (s : State) : ActsWf (State.launchActs s) := by
  unfold State.launchActs
  try dsimp only
  repeat' (with_reducible first
    | assumption | apply wf_execTaskDispatch | apply wf_execTaskCommit | apply wf_execTaskLaunchEnd
    | apply wf_execLaunchComplete | apply wf_execDetTurnGrant | apply wf_execQuantumEnd | apply wf_execTclaimDelivery
    | apply actsWf_nil | apply actsWf_append | apply actsWf_cons | apply actsWf_flatMap | apply actsWf_map | split
    | apply ActWf.mk | intro _)
theorem acts_slotActs (s : State) : ActsWf (State.slotActs s) := by
  unfold State.slotActs
  try dsimp only
  repeat' (with_reducible first
    | assumption | apply wf_execSlotBind | apply wf_execUnbindAck | apply wf_execSliceExpiry
    | apply wf_execQueueIdleTimeout | apply wf_execPacketReservation | apply wf_execStokerReadyClear
    | apply wf_execDispatchDecision | apply actsWf_nil | apply actsWf_append | apply actsWf_cons
    | apply actsWf_flatMap | apply actsWf_map | split | apply ActWf.mk | intro _)
theorem acts_firmwareActs (s : State) : ActsWf (State.firmwareActs s) := by
  unfold State.firmwareActs
  refine actsWf_append (actsWf_append ?_ (actsWf_map fun c => ⟨fun s hs => wf_execPreemptSignal _ _ s hs⟩))
    (actsWf_filterMap fun e f he => ?_)
  · split
    · exact actsWf_cons ⟨fun s hs => wf_execSlotUnbind _ s hs⟩ actsWf_nil
    · exact actsWf_nil
  · dsimp only at he
    split at he
    · cases he
      exact ⟨fun s hs => wf_execContextRestore _ _ s hs⟩
    · cases he
theorem acts_stokerActs (s : State) : ActsWf (State.stokerActs s) := by
  unfold State.stokerActs
  try dsimp only
  repeat' (with_reducible first
    | assumption | apply wf_execContextMarkDead | apply wf_execMigrationStep | apply wf_execStubReclaimResult
    | apply wf_execStubReclaimStart | apply wf_execStubInvalAck | apply wf_execFaultRecordWrite
    | apply wf_execHostAccesses | apply wf_execHcopyDone | apply wf_execAttReportDone | apply wf_execSnapshotLatch
    | apply wf_mailboxAct | apply actsWf_nil | apply actsWf_append | apply actsWf_cons | apply actsWf_flatMap
    | apply actsWf_map | split | apply ActWf.mk | intro _)
theorem acts_classAct (s : State) (c : Nat) : ActsWf (State.classAct s c) := by
  unfold State.classAct
  try dsimp only
  repeat' (with_reducible first
    | assumption | apply wf_packetAct | apply actsWf_nil | apply actsWf_append | apply actsWf_cons
    | apply actsWf_flatMap | apply actsWf_map | split | apply ActWf.mk | intro _)
theorem acts_fabricActs (s : State) : ActsWf (State.fabricActs s) := by
  unfold State.fabricActs
  try dsimp only
  repeat' (with_reducible first
    | assumption
    | exact OutWf.next (wf_State_shipAgain _ _ (by assumption))
    | apply wf_execPacketForward | apply wf_execCombineWindow | apply wf_execAckTimer
    | apply acts_classAct | apply actsWf_nil | apply actsWf_append | apply actsWf_cons | apply actsWf_flatMap
    | apply actsWf_map | split | apply ActWf.mk | intro _)
theorem acts_acts (s : State) (run : Instr → State → Out) (h : ∀ i s, State.wf s = true → OutWf (run i s)) : ActsWf
    (State.acts s run) := by
  unfold State.acts
  try dsimp only
  repeat' (with_reducible first
    | assumption | apply wf_execBootStepComplete | exact acts_issueActs _ _ h | apply acts_groupActs
    | apply acts_coreActs | apply acts_unitActs | apply acts_memActs | apply acts_launchActs | apply acts_slotActs
    | apply acts_firmwareActs | apply acts_stokerActs | apply acts_fabricActs | apply actsWf_nil
    | apply actsWf_append | apply actsWf_cons | apply actsWf_flatMap | apply actsWf_map | split | apply ActWf.mk
    | intro _)
theorem wf_autoStep (run : Instr → State → Out) (s : State)
    (h0 : ∀ i t, State.wf t = true → OutWf (run i t)) (h1 : s.wf = true) : OutWf (autoStep run s) := by
  unfold autoStep
  dsimp only
  split
  · rename_i f e
    exact ((acts_acts s run h0).each f (mem_of_pick e)).keeps _ (wf_State_draw s h1)
  · exact OutWf.next h1

end Sys2Proof.Machine
end

