-- ==== Sys2Proof/Tests/Slice0.lean ====
section
/-!
SUPPORT. The modeller's own tests: words written out from the spec's encodings, terms that `wellFormed` refuses, single
steps, and a witness for the hypotheses of every statement.
-/
namespace Sys2Proof.Tests

-- One theorem at a time: each thread of the checker takes its own large stack.
set_option Elab.async false
open Sys2Proof Sys2Proof.Machine

/-! ## Decoding: each row is a length in bits, the words (the first lowest), and what they stand for. -/

def reads (l : List (Nat × Nat × Instr)) : Bool := l.all fun e => decide (decodeTableWord e.1 e.2.1 = some e.2.2)
/-- 12 R242 to R264, and the worked fragment of 12. -/
theorem test_decode_control : reads
    [(32, 0x1FE0000C, .clause 0 none none false false false),
     (32, 0xE6B0020C, .clause 0x801 (some 5) (some 3) true true true),
     (64, 0xFFFFFFFC00000015, .br 0xFFFFFFFC),
     (64, 0xC08048A15, .brc .eq 5 9 0x0C),
     (64, 0x4008C30A15, .brc .ltu 5 6 0x40),
     (64, 0x810400615, .brm .none 3 8),
     (32, 0x18000E14, .jmp 7),
     (64, 0x10020001215, .call 9 0x100),
     (32, 0x28001214, .ret 9),
     (64, 0xFFFFFFF800000C1D, .loop 6 0xFFFFFFF8),
     (32, 0x800001C, .exit),
     (32, 0x1000001C, .yield),
     (32, 0x181FFE1C, .waitf 0xFFF),
     (32, 0x2000001C, .nop),
     (64, 0xDEADBEEF2000001D, .nopTag (.lit 0xDEADBEEF)),
     (96, 0x2000001E, .nopTag .three),
     (32, 0xE24, .trap 7),
     (32, 0x8000024, .tret),
     (32, 0x10000024, .bkpt)] = true := by decide
/-- 12 R265. -/
theorem test_decode_uniform : reads
    [(32, 0xC28A44, .add 5 5 (.r1 6)),
     (32, 0xC28644, .add 3 5 (.r1 6)),
     (32, 0x8C28644, .sub 3 5 (.r1 6)),
     (32, 0x10C28644, .mull 3 5 (.r1 6)),
     (32, 0x98C28644, .mulh true 3 5 (.r1 6)),
     (32, 0x20C28644, .div false 3 5 (.r1 6)),
     (32, 0xA8C28644, .rem true 3 5 (.r1 6)),
     (32, 0x30C28644, .min false 3 5 (.r1 6)),
     (32, 0xB8C28644, .max true 3 5 (.r1 6)),
     (96, 0xFE28646, .sub 3 5 (.r3 63)),
     (96, 0x8000000002000000A0028646, .div true 3 5 (.imm 0x80000000)),
     (32, 0xC2864C, .and 3 5 (.r1 6)),
     (32, 0x8C2864C, .or 3 5 (.r1 6)),
     (32, 0x10C2864C, .xor 3 5 (.r1 6)),
     (32, 0x18C2864C, .shl 3 5 (.r1 6)),
     (32, 0x20C2864C, .shr 3 5 (.r1 6)),
     (32, 0x28C2864C, .shra 3 5 (.r1 6)),
     (32, 0x30C2864C, .rot 3 5 (.r1 6)),
     (32, 0x3802864C, .clz false 3 5),
     (96, 0x3802864E, .clz true 3 5),
     (32, 0x4002864C, .popc false 3 5)] = true := by decide
/-- 12 R267 to R274. -/
theorem test_decode_moves : reads
    [(32, 0x28654, .mov false 3 5),
     (96, 0x28656, .mov true 3 5),
     (96, 0xFFFFFFFE0200000000000656, .movImm 3 0xFFFFFFFE),
     (64, 0x8000A55, .movi 5 0),
     (64, 0xA08001255, .movi 9 10),
     (96, 0x112233445566778808000656, .moviQ 3 0x1122334455667788),
     (64, 0x7FFFFFFF10028655, .addi 3 5 0x7FFFFFFF),
     (32, 0x18C28654, .sel 3 5 (.one 6)),
     (96, 0x700018C28656, .sel 3 5 (.ext 6 7)),
     (96, 0x90200700018028656, .sel 3 5 (.extImm 9 7)),
     (64, 0x100320819055, .lea 8 3 4 (.two 3 16)),
     (96, 0xFFFFFF3F0000700020819056, .lea 8 3 4 (.three 63 0xFFFFFF 7)),
     (64, 0x231428028655, .bext 3 5 (.lit2 20 12 true)),
     (96, 0x28C28656, .bext 3 5 (.reg 6)),
     (96, 0x10000200000030028656, .bins 3 5 (.lit3 0 64 false)),
     (32, 0xC0C2865C, .setc .ltu 3 5 (.r1 6)),
     (96, 0xFFFFFFFF02000000C002065E, .setc .ltu 3 4 (.imm 0xFFFFFFFF)),
     (32, 0x28F1C, .mset 7 5),
     (32, 0x861031C, .mand 1 2 3),
     (32, 0x1061031C, .mor 1 2 3),
     (32, 0x1861031C, .mxor 1 2 3),
     (32, 0x2001031C, .mnot 1 2),
     (32, 0x2801291C, .mpop 20 2),
     (32, 0x3001291C, .mfirst 20 2),
     (32, 0x3801291C, .mmov 20 2),
     (32, 0x8C09E4, .csrrd 4 0x118),
     (32, 0x8005E4, .csrrd 2 0x100),
     (32, 0x41048BE4, .csrwr 5 0x209)] = true := by decide
/-- 13 R281 to R284; words of 13 and 23. -/
theorem test_decode_vector_integer : reads
    [(32, 0x10C28880, .vadd .w .one 4 5 (.reg 6)),
     (96, 0x380200000080018682, .vmul .b (.ext 0) 3 3 (.imm 56)),
     (32, 0x620880, .vadd .b .one 4 4 (.reg 3)),
     (32, 0x20620880, .vsub .b .one 4 4 (.reg 3)),
     (32, 0xC28880, .vadd .b .one 4 5 (.reg 6)),
     (32, 0x28C28880, .vsub .h .one 4 5 (.reg 6)),
     (32, 0x50C28880, .vadds .w .one 4 5 (.reg 6)),
     (32, 0x78C28880, .vsubs .d .one 4 5 (.reg 6)),
     (32, 0x80C28880, .vmul .b .one 4 5 (.reg 6)),
     (32, 0xA8C28880, .vmulh .h .one 4 5 (.reg 6)),
     (32, 0xD8C28880, .vmad .d .one 4 5 (.reg 6) 4),
     (96, 0x1FE7F1ACFE0F882, .vmad .h (.ext 7) 700 65 (.reg 1023) 999),
     (32, 0xF0028880, .vneg .w .one 4 5),
     (32, 0xC28888, .vand .b .one 4 5 (.reg 6)),
     (32, 0x28C28888, .vor .h .one 4 5 (.reg 6)),
     (32, 0x50C28888, .vxor .w .one 4 5 (.reg 6)),
     (32, 0x78028888, .vnot .d .one 4 5),
     (32, 0x80C28888, .vshl .b .one 4 5 (.reg 6)),
     (32, 0xA8C28888, .vshr .h .one 4 5 (.reg 6)),
     (32, 0xD0C28888, .vshra .w .one 4 5 (.reg 6)),
     (32, 0xF8028888, .vclz .d .one 4 5),
     (32, 0xC28890, .vmin .b .one 4 5 (.reg 6)),
     (32, 0x28C28890, .vmax .h .one 4 5 (.reg 6)),
     (32, 0x50C28890, .vminU .w .one 4 5 (.reg 6)),
     (32, 0x78C28890, .vmaxU .d .one 4 5 (.reg 6)),
     (32, 0x80028890, .vabs .b .one 4 5),
     (32, 0xA8028890, .vabss .h .one 4 5),
     (32, 0xD0028890, .vpopc .w .one 4 5),
     (32, 0x50A20698, .vcmp .lt .w .one 3 4 (.reg 5))] = true := by decide
/-- 13 R285, R295; words of 13, 19, 21 and 23. -/
theorem test_decode_vector_move : reads
    [(32, 0x180288A0, .vmov .d .one 4 5),
     (96, 0x8000000102C0000A100078A2, .vmovImm .w 3 700 0x80000001),
     (64, 0xFFFFFFFF300006A1, .vmovi .w 3 0xFFFFFFFF),
     (96, 0x342D261F18110A03380008A2, .vmoviQ 4 0x342D261F18110A03),
     (32, 0x480288A0, .vbcast .h .one 4 5),
     (32, 0x73E288A0, .vexts .w .one 4 5 31),
     (32, 0x80C288A0, .vpack .b .one 4 5 (.reg 6)),
     (32, 0xA0134CA0, .vunpk .b .one 38 38 false),
     (32, 0xA8134CA0, .vunpk .h .one 38 38 false),
     (32, 0xB02288A0, .vunpk .w .one 4 5 true),
     (96, 0x9000D946A0A2, .vsel .d (.ext 0) 16 13 (.reg 10) 9),
     (32, 0xC0C288A0, .vsel .b .one 4 5 (.reg 6) 4),
     (32, 0x180288E8, .vrand .d .one 4 5)] = true := by decide
/-- 13 R286 to R294; words of 11, 19 and 21. -/
theorem test_decode_vector_float : reads
    [(96, 0x80000A00C2F8C2, .vfadd .s2 (.ext 2) 700 5 (.reg 6)),
     (96, 0x3F80000002000000000514C2, .vfadd .s2 (.ext 0) 10 10 (.imm 0x3F800000)),
     (32, 0xC288C0, .vfadd .s2 .one 4 5 (.reg 6)),
     (32, 0x28C288C0, .vfsub .h4 .one 4 5 (.reg 6)),
     (32, 0x50C288C0, .vfmul .b4 .one 4 5 (.reg 6)),
     (32, 0x60C288C0, .vfma .s2 .one 4 5 (.reg 6) 4),
     (32, 0x88C288C0, .vfmin .h4 .one 4 5 (.reg 6)),
     (32, 0xB0C288C0, .vfmax .b4 .one 4 5 (.reg 6)),
     (32, 0xC00288C0, .vfabs .s2 .one 4 5),
     (32, 0xE80288C0, .vfneg .h4 .one 4 5),
     (32, 0x288C8, .vfrcp .s2 .one 4 5),
     (32, 0x280288C8, .vfrsq .h4 .one 4 5),
     (32, 0x500288C8, .vfsqrt .b4 .one 4 5),
     (32, 0x60C288C8, .vfdiv .s2 .one 4 5 (.reg 6)),
     (32, 0x880288C8, .vfexp2 .h4 .one 4 5),
     (32, 0xB00288C8, .vflog2 .b4 .one 4 5),
     (32, 0xC06288C8, .vfrnd .s2 .one 4 5 .up),
     (32, 0xE80288C8, .vfclass .h4 .one 4 5),
     (32, 0xE8A206D0, .vfcmp .unord .h4 .one 3 4 (.reg 5)),
     (32, 0x202288D8, .vfcvt .h4 .s2 .one 4 5 true .near),
     (32, 0x608288D8, .vfcvt .w .s2 .one 4 5 false .down),
     (32, 0xC288E0, .vqnt .s2 .one 4 5 (.reg 6)),
     (32, 0x24B34CE0, .vdqnt .s2 .one 38 38 (.reg 37)),
     (32, 0x48C288E0, .vdith .h4 .one 4 5 6),
     (32, 0x61924AE0, .vscale .s2 .one 37 36 12)] = true := by decide
/-- 13 R296 to R300; words of 13, 19 and 22. -/
theorem test_decode_cross_thread : reads
    [(32, 0xC28900, .xsel .b .one 4 5 (.reg 6)),
     (32, 0x28C28900, .xshf .h .one 4 5 (.reg 6)),
     (96, 0xFFFFFFFF0200000050028902, .xrot .w (.ext 0) 4 5 (.imm 0xFFFFFFFF)),
     (32, 0x78428D00, .xbfly .d .one 6 5 2),
     (32, 0x78851B00, .xbfly .d .one 13 10 4),
     (32, 0x91261900, .xred .fadd .w .one 12 12),
     (32, 0xBA00A900, .xscan .add true .d .one 20 1),
     (32, 0xD8028700, .xbal .d .one 3 5)] = true := by decide
/-- 14 R302 to R311; words of 11, 14, 19 to 23. -/
theorem test_decode_memory : reads
    [(32, 0x18420724, .ld .d (.u 3 4) (.d6 2) false),
     (32, 0xD8410D24, .ldg .d (.u 6 2) (.d6 2) true),
     (64, 0xFFFFFFF858010D25, .ldg .d (.u 6 2) (.lit 0xFFFFFFF8) false),
     (32, 0x10621320, .ld .w (.v 9 4) (.d6 3) false),
     (32, 0x30418B2C, .sts .w (.u 5 3) (.d6 2)),
     (96, 0x400400000300B972A, .sts .w (.v 11 23) (.ext 4 1)),
     (32, 0x50001120, .ldg .w (.v 8 0) (.d6 0) false),
     (32, 0x70049120, .stg .w (.v 8 9) (.d6 0)),
     (32, 0x780B0920, .stg .d (.v 4 22) (.d6 0)),
     (32, 0x80E4D28, .lds .h (.v 38 28) (.d6 0) false),
     (32, 0x80028924, .ld .b (.u 4 5) (.d6 0) true),
     (32, 0x27E28920, .st .b (.v 4 5) (.d6 63)),
     (32, 0xC8228924, .ldg .h (.u 4 5) (.d6 1) true),
     (32, 0x6FE28920, .stg .h (.v 4 5) (.d6 63)),
     (32, 0x9042892C, .lds .w (.u 4 5) (.d6 2) true),
     (32, 0x37E28928, .sts .w (.v 4 5) (.d6 63)),
     (32, 0xD862892C, .ldc .d (.u 4 5) (.d6 3) true),
     (32, 0x7FE28928, .stc .d (.v 4 5) (.d6 63)),
     (32, 0x80828934, .ldl .b (.u 4 5) (.d6 4) true),
     (32, 0x27E28930, .stl .b (.v 4 5) (.d6 63)),
     (32, 0xC8A28934, .ldx .h (.u 4 5) (.d6 5) true),
     (32, 0x6FE28930, .stx .h (.v 4 5) (.d6 63)),
     (32, 0xC28938, .stq 4 5 6),
     (96, 0x1F000018D893A, .stqCoord 0 4 27 12 31 0),
     (32, 0x802813C, .pfg (.u 5) .one),
     (32, 0x8028338, .pfgLlc (.v 5) .one),
     (96, 0x40008000A0081E013A, .pfg (.v 700) (.ext 64 2)),
     (32, 0x1002893C, .sptest (.u 4 5) .one),
     (32, 0x186CB13C, .spcastG (.u 24 25) .one .core),
     (32, 0x20228938, .spcastS (.v 4 5) .one .chip)] = true := by decide
/-- 11 R248, 14 R312; words of 11, 14, 19 and 22. -/
theorem test_decode_atomic : reads
    [(96, 0xC800000000A18F46, .atomAdd (.u 7 3 5) ⟨.d, .rel, .dev, 0, 0⟩ false),
     (96, 0xC000800048A18F46, .acas (.u 7 3 5 8) ⟨.d, .rlx, .dev, 0, 0⟩ false),
     (96, 0x9800000050C68146, .redAdd (.u 13 6) ⟨.d, .rel, .core, 0, 0⟩),
     (96, 0xC800000051420142, .redAdd (.v 4 10) ⟨.d, .rel, .dev, 0, 0⟩),
     (96, 0x800C0000080C28942, .atomAdd (.v 4 5 6) ⟨.w, .rlx, .grp, 8, 3⟩ true),
     (96, 0x89400000088C28946, .atomAnd (.u 4 5 6) ⟨.d, .acq, .core, 8, 0⟩ true),
     (96, 0x828C0000090C28942, .atomOr (.v 4 5 6) ⟨.w, .rel, .clu, 8, 3⟩ true),
     (96, 0x8BC00000098C28946, .atomXor (.u 4 5 6) ⟨.d, .ar, .die, 8, 0⟩ true),
     (96, 0x840C00000A0C28942, .atomMin (.v 4 5 6) ⟨.w, .rlx, .dev, 8, 3⟩ true),
     (96, 0x8D4000000A8C28946, .atomMax (.u 4 5 6) ⟨.d, .acq, .fab, 8, 0⟩ true),
     (96, 0x808C00000B0C28942, .atomXchg (.v 4 5 6) ⟨.w, .rel, .grp, 8, 3⟩ true),
     (96, 0x89C000000B8C28946, .atomIncwrap (.u 4 5 6) ⟨.d, .ar, .core, 8, 0⟩ true),
     (96, 0x41C0000040C28942, .atomFadd (.v 4 5 6) ⟨.w, .rlx, .dev, 0, 7⟩ false),
     (96, 0xC07E700AC8C2F942, .acas (.v 700 5 6 999) ⟨.d, .rlx, .dev, 0, 1⟩ true),
     (96, 0x4000000058C28146, .redFadd (.u 5 6) ⟨.w, .rlx, .dev, 0, 0⟩),
     (96, 0xC880000060C28142, .redMin (.v 5 6) ⟨.d, .rel, .dev, 0, 2⟩),
     (96, 0x4000000068C28146, .redMax (.u 5 6) ⟨.w, .rlx, .dev, 0, 0⟩)] = true := by decide
/-- 14 R315 to R327; words of 19, 20, 22 and 23. -/
theorem test_decode_synchronise : reads
    [(32, 0x800B48, .fence .dev 5),
     (32, 0x8001F4C, .fwait 15),
     (32, 0x1020014C, .phase .core),
     (32, 0x18A00148, .acq .fab),
     (32, 0x2040014C, .rel .clu),
     (32, 0x2B2B54, .bararv .core 21 22 .one),
     (32, 0x8828954, .bararvDrop .dev 4 5 .one),
     (96, 0x100000000010628956, .bararvJoin .die 4 5 (.ext 16 0)),
     (32, 0x18028954, .bararvFz .grp 4 5 .one),
     (32, 0x222C0154, .barexp 24 17 .one),
     (32, 0x282B2B54, .barwait false .core 21 22 .one),
     (32, 0x288C0D54, .barwait false .dev 6 24 .one),
     (32, 0x29428954, .barwait true .clu 4 5 .one),
     (32, 0x30828954, .bartest .dev 4 5 .one),
     (32, 0x1C68F5C, .cntwait 7 13 14 .one),
     (32, 0x1868F5C, .cntwait 7 13 12 .one),
     (32, 0x8C2895C, .cnttest 4 5 6 .one),
     (32, 0x80028960, .tspawn true .one 4 5),
     (32, 0x8028964, .tclaim false 4 5 .one),
     (32, 0x90028964, .tclaimClu true 4 5 .one),
     (32, 0x98000964, .tclaimw true 4 false),
     (32, 0x20000164, .tdone false),
     (96, 0x20000166, .tdone true),
     (96, 0xFFFFFF000000000028028166, .launch 5 (.ext 0xFFFFFF00 0)),
     (32, 0x30C28164, .evset 5 6 false)] = true := by decide
/-- 15 R329 to R345; words of 15 and 20. -/
theorem test_decode_matrix : reads
    [(160, 0x20201000000000902000C000001400000187, .mma ⟨.sub 20, .lit 0x902000, .lit 0x10000000, .lit 0x2020⟩),
     (32, 0x38C, .mzero 1 false),
     (32, 0x8A20D8C, .mdrain false 6 4 5 .one),
     (32, 0x9240F8C, .mdrain false 7 8 9 .one),
     (32, 0x10A2018C, .mloadc 4 5 .one),
     (32, 0x98000D8C, .mstat true 6 false),
     (32, 0x18200F8C, .mstatIdle false 7 false),
     (32, 0x2000018C, .mfreeze false),
     (96, 0x2000018E, .mfreeze true),
     (32, 0x2800018C, .mthaw false)] = true := by decide
/-- 16 R355 to R372, 18 R412, R413; words of 16, 18, 20 to 23. -/
theorem test_decode_engines : reads
    [(32, 0x481C4, .kick 9),
     (32, 0xD01C4, .kick 26),
     (32, 0x80001C4, .equiesce),
     (160, 0x20A806000000C000001203F02000002C15CF, .gather 10 (.bar 24) false ⟨.lit 0x3F02000, .sub 18, .lit 0x6000000, .lit 0x20A8⟩),
     (160, 0x10000002000000000000000000000008C289CF, .scatter 4 (.cnt 5) true ⟨.lit 0, .lit 0, .lit 0x2000000, .lit 0x100000⟩),
     (160, 0x100000020000000001000300100000100389CF, .scatadd 4 (.tok 7) false ⟨.lit 0x100000, .lit 0x10003, .lit 0x2000000, .lit 0x100000⟩),
     (160, 0x100060000000000002C0000003F180181CF, .mcst 0 (.tok 3) ⟨.lit 0x3F, .lit 0x2C, .lit 0x6000000, .lit 0x100⟩),
     (160, 0x2C0A000030080051A9D3, .ship 20 3 2 1 ⟨.lit 0x3008, .lit 0x2C0A, .lit 0, .lit 0⟩),
     (160, 0x180170581500006414006129D3, .ship 20 2 4 1 ⟨.lit 0x6414, .lit 0x1705815, .lit 0x18, .lit 0⟩),
     (32, 0x1DC, .sret),
     (32, 0x80005DC, .waittok 2),
     (32, 0x80007DC, .waittok 3),
     (32, 0x10018DDC, .toktest 6 3),
     (32, 0x10010DDC, .toktest 6 2),
     (32, 0xA201EC, .tlbinv 4 (.reg 5)),
     (96, 0x100002000000000201EE, .tlbinv 4 (.imm 4096)),
     (32, 0x80001EC, .l1wb),
     (32, 0x100001EC, .l1inv),
     (32, 0x180247EC, .pmark 0x123),
     (32, 0x20000BEC, .snaptrig 5)] = true := by decide
/-- Encodings that stand for nothing: reserved majors, minors, U bits, lengths and fields (11 R250). -/
theorem test_decode_refused :
    ([(32, 0), (32, 0xFFFFFFFF), (32, 0x0800001D), (32, 0x3000001C), (32, 0x18008014), (32, 0x80000044),
      (32, 0x0800009C), (32, 0x180000C0), (32, 0x0000111C), (96, 0xFC00000000A18F46), (64, 0x100000A55 + 0x8000),
      (64, 0x0000000208048A15), (32, 0x0000058C), (32, 0x2000021C)].all fun e => decodeTableWord e.1 e.2 = none) = true := by
  decide

/-! ## Terms that `wellFormed` refuses, one for each check. -/

theorem test_wf_offsets : ([Instr.br 2, .brc .eq 1 2 1, .brm .any 1 3, .call 1 6, .loop 1 1].all fun i =>
    !wellFormed i) = true := by decide
theorem test_wf_bitFields : ([Instr.bext 1 2 (.lit2 0 0 false), .bext 1 2 (.lit2 0 65 true), .bext 1 2 (.lit3 63 2 false),
    .bins 1 2 (.lit2 0 1 true), .bins 1 2 (.lit3 1 64 false)].all fun i => !wellFormed i) = true := by decide
theorem test_wf_systemRegisters : ([Instr.csrrd 1 0x103, .csrrd 1 0x20C, .csrrd 1 0x1100, .csrwr 1 0x208,
    .csrwr 1 0x100].all fun i => !wellFormed i) = true := by decide
theorem test_wf_vectorRegisters : ([Instr.vadd .b .one 64 0 (.reg 0), .vadd .b .one 0 64 (.reg 0),
    .vadd .b .one 0 0 (.reg 64), .vadd .b .one 0 0 (.imm 1), .vmad .b .one 1 2 (.reg 3) 2, .vsel .b .one 1 64 (.reg 3) 1,
    .vneg .b .one 64 0, .vcmp .eq .b .one 1 64 (.reg 2), .vcmp .eq .b .one 1 2 (.imm 2), .vbcast .b .one 64 1,
    .vfma .s2 .one 1 2 (.reg 3) 2, .vfrcp .s2 .one 64 1, .vdith .s2 .one 64 1 1, .vrand .b .one 64 1,
    .xshf .b .one 64 1 (.reg 1), .xshf .b .one 1 1 (.imm 1), .xbal .b .one 1 64, .stq 64 1 1, .tspawn false .one 64 1,
    .vmoviQ 64 0].all fun i => !wellFormed i) = true := by decide
theorem test_wf_vectorValues : ([Instr.vmovi .b 1 0x100, .vmovi .h 1 0xFFFFFFFF, .vexts .b .one 1 2 8,
    .vpack .d .one 1 2 (.reg 3), .vunpk .d .one 1 2 false, .vfadd .h4 (.ext 0) 1 2 (.imm 0x10000),
    .vfcmp .eq .b4 (.ext 0) 1 2 (.imm 0x10000), .vfcvt .s2 .s2 .one 1 2 false .near, .vfcvt .h4 .s2 .one 1 2 false .up,
    .vfcvt .w .s2 .one 1 2 true .near, .xbfly .d .one 1 2 5, .xred .fadd .d .one 1 2, .xscan .fmin true .b .one 1 2].all
      fun i => !wellFormed i) = true := by decide
theorem test_wf_memory : ([Instr.ld .b (.u 1 2) (.ext 0 1) false, .st .b (.v 64 1) (.d6 0), .stx .d (.v 1 64) (.lit 0),
    .pfg (.u 1) (.ext 0 1), .pfgLlc (.v 64) .one, .sptest (.u 1 2) (.ext 1), .spcastG (.v 64 1) .one .core].all fun i =>
    !wellFormed i) = true := by decide
theorem test_wf_atomics : ([Instr.atomAdd (.u 1 2 3) ⟨.w, .rlx, .dev, 0, 1⟩ false,
    .acas (.u 1 2 3 4) ⟨.w, .rlx, .dev, 0, 1⟩ false, .atomFadd (.u 1 2 3) ⟨.d, .rlx, .dev, 0, 0⟩ false,
    .redAdd (.u 1 2) ⟨.w, .acq, .dev, 0, 0⟩, .redMin (.u 1 2) ⟨.w, .ar, .dev, 0, 0⟩, .redMax (.u 1 2) ⟨.w, .rlx, .dev, 0, 1⟩,
    .redFadd (.u 1 2) ⟨.d, .rlx, .dev, 0, 0⟩].all fun i => !wellFormed i) = true := by decide
theorem test_wf_uniformMask : ([Instr.bararv .dev 1 2 (.ext 0 1), .barexp 1 2 (.ext 0 1), .cntwait 1 2 3 (.ext 0 1),
    .tclaim false 1 2 (.ext 0 1), .launch 1 (.ext 0 1), .mdrain false 1 2 3 (.ext 0 1), .mloadc 1 2 (.ext 0 1)].all fun i =>
    !wellFormed i) = true := by decide
/-- Reserved bits and values of literal parameter words (15 R332, 16 R358, R368). -/
theorem test_wf_parameters :
    let p (a b c d : Nat) : PBlock := ⟨.lit (BitVec.ofNat 30 a), .lit (BitVec.ofNat 30 b), .lit (BitVec.ofNat 30 c),
      .lit (BitVec.ofNat 30 d)⟩
    let l := 1 <<< 25
    ([Instr.mma (p 0 (3 <<< 23) 0 0), .mma (p 0 (1 <<< 26) 0 0), .mma (p 0 0 (1 <<< 16) 0), .mma (p 0 0 0 (3 <<< 20)),
      .mma (p 0 0 0 (1 <<< 22)), .gather 1 (.tok 1) false (p 0 (1 <<< 18) l 0), .gather 1 (.tok 1) false (p 0 (1 <<< 16) l 0),
      .scatadd 1 (.tok 1) false (p 0 (3 <<< 16) l 0), .scatadd 1 (.tok 1) false (p 0 (1 <<< 16) l 0),
      .scatter 1 (.tok 1) false (p 0 (1 <<< 19) l 0), .gather 1 (.tok 1) false (p 0 0 0 0),
      .gather 1 (.tok 1) false (p 0 0 (l + 1 <<< 27) 0), .gather 1 (.tok 1) false (p 0 0 l (1 <<< 21)),
      .mcst 1 (.bar 1) (p 0 0 l 0), .mcst 1 (.tok 1) (p 64 0 l 0), .mcst 1 (.tok 1) (p 0 4096 l 0),
      .mcst 1 (.tok 1) (p 0 0 0 0), .ship 1 1 0 0 (p (1 <<< 10) 0 0 0), .ship 1 1 0 1 (p (1 <<< 20) 0 0 0),
      .ship 1 1 0 0 (p 0 1 0 0), .ship 1 1 1 0 (p 0 (1 <<< 10) 0 0), .ship 1 1 2 0 (p 0 (1 <<< 20) 0 0),
      .ship 1 1 3 0 (p 0 0 1 0), .ship 1 1 4 0 (p 0 0 (1 <<< 10) 0), .ship 1 1 5 0 (p 0 0 (1 <<< 20) 0),
      .ship 1 1 0 2 (p 0 0 0 1), .ship 1 1 0 3 (p 0 0 0 (1 <<< 10)), .ship 1 1 6 4 (p 0 0 0 (1 <<< 20))].all fun i =>
      !wellFormed i) = true := by decide
/-- A packet's fields that its payload fixes (17 R382), and a flit's length (17 R384). -/
theorem test_wf_fabric : ([Instr.read { len := 1 }, .data { cls := 3 }, .mcast { data := List.replicate 257 0, len := 257 },
    .flitReceive 12 (List.replicate 72 0), .flitReceive 0 []].all fun i => !wellFormed i) = true := by decide +kernel

/-! ## States for the witnesses. -/

/-- A group of context 0 on core 0, with 16 v registers and five active threads; the first 2 MiB of offsets are mapped. -/
def base : State :=
  let s := State.reset.withFirst
  s.setG { s.g with nv := 16, m := [(0, 0x8000F00F), (1, 0xFFFF00FF)], gts := 3, saveBase := 0 }
/-- The same, with a result for s9 and v9 outstanding under flag 2. -/
def busy : State :=
  base.setG { base.g with
    f := [(2, 1)], pend := [{ id := 1, flag := some 2, addr := 0, ipc := 0x1000, writes := [(.s 9, none), (.v 9 3, none)] }] }
/-- The first device with some of the group's registers set. -/
def regs (l : List (SReg × W64)) : State := base.setG (l.foldl (fun g e => g.sSet e.1 e.2) base.g)
/-- A device whose first group has v registers set the same in every thread. -/
def vregs (l : List (VReg × W64)) : State :=
  base.setG (l.foldl (fun g e => (List.range 32).foldl (fun g t => g.vSet e.1 t e.2) g) base.g)

theorem base_calm : base.Calm := by
  unfold State.Calm State.Quiet State.Alone Group.OnCore
  decide +kernel
theorem base_mayTrap : base.MayTrap := by
  unfold State.MayTrap State.Settled Group.OnCore
  decide +kernel
theorem has_of {g : Group} {l : List VReg} (h : (l.all fun r => decide (r.val < g.nv)) = true) : g.Has l :=
  fun r hr => of_decide_eq_true (List.all_eq_true.mp h r hr)
theorem readable_of {s : State} {l : List Nat} (h : (s.g.pend.all fun p => !p.touches l) = true) : s.Readable l :=
  fun p hp => by simpa using List.all_eq_true.mp h p hp
theorem mayVector_of {s : State} {m : MReg} {vs : List VReg} {l : List Nat}
    (h : ((vs.all fun r => decide (r.val < s.g.nv)) && (s.g.pend.all fun p => !p.touches (usesV vs ++ l)) &&
      decide (s.g.govern m ≠ 0)) = true) : s.MayVector m vs l := by
  simp only [Bool.and_eq_true, decide_eq_true_eq] at h
  exact ⟨has_of h.1.1, readable_of h.1.2, h.2⟩
/-- An access check answers a value, or a failure. -/
def isOk {α : Type} [DecidableEq α] (x : Except Fail α) (a : α) : Bool :=
  match x with
  | .ok b => decide (b = a)
  | .error _ => false
def isErr {α : Type} (x : Except Fail α) (e : Fail) : Bool :=
  match x with
  | .ok _ => false
  | .error f => decide (f = e)
theorem ok_of {α : Type} [DecidableEq α] {x : Except Fail α} {a : α} (h : isOk x a = true) : x = .ok a := by
  cases x with
  | error e => exact absurd h (by simp [isOk])
  | ok b => rw [of_decide_eq_true (show decide (b = a) = true from h)]
theorem err_of {α : Type} {x : Except Fail α} {e : Fail} (h : isErr x e = true) : x = .error e := by
  cases x with
  | ok b => exact absurd h (by simp [isErr])
  | error f => rw [of_decide_eq_true (show decide (f = e) = true from h)]
theorem span_ge {n k j : Nat} (h : j ∈ span k n) : k ≤ j := by
  induction n generalizing k with
  | zero => cases h
  | succ n ih =>
    cases h with
    | head => exact Nat.le_refl _
    | tail _ h => exact Nat.le_of_succ_le (ih (k := k + 1) h)
theorem span_nodup (k n : Nat) : (span k n).Nodup := by
  induction n generalizing k with
  | zero => exact List.nodup_nil
  | succ n ih => exact List.nodup_cons.mpr ⟨fun h => absurd (span_ge (n := n) (k := k + 1) h) (by omega), ih (k + 1)⟩
theorem clean_of {s : State} (h : s.poison = []) (k : Nat) : s.psn k = false := by
  unfold State.psn
  rw [h]
  rfl

/-! ## A witness for the hypotheses of every statement. -/

/-- The statements about s and m registers: a register that a pending result goes to is not read. -/
theorem witness_readable : busy.Readable ([useS 1, useS 2] ++ ucUses (.r3 63)) ∧
    busy.Readable [useS 0, useS 1, useS 2, useS 3] ∧ ¬ busy.Readable [useS 9] := by
  unfold State.Readable
  decide +kernel
/-- DivisionCorners: each of the three cases, signed. -/
theorem witness_DivisionCorners :
    let s := regs [(1, 0x8000000000000000), (2, 0xFFFFFFFFFFFFFFFF), (3, 7)]
    s.Readable ([useS 5, useS 1] ++ ucUses (.r1 2)) ∧ ucVal s.g false (.r1 4) = 0 ∧
      ((s.g.sGet 1).toInt = -2 ^ 63 ∧ (ucVal s.g false (.r1 2)).toInt = -1) ∧ (ucVal s.g false (.r1 3)).toInt = 7 := by
  unfold State.Readable
  decide +kernel
/-- BitFields: literals at both ends, and a register that asks for more bits than there are. -/
theorem witness_BitFields :
    let s := regs [(3, 0x3FFF)]
    bitForm s.g (.lit2 63 1 true) = (63, 1, true, 2, []) ∧ wfBit (.lit2 63 1 true) false = true ∧
      bitForm s.g (.lit3 0 64 false) = (0, 64, false, 3, []) ∧ wfBit (.lit3 0 64 false) false = true ∧
      bitForm s.g (.reg 3) = (63, 1, true, 3, [useS 3]) ∧ wfBit (.reg 3) false = true := by decide +kernel
/-- Housekeeping: no flag named is held, or one is. -/
theorem witness_Housekeeping :
    (∀ j, j < 12 → (2#12).getLsbD j = true → busy.g.fGet j = 0) ∧ busy.Settled ∧
      (∃ j, j < 12 ∧ (4#12).getLsbD j = true ∧ busy.g.writebackAll.fGet j ≠ 0) ∧
      ∃ j, j < 12 ∧ (4#12).getLsbD j = true ∧ busy.g.fGet j ≠ 0 :=
  ⟨by decide +kernel, by unfold State.Settled; decide +kernel, ⟨2, by decide +kernel⟩, 2, by decide +kernel⟩

/-- A device whose first words are given, from the address 0x1000. -/
def code (ws : List Nat) : State :=
  base.writeClean (cellsOf (span (keyPhys 0x201000) (4 * ws.length)) (ws.flatMap (leBytes 4)))
theorem code_lands : (code [0x1FE0000C]).LandsOn 0x1000 :=
  ⟨by decide +kernel, by decide +kernel, 0x1FE0000C, by rfl, by decide +kernel⟩
/-- Transfers: the target is a header; the count of LOOP is at either side of its end. -/
theorem witness_Transfers_go :
    (code [0x1FE0000C]).LandsOn ((code [0x1FE0000C]).g.pc + (0 : W32).signExtend 64) ∧
      (code [0x1FE0000C]).Readable [useS 1, useS 2] ∧ condOn .eq 0 0 = true ∧ condOn .ne 0 0 = false ∧
      mcondOn .any ((code [0x1FE0000C]).g.mGet 0) (code [0x1FE0000C]).g.present = true ∧
      mcondOn .all ((code [0x1FE0000C]).g.mGet 0) (code [0x1FE0000C]).g.present = false ∧
      1 < ((regs [(1, 2)]).g.sGet 1).toNat ∧ ((regs [(1, 1)]).g.sGet 1).toNat ≤ 1 :=
  ⟨code_lands, by unfold State.Readable; decide +kernel, by decide +kernel, by decide +kernel, by decide +kernel,
    by decide +kernel, by decide +kernel, by decide +kernel⟩
/-- Transfers that fail: an unaligned target, an offset at 2^63, a word that is no header, and a page that is not mapped. -/
theorem witness_Transfers_trap :
    base.MayTrap ∧ base.Readable [useS 1] ∧ (base.g.pc + (0xFFFFFFFF : W32).signExtend 64).toNat % 4 ≠ 0 ∧
      2 ^ 63 ≤ ((regs [(1, 0x8000000000000000)]).g.sGet 1).toNat ∧
      (∃ w, fetchWord base (base.g.pc + (0 : W32).signExtend 64) = .word w ∧ headerFlags w = none) ∧
      ∃ e, fetchWord base (base.g.pc + (0x1FF000 : W32).signExtend 64) = .fail e :=
  ⟨base_mayTrap, by unfold State.Readable; decide +kernel, by decide +kernel, by decide +kernel,
    ⟨0, by rfl, by decide +kernel⟩, _, rfl⟩

/-! ## Single steps: the spec's own worked values. -/

/-- What holds of the next state. -/
def after (o : Out) (f : State → Bool) : Bool :=
  match o with
  | .next t => f t
  | _ => false
/-- The same after several. -/
def afters (s : State) (l : List (State → Out)) (f : State → Bool) : Bool :=
  match l with
  | [] => f s
  | x :: r => after (x s) fun t => afters t r f
/-- 12 R266: −7 by 2. -/
theorem test_division :
    let s := regs [(1, 0xFFFFFFFFFFFFFFF9), (2, 2)]
    after (exec (.div false 5 1 (.r1 2)) s) (fun t => t.g.sGet 5 == 0xFFFFFFFFFFFFFFFD) = true ∧
      after (exec (.rem false 5 1 (.r1 2)) s) (fun t => t.g.sGet 5 == 0xFFFFFFFFFFFFFFFF) = true ∧
      after (exec (.div true 5 1 (.r1 2)) s) (fun t => t.g.sGet 5 == 0x7FFFFFFFFFFFFFFC) = true := by decide +kernel
/-- The part of 01's worked decoding: pairs 2, 9, 40 and 71 of die 1 are disabled. -/
def workedPart : State :=
  let f := base.sys.fuse
  { base with sys := { base.sys with fuse := { f with
    pairs := [f.pairs.getD 0 0, 4 + 0x200 + 1 <<< 40 + 1 <<< 71, f.pairs.getD 2 0, f.pairs.getD 3 0] } } }
/-- 01, worked decoding: logical core 163, the clusters of die 1, and CSRRD of the core map's word. -/
theorem test_enumeration :
    let s := workedPart
    let f := s.sys.fuse
    f.dieOf 163 = 1 ∧ f.pcore 163 = 13 ∧ f.clusterOf 163 = 21 ∧ enumByte s 0x095 = 8 ∧ enumByte s 0x094 = 6 ∧
      enumByte s 0x096 = 6 ∧ enumByte s 0x3F6 = 0x0D ∧ enumByte s 0x3F7 = 0x01 ∧ enumByte s 0x050 = 0xFB ∧
      after (exec (.csrrd 5 0x107E) s) (fun t => (t.g.sGet 5).toNat / 2 ^ 48 == 0x010D) = true := by decide +kernel
/-- 03 R50's worked address: 6 live cores, a carve-out of 128 KiB each. -/
theorem test_shared_interleave :
    let s : State := { workedPart with cores := [(152, { (workedPart.core 152) with carve := 2 })] }
    spaceKey s { s.who with core := 152, clus := 20 } 0 .cluster 0x1234 = keyCore 152 0xA0334 := by decide +kernel
/-- 07 R148's vectors, and those of 20. -/
theorem test_dither : dither 0 0 0 = 0 ∧ dither 0 1 0 = -3 ∧ dither 0x5A17 0 0 = -3 ∧ dither 0x5A17 1 0 = 4 := by decide +kernel
/-- 13, one element each way: the frame at 0x100, and v7 of thread 0. -/
def oneElement : State :=
  let s := base.setG ((base.g.sSet 12 0x100).vSet 7 0 0x3FA400003F400000)
  s.writeClean (cellsOf (span (keyCore 0 0x100) 32) ([0, 0x25, 0, 0, 0x00010001, 0, 0x140, 0].flatMap (leBytes 4)) ++
    [(keyCore 0 0x140, 0x7C)])
/-- 13, one element each way: VSCALE, VQNT, VDQNT, and VDITH. -/
theorem test_one_element :
    afters oneElement [exec (.vscale .s2 .one 9 8 12), exec (.vqnt .s2 .one 10 7 (.reg 9)),
      exec (.vdqnt .s2 .one 11 10 (.reg 9)), exec (.vdith .s2 .one 12 8 12), exec (.vqnt .s2 .one 13 11 (.reg 9))] (fun t =>
        t.g.vGet 9 0 == 0x0000DA7C00000A7C && t.g.vGet 10 0 == 0x0000000A00000006 && t.g.vGet 11 0 == 0x3FA300003F400000 &&
          t.g.vGet 12 0 == 0xFFFFFFFD00000000 && t.g.vGet 13 0 == 0x0000000A00000006) = true := by decide +kernel
/-- 15, one MMA on four rows: element (0, 0). And the sums of 20 for rows 0 and 1. -/
theorem test_accumulate :
    portValue 10 0 true = 160 ∧ portValue 6 (-3) true = 99 ∧ crt 975 975 975 = 975 ∧
      accUpdate 0 0x3F000000 975 124 127 1 = 0x4101E000 ∧ accUpdate 1 0 (-320) 124 127 1 = 0xC0200000 ∧
      accUpdate 1 0 (-256) 126 127 1 = 0xC1000000 := by decide +kernel
/-- 10 R216, R219: TRAP enters the handler; the saved pc is that of the next instruction, and m0 the present threads. -/
theorem test_trap :
    after (exec (.trap 7) base) (fun t => t.g.handler && t.g.trapPc == base.g.pc + 4 && t.g.trapInfo == 7 && t.g.mGet 0 == base.g.present &&
      t.g.trapMask.toNat % 2 ^ 32 == 0x8000F00F) = true := by decide +kernel
/-- 17 R394, R395, 18 R403: registers as the host reads them: BOOT_STAT, HIF_ID, MBOX_STAT after a discarded door, and
the enumeration bytes of clusters 20 and 21 through BAR2. -/
theorem test_registers :
    (base.bar0 0x008).toNat % 16 = 3 ∧ State.reset.bar0 0x008 = 0 ∧ (base.bar0 0).toNat % 65536 = 1 ∧
      after (exec (.registerWrite 0x140 1) State.reset) (fun t => t.bar0 0x148 == 2) = true ∧
      after (exec (.errcnt 3 9) base) (fun t => t.bar0 0x2008 == 0x900000000) = true ∧
      (workedPart.bar2 0x90).toNat / 2 ^ 32 % 65536 = 0x0806 ∧
      after (exec (.readySet 1 0x80000001) base) (fun t => t.bar2 0x1000 == 0x8000000100000000) = true := by decide +kernel
/-- FIPS 180-4, the example of three bytes: the first and the last four bytes of its digest. -/
theorem test_sha256 :
    (sha256 [0x61, 0x62, 0x63]).take 4 = [0xBA, 0x78, 0x16, 0xBF] ∧
      (sha256 [0x61, 0x62, 0x63]).drop 28 = [0xF2, 0x00, 0x15, 0xAD] := by decide +kernel
/-- ExceptionEntry and ExceptionReturn: outside a handler, and in one. -/
theorem witness_Exceptions :
    let h := (code [0x1FE0000C]).setG { (code [0x1FE0000C]).g with handler := true, trapHdr := 0x1000 }
    (base.MayTrap ∧ base.g.ufwd = false) ∧
      (h.g.OnCore ∧ h.g.handler = true ∧ h.g.pend = [] ∧ h.Settled) ∧
      h.g.trapHdr.toNat % 4 = 0 ∧ h.g.trapHdr.toNat < 2 ^ 63 ∧ fetchWord h h.g.trapHdr = .word 0x1FE0000C ∧
      headerFlags 0x1FE0000C = some (none, none) :=
  ⟨⟨base_mayTrap, by decide +kernel⟩, by unfold State.Settled Group.OnCore; decide +kernel, by decide +kernel, by decide +kernel, by rfl,
    by decide +kernel⟩
/-- The vector statements: five active threads, the highest register there is, and a result pending for another. -/
theorem witness_vector : busy.MayVector (vMask .one) (15 :: 0 :: 1 :: vcRegs (.reg 2)) (xcUses (.reg 3)) ∧
    busy.MayVector (vMask (.ext 1)) [15, 0, 1] [useS 0] ∧ busy.MayVector 1 [15] [] ∧ busy.g.OnCore ∧
    (∀ th, th < 32 → (busy.g.govern 0).getLsbD th = true →
      ∀ e, e < 64 / ftw .s2 → sub_ (ftw .s2) (fcVal busy.g .s2 th (.reg 2)) e / 256 % 8 ≤ 3) :=
  ⟨mayVector_of (by decide +kernel), mayVector_of (by decide +kernel), mayVector_of (by decide +kernel),
    by unfold Group.OnCore; decide +kernel, by decide +kernel⟩
theorem witness_CrossThread : 2 ^ (4 : Fin 8).val < 32 * (64 / zw .d) ∧ 2 ^ (7 : Fin 8).val < 32 * (64 / zw .b) := by decide
/-- A device with a frame descriptor at offset 64 of core 0's scratchpad, with rows by index and dither. -/
def framed : State :=
  let s := base.writeClean (cellsOf (span (keyCore 0 64) 32)
    ([0x12, 0x116, 8, 77, 3, 0x1000, 0x2000, 0x43].flatMap (leBytes 4)))
  s.setG (s.g.sSet 5 64)
theorem base_poison : base.poison = [] := by decide +kernel
theorem framed_poison : framed.poison = [] := by decide +kernel
theorem base_clean (k : Nat) : base.psn k = false := clean_of base_poison k
theorem framed_clean (k : Nat) : framed.psn k = false := clean_of framed_poison k
/-- FrameDescriptors: every active thread looks at row 0 and column 0. -/
theorem witness_FrameDescriptors :
    (framed.Settled ∧ ∀ k, framed.psn k = false) ∧
    let s := framed
    let fr := frameAt s 0 64
    (s.g.unit = .core 0 0 ∧ (s.core 0).bankQ = [] ∧ s.g.sGet 5 = 64 ∧ frIdx fr = true ∧ frDith fr = true ∧
      (∀ th, th < 32 → (s.g.govern (vMask .one)).getLsbD th = true →
        frameRowBad (spaceSize s s.who .core) fr ((s.g.vGet 2 th).toNat % 2 ^ 32) = false) ∧
      ∀ th, th < 32 → (s.g.govern (vMask .one)).getLsbD th = true → ∀ e, e < 64 / ftw .s2 →
        frameScaleBad (spaceSize s s.who .core) fr ((s.g.vGet 2 th).toNat % 2 ^ 32)
          ((s.g.vGet 2 th).toNat / 2 ^ 32 + e) = false) ∧
      s.MayVector (vMask .one) [1, 2] [useS 5] ∧ frameHead s.g.pc (spaceSize s s.who .core) 64 0 fr = .ok () :=
  ⟨⟨by unfold State.Settled; decide +kernel, framed_clean⟩, by decide +kernel, mayVector_of (by decide +kernel), ok_of (by decide +kernel)⟩
/-- VectorEdges: no thread is active, or a register is past the group's last. -/
theorem witness_VectorEdges :
    let s := base.setG { base.g with m := [] }
    (s.g.govern (vMask .one) = 0 ∧ s.g.govern 1 = 0 ∧ s.g.Has [15, 0, 1]) ∧ base.MayTrap ∧ base.g.nv ≤ (16 : VReg).val ∧
      base.g.nv ≤ (1023 : VReg).val :=
  ⟨⟨by decide +kernel, by decide +kernel, has_of (by decide +kernel)⟩, base_mayTrap, by decide +kernel, by decide +kernel⟩
/-- CsrReads and CsrWrites: a core's group in and out of a handler, with the numbers at the ends of their ranges. -/
theorem witness_Csr :
    let h := base.setG { base.g with handler := true }
    (base.g.OnCore ∧ base.Readable [useS 1] ∧ h.g.OnCore ∧ h.Readable [useS 1] ∧ h.g.handler = true ∧ base.MayTrap) ∧
      (base.g.localNum < 32 ∧ base.g.onCore < 64) ∧ base.g.lvlIdx.getD 6 0 < 65536 ∧ base.g.lvlCnt.getD 7 0 < 65536 ∧
      base.sys.fuse.clusterOf (unitCoreN base.g.unit) < 128 := by
  unfold State.MayTrap State.Settled State.Readable Group.OnCore
  decide +kernel

/-- A device where every space has room: core 0 gives two parts of its scratchpad to the cluster, and the group has a
lane-private window; s5 and v2 hold 16. -/
def roomy : State :=
  let s : State := { base with cores := tblSet {} base.cores 0 { base.core 0 with carve := 2 } }
  let g : Group := { (base.g.sSet 5 16) with W := 64 }
  s.setG ((List.range 32).foldl (fun g t => g.vSet 2 t 16) g)
theorem roomy_quiet : roomy.Quiet ∧ roomy.g.OnCore ∧ roomy.MayTrap ∧ roomy.Alone := by
  unfold State.Quiet State.MayTrap State.Settled State.Alone Group.OnCore
  decide +kernel
theorem roomy_room (f : Bool) : roomy.g.Room f := by
  intro j h
  have h2 : (∀ b, roomy.g.selFlag b = none) := by decide +kernel
  rw [h2 f] at h
  cases h
/-- LocalLoads and LocalStores: the last aligned place of every space, for one address and for a thread each. -/
theorem witness_Local :
    (roomy.MayAccess (.u 1 5) 0 ∧ roomy.MayAccess (.v 1 2) 0) ∧ (∀ k, roomy.psn k = false) ∧
      ∀ o ∈ [MOpnd.u 1 5, .v 1 2], ∀ e ∈ [(Space.core, (655336 : W32)), (.cluster, 1048552), (.lane, 40), (.chip, 1048552)],
        ∀ t ∈ moThreads roomy.g (dispMask (.lit e.2)) o,
          (moBase roomy.g t o + dispVal .d (.lit e.2)).toNat + zBytes .d = spaceSize roomy roomy.who e.1 ∧
            (moBase roomy.g t o + dispVal .d (.lit e.2)).toNat % zBytes .d = 0 :=
  ⟨⟨readable_of (by decide +kernel), mayVector_of (by decide +kernel)⟩, clean_of (by decide +kernel), by decide +kernel⟩
/-- LocalStores, second part: one store waits at a port. -/
theorem witness_drain :
    let a : BankAcc := { keys := span (keyCore 0 16) 8, data := 1, gid := 1 }
    (({ roomy with cores := tblSet {} roomy.cores 0 { roomy.core 0 with bankQ := [a] } } : State).core 0).bankQ = [a] ∧
      a.keys.Nodup ∧ a.keys.length ≤ 8 := by decide +kernel
/-- GenericLoads and GenericStores: a global address, and one of each window; a private byte is among the loaded. -/
theorem witness_Generic :
    let s := roomy.setG { (roomy.g.sSet 6 0x2000) with priv := [(0x202010, some (7, false))] }
    s.g.unit = .core 0 0 ∧ s.FreshL1 0 ∧ s.MayAccess (.u 1 6) 0 ∧
      globalAcc s s.who .load (s.g.sGet 6 + dispVal .d (.d6 2)) 8 = .ok ⟨true, span 0x202010 8⟩ ∧
      genericAcc s s.who 0 .store (s.g.sGet 6 + dispVal .d (.d6 2)) 8 8 = .ok ⟨true, span 0x202010 8⟩ ∧
      genericAcc s s.who 0 .load 0xE000000000000010 8 8 = .ok ⟨false, span (keyCore 0 16) 8⟩ ∧
      genericAcc s s.who 0 .store 0xC000000000000010 8 8 = .ok ⟨false, span (keyChip 16) 8⟩ ∧
      (∀ k ∈ span 0x202010 8, isPeerKey k = false ∧ s.psn k = false) ∧ s.g.own 0x202010 = some (7, false) ∧
      s.seen 0x202010 = 7 :=
  ⟨by decide +kernel, by unfold State.FreshL1; decide +kernel, readable_of (by decide +kernel), ok_of (by decide +kernel),
    ok_of (by decide +kernel), ok_of (by decide +kernel), ok_of (by decide +kernel), by decide +kernel, by decide +kernel,
    by decide +kernel⟩
/-- AccessTraps: one byte too far, an odd address, an address past the managed windows, and a poisoned word. -/
theorem witness_AccessTraps :
    let s := roomy.setG (((roomy.g.sSet 6 655353).sSet 7 655351).sSet 8 0x8000000000000000)
    let p := (roomy.setG (roomy.g.sSet 6 16)).setPsn (keyCore 0 16) true
    (s.MayTrap ∧ p.MayTrap ∧ p.Quiet) ∧
      (spaceSize s s.who .core < (s.g.sGet 6 + dispVal .d (.d6 0)).toNat + zBytes .d) ∧
      ((s.g.sGet 7 + dispVal .d (.d6 0)).toNat + zBytes .d ≤ spaceSize s s.who .core ∧
        (s.g.sGet 7 + dispVal .d (.d6 0)).toNat % zBytes .d ≠ 0) ∧
      genericAcc s s.who 0 .load 0x200000 8 8 = .error ⟨0x08, 0x200000, 32⟩ ∧
      genericAcc s s.who 0 .store 0x2001 8 8 = .error ⟨0x05, 0x2001, 8⟩ ∧ 2 ^ 63 ≤ (s.g.sGet 8).toNat ∧
      (p.g.selFlag false = none ∧ (∃ k ∈ spaceKeys p p.who 0 .core (p.g.sGet 6).toNat 8, p.psn k = true)) := by
  refine ⟨?_, by decide +kernel, by decide +kernel, err_of (by decide +kernel), err_of (by decide +kernel),
    by decide +kernel, by decide +kernel⟩
  unfold State.MayTrap State.Settled State.Quiet Group.OnCore
  decide +kernel
/-- AccessTraps, vector form: the second active thread's address is odd, and the first one's is good. -/
theorem witness_vectorTrap :
    let s := roomy.setG (roomy.g.vSet 2 1 17)
    s.MayVector (dispMask (.d6 0)) [1, 2] [] ∧ (1 < 32 ∧ (s.g.govern 0).getLsbD 1 = true) ∧
      (s.g.vGet 2 1 + dispVal .d (.d6 0)).toNat + zBytes .d ≤ spaceSize s s.who .core ∧
      (s.g.vGet 2 1 + dispVal .d (.d6 0)).toNat % zBytes .d ≠ 0 ∧
      (∀ t, t < 1 → (s.g.govern 0).getLsbD t = true →
        (s.g.vGet 2 t).toNat + zBytes .d ≤ spaceSize s s.who .core ∧ (s.g.vGet 2 t).toNat % zBytes .d = 0) :=
  ⟨mayVector_of (by decide +kernel), by decide +kernel, by decide +kernel, by decide +kernel, by decide +kernel⟩

/-- QuantisedStores: a BF16 run of four codes of format 1 for each active thread, into the core scratchpad. -/
def stqState : State :=
  let s : State := framed
  s.setG ((List.range 32).foldl (fun g t => g.vSet 2 t 0xE000000000000100) (s.g.sSet 5 0x100040))
theorem witness_QuantisedStores :
    let s := stqState
    let fr := frameAt s 0 64
    let S := spaceSize s s.who .core
    (s.MayVector 0 [1, 2, 3] [useS 5] ∧ s.Quiet ∧ ∀ k, s.psn k = false) ∧
      frameHead s.g.pc S 64 0 fr = .ok () ∧
      (s.g.unit = .core 0 0 ∧ (s.g.sGet 5).toNat % 2 ^ 20 = 64 ∧ (s.g.sGet 5).getLsbD 20 = true ∧
        ∀ t ∈ activeOf (s.g.govern 0), frameRowBad S fr 0 = false ∧
          (∀ e, e < 4 → frameScaleBad S fr 0 (4 * t + e) = false) ∧
          isOk (genericAcc s s.who t .store (s.g.vGet 2 t) (qRunBytes (frFmt fr) 4) (stqAlign (qRunBytes (frFmt fr) 4)))
            ⟨false, spaceKeys s s.who t .core (offsetOf .core (s.g.vGet 2 t)) (qRunBytes (frFmt fr) 4)⟩ = true) :=
  ⟨⟨mayVector_of (by decide +kernel), by unfold State.Quiet; decide +kernel, clean_of (by decide +kernel)⟩, ok_of (by decide +kernel),
    by decide +kernel⟩
/-- AddressTests. -/
theorem witness_AddressTests : base.MayAccess (poMo (.u 5)) (dMask .one) ∧
    base.MayAccess (poMo (.v 15)) (dMask (.ext 0 1)) ∧ base.MayAccess (.u 1 5) (vMask .one) ∧
    base.MayAccess (.v 1 15) (vMask (.ext 1)) :=
  ⟨readable_of (by decide +kernel), mayVector_of (by decide +kernel), readable_of (by decide +kernel),
    mayVector_of (by decide +kernel)⟩

/-- A calm device with an address in s5 and in v2. -/
def at_ (a : W64) : State :=
  base.setG ((List.range 32).foldl (fun g t => g.vSet 2 t a) (base.g.sSet 5 a))
theorem calm_of {s : State} (h : (decide (s.g.isSection = false) && decide (s.g.live = true) && decide (s.g.handler = false) &&
    decide (s.homeQ = []) && decide (s.sys.allUp = true) && (s.cores.all fun e => e.2.bankQ.isEmpty && e.2.narrow.isEmpty) &&
    decide (s.own = {}) && decide (s.fab.reqs = []) && decide (s.disp.doms = []) && decide (s.g.det = none) &&
    decide (s.g.pend = []) && decide (s.g.priv = []) && decide (s.g.fences = []) && decide (s.g.loads = [])) = true) : s.Calm := by
  simp only [Bool.and_eq_true, decide_eq_true_eq, List.all_eq_true, List.isEmpty_iff] at h
  obtain ⟨⟨⟨⟨⟨⟨⟨⟨⟨⟨⟨⟨⟨a, b⟩, c⟩, d⟩, e⟩, f⟩, g⟩, i⟩, j⟩, k⟩, l⟩, m⟩, n⟩, o⟩ := h
  exact ⟨a, b, c, ⟨d, e, f, o, by rw [l]; simp⟩, ⟨g, i, j, k⟩, l, m, n⟩
theorem at_calm : (at_ 0x2008).Calm ∧ (at_ 0xE000000000000008).Calm := ⟨calm_of (by decide +kernel), calm_of (by decide +kernel)⟩
/-- UniformAtomics: a managed word, and the last word of the core scratchpad. -/
theorem witness_UniformAtomics :
    ((at_ 0x2008).Calm ∧ (at_ 0x2008).RoomForTag ∧ (at_ 0x2008).disp.deliveries = []) ∧ (at_ 0x2008).g.selFlag false = none ∧
      atomAcc (at_ 0x2008) .d ((at_ 0x2008).g.sGet 5 + (0 : W32).signExtend 64) = .ok ⟨true, span 0x202008 8⟩ ∧
      atomAcc (at_ 0xE0000000000BFFF8) .w ((at_ 0xE0000000000BFFF8).g.sGet 5 + (4 : W32).signExtend 64) =
        .ok ⟨false, span (keyCore 0 0xBFFFC) 4⟩ ∧
      (∀ k ∈ span 0x202008 8, isPeerKey k = false) ∧ ∀ k, (at_ 0x2008).psn k = false :=
  ⟨⟨at_calm.1, by unfold State.RoomForTag; decide +kernel, by decide +kernel⟩, by decide +kernel, ok_of (by decide +kernel), ok_of (by decide +kernel), by decide +kernel, clean_of (by decide +kernel)⟩
/-- QueuedAtomics: flag 3 with room for one more, and a thread each. -/
theorem witness_QueuedAtomics :
    let s := (at_ 0x2008).setG { (at_ 0x2008).g with fa := some 3, f := [(3, 14)] }
    (s.Calm ∧ s.syncPend = none ∧ (∀ p ∈ s.g.pend, p.id < s.nextId) ∧ s.g.selFlag false = some 3 ∧ s.g.fGet 3 < 15) ∧
      s.MayVector 0 (casRegs (.v 1 2 3 4)).vregs [] ∧ s.Readable (atomIns .add (.u 1 5 3) ⟨.d, .rlx, .dev, 0, 0⟩).regs.named ∧
      (∀ th ∈ activeOf (s.g.govern 0), isOk (atomAcc s .d ((atomIns .add (.v 1 2 3) ⟨.d, .rlx, .dev, 0, 0⟩).ea s.g th))
        ⟨true, span 0x202008 8⟩ = true) :=
  ⟨⟨calm_of (by decide +kernel), by decide +kernel, by decide +kernel, by decide +kernel, by decide +kernel⟩,
    mayVector_of (by decide +kernel), readable_of (by decide +kernel), by decide +kernel⟩

/-- Private bytes of two lines, one of them poisoned. -/
def privates : List (Nat × Held) := [(0x202003, some (1, false)), (0x202008, some (2, false)), (0x202041, some (3, true))]
theorem privates_wf : tblWf none privates = true := by decide
/-- No entry of a table is a peer's byte. -/
theorem ownNone_of {l : List (Nat × Held)} (h : (l.all fun e => !isPeerKey e.1) = true) :
    ∀ k, isPeerKey k = true → tblGet none l k = none := by
  intro k hk
  induction l with
  | nil => rfl
  | cons e r ih =>
    simp only [List.all_cons, Bool.and_eq_true, Bool.not_eq_true'] at h
    have hr := ih h.2
    by_cases he : e.1 = k
    · subst he; rw [h.1] at hk; cases hk
    · unfold tblGet
      split <;> simp_all
theorem own_of {g : Group} (h : g.fences = []) (hp : (g.priv.all fun e => !isPeerKey e.1) = true) :
    ∀ k, isPeerKey k = true → g.own k = none := by
  intro k hk
  unfold Group.own
  rw [ownNone_of hp k hk, h]
  rfl
/-- ReleaseAcquireFence. -/
theorem witness_ReleaseAcquireFence :
    let s := base.setG { base.g with priv := privates }
    let w := base.setG (({ base.g with
      fences := [{ k := 15, scope := .dev, cover := privates, published := false, waits := [] }] }).kSet 15
        { kind := .fence, pending := true, scope := .dev })
    ((s.g.unit = .core 0 0 ∧ s.g.pend = [] ∧ s.g.fences = [] ∧ tblWf none s.g.priv = true) ∧
      ∀ k, isPeerKey k = true → s.g.own k = none) ∧
      (s.g.kGet (15 : KReg).val).pending = false ∧
      (w.g.fences = [{ k := (15 : KReg).val, scope := .dev, cover := privates, published := false, waits := [] }] ∧
        (w.g.kGet (15 : KReg).val).pending = true ∧ (w.g.kGet (15 : KReg).val).kind = .fence) ∧
      (∀ j, isPeerKey j = true → tblGet none privates j = none) ∧ Scope.dev ≠ .grp ∧ Scope.dev ≠ .core :=
  ⟨⟨by decide +kernel, own_of (by decide +kernel) (by decide +kernel)⟩, by decide +kernel, by decide +kernel,
    ownNone_of (by decide), by decide, by decide⟩

/-- A calm device whose barrier at offset 8 × 2 of the core scratchpad holds a number. -/
def barred (n : Nat) : State := (at_ 0xE000000000000010).writeClean (cellsOf (span (keyCore 0 16) 16) (leBytes 16 n))
/-- BarrierInstructions: the round asked about is over, or not over, and the barrier has overrun. -/
theorem witness_BarrierInstructions :
    let s := barred 0x00010002
    let o := barred (2 ^ 82)
    (s.g.OnCore ∧ s.Quiet ∧ s.Alone ∧ s.RoomForTag) ∧
      (s.g.pend = [] ∧ s.g.priv = [] ∧ s.g.fences = [] ∧ s.g.handler = false ∧ s.barPsn (keyCore 0 16) = false) ∧
      barAcc s s.who (s.g.sGet 5 + dDisp .one) = .ok ⟨false, span (keyCore 0 16) 16⟩ ∧
      ((barOf (s.barNum (keyCore 0 16))).round = (s.g.sGet 1).getLsbD 0 ∧
        (barOf (s.barNum (keyCore 0 16))).round ≠ ((regs [(1, 1)]).g.sGet 1).getLsbD 0 ∧
        (barOf (s.barNum (keyCore 0 16))).overrun = false ∧ (barOf (o.barNum (keyCore 0 16))).overrun = true) := by
  refine ⟨?_, by decide +kernel, ok_of (by decide +kernel), by decide +kernel⟩
  unfold State.Quiet State.Alone State.RoomForTag Group.OnCore
  decide +kernel
/-- BarrierRounds: an update that ends a round, one that does not, the last byte, and a first error. -/
theorem witness_BarrierRounds :
    let B : Bar := ⟨2, 1, 0, 0, false, true, false, false, true, 0, 0, 0⟩
    let C : Bar := { B with bytes := 2 ^ 32 - 1 }
    (B.posted = true ∧ B.pend - 1 = 0 ∧ B.bytes = 0 ∧ B.overrun = false) ∧ B.arrive .plain = { B with round := true, pend := 2 } ∧
      B.arrive .join = { B with round := true, expect := 3, pend := 3 } ∧
      (C.bytes < 2 ^ 32 ∧ 2 ^ 32 - 1 ≤ C.bytes ∧ C.error = false ∧ (0xFFFF : BitVec 16) ≠ 0) ∧
      C.arrive .plain = { C with pend := 0 } ∧ 2 ^ 128 - 1 < 2 ^ 128 := by decide
/-- Counters: the target is just met, and just not met. -/
theorem witness_Counters :
    let s := (regs [(5, 0xC000000000000020), (1, 7), (2, 8)]).writeClean (cellsOf (span (keyChip 32) 8) (leBytes 8 7))
    s.Calm ∧ cntAcc s s.who .cntWait (s.g.sGet 5 + dDisp .one) = .ok ⟨false, span (keyChip 32) 16⟩ ∧
      (∀ k, s.psn k = false) ∧ (∀ k ∈ span (keyChip 32) 16, isPeerKey k = false) ∧
      ((s.g.sGet 1).toNat ≤ leNat (((span (keyChip 32) 16).take 8).map s.seen) ∧
        ¬ (s.g.sGet 2).toNat ≤ leNat (((span (keyChip 32) 16).take 8).map s.seen)) :=
  ⟨calm_of (by decide +kernel), ok_of (by decide +kernel), clean_of (by decide +kernel), by decide +kernel, by decide +kernel⟩

/-- A launch in task mode, with its queue at offset 0x2000. -/
def taskLaunchRec : Launch :=
  { id := 0, ctx := 0, queue := 0, index := 0, devl := false, set := 0, carve := 0, task := true, tq := 0x2000, donen := 1, done := 0 }
def tasked (t : TaskSt) : State :=
  { base with disp := { base.disp with launches := [taskLaunchRec] } }.setG { base.g with task := t }
/-- GroupEnds: a group of no task launch, and one whose task has no successor. -/
theorem witness_GroupEnds :
    (base.Calm ∧ base.taskLaunch = none ∧ (base.arr 0).stream = none ∧ (base.arr 0).conv = none) ∧
      let s := tasked (.running 0x3000 0 0 0)
      s.Calm ∧ s.taskLaunch = some taskLaunchRec ∧ s.g.task = .running 0x3000 0 0 0 ∧ ∀ e ∈ s.g.k, e.2.pending = false :=
  ⟨⟨base_calm, by decide +kernel, by decide +kernel, by decide +kernel⟩, calm_of (by decide +kernel), by decide +kernel,
    by decide +kernel, by decide +kernel⟩
/-- SpawnAndClaim: no queue, and a queue of one slot that more threads ask for; a ticket claim; a claim delivered. -/
theorem witness_SpawnAndClaim :
    (base.Calm ∧ base.MayVector (vMask .one) [1, 2] [] ∧ base.taskLaunch = none ∧
      (∀ t ∈ activeOf (base.g.govern (vMask .one)),
        (base.g.vGet 2 t).toNat + 64 ≤ spaceSize base base.who .core ∧ (base.g.vGet 2 t).toNat % 64 = 0)) ∧
      (let s := tasked .idle
       let ks := span 0x202000 64
       s.taskLaunch = some taskLaunchRec ∧ hwOwn s s.g.ctx .rmw 0x2000 64 = .keys ks ∧ ks.Nodup ∧ ks.length = 64 ∧
         (∀ k ∈ ks, isPeerKey k = false) ∧
         2 ^ ((s.tqWord ks 8).toNat % 32) <
           (s.tqWord ks 24 + BitVec.ofNat 64 (activeOf (s.g.govern (vMask .one))).length - s.tqWord ks 16).toNat) ∧
      ((at_ 0x2000).Calm ∧ cntAcc (at_ 0x2000) (at_ 0x2000).who .cntAdd ((at_ 0x2000).g.sGet 5 + dDisp .one) =
          .ok ⟨true, span 0x202000 16⟩ ∧ (∀ k ∈ span 0x202000 8, isPeerKey k = false) ∧
        (∀ g ∈ (at_ 0x2000).everyGroup, g.claims.length < 8) ∧ (at_ 0x2000).RoomForTag) ∧
      base.disp.deliveries = [] ∧ base.g.claims = [] := by
  refine ⟨⟨base_calm, mayVector_of (by decide +kernel), by decide +kernel, by decide +kernel⟩, by decide +kernel,
    ⟨calm_of (by decide +kernel), ok_of (by decide +kernel), by decide +kernel, by decide +kernel,
      by unfold State.RoomForTag; decide +kernel⟩, by decide +kernel, by decide +kernel⟩
/-- SpawnAndClaim: a queue of sixteen slots with room for the two active threads' tasks. -/
theorem witness_Spawn :
    let s := ((tasked .idle).writeClean (cellsOf (span 0x202000 16) (leBytes 8 0x3000 ++ leBytes 8 4))).setG
      { base.g with task := .idle, m := [(0, 0x8002)] }
    let ks := span 0x202000 64
    let ts := activeOf (s.g.govern (vMask .one))
    let q := tqSlots s s.g.ctx ks ts.length (s.tqWord ks 24)
    s.taskLaunch = some taskLaunchRec ∧ hwOwn s s.g.ctx .rmw 0x2000 64 = .keys ks ∧
      (s.tqWord ks 24 + BitVec.ofNat 64 ts.length - s.tqWord ks 16).toNat ≤ 2 ^ ((s.tqWord ks 8).toNat % 32) ∧
      q = (.keys [], q.2) ∧ (∀ l ∈ q.2, l.length = 64) ∧ q.2.flatten.Nodup ∧
      ∀ k ∈ q.2.flatten, isPeerKey k = false ∧ k ∉ ks := by decide +kernel
/-- LaunchAndEvents: a packet in the chip scratchpad, and a list with room for one, or with none. -/
theorem witness_LaunchAndEvents :
    let n (k : Nat) : State :=
      { at_ 0xC000000000000100 with
        ctxs := tblSet {} base.ctxs 0 { base.ctx 0 with devList := List.replicate k ([], 0) } }
    ((n 63).Calm ∧ (n 64).Calm ∧
      windowAcc (n 63) (n 63).who .load bulkWindow ((n 63).g.sGet 5 + dDisp .one) 256 256 = .ok ⟨false, span (keyChip 256) 256⟩) ∧
      ((n 63).ctx 0).dead = false ∧ ((n 63).ctx 0).devList.length < 64 ∧ 64 ≤ ((n 64).ctx 0).devList.length ∧
      (n 63).g.unit = .core 0 0 ∧ (n 63).core 0 = base.core 0 ∧ (base.core 0).l1 = [] :=
  ⟨⟨calm_of (by decide +kernel), calm_of (by decide +kernel), ok_of (by decide +kernel)⟩, by decide +kernel, by decide +kernel,
    by decide +kernel, by decide +kernel, by decide +kernel, by decide +kernel⟩
/-- SystemInstructions: a translation is held, a byte is published within the core, and the trigger is on or off. -/
theorem witness_SystemInstructions :
    (let s : State := { base with tlb := [⟨0, 0, 0, true, 0⟩] }
     (s.Settled ∧ s.fab.reqs = [] ∧ ∀ e ∈ s.cores, e.2.missQ = []) ∧ (∀ g ∈ s.everyGroup, g.loads = []) ∧
       s.g.pend = [] ∧ s.g.unit = .core 0 0) ∧
      ((let s : State := { base with cores := tblSet {} base.cores 0 { base.core 0 with narrow := privates } }
        tblWf none (s.core 0).narrow = true ∧ s.Alone ∧ s.sys.allUp = true) ∧ ∀ k, isPeerKey k = true → tblGet none privates k = none) ∧
      (base.sys.snapCtl.getLsbD 1 = false) ∧ ((3 : W64).getLsbD 1 = true ∧ (3 : W64).getLsbD 0 = true ∧ base.sys.snapPend = []) ∧
      (let s : State := { base with sys := { base.sys with snapPend := [(base.sys.cycle, 4, none)] } }
       s.sys.snapPend = [(s.sys.cycle, 4, none)]) ∧
      ((2 : W64).getLsbD 0 = false ∧ base.sys.snapMissed ≠ 0xFFFFFFFF) := by
  refine ⟨?_, ⟨?_, ownNone_of (by decide)⟩, by decide +kernel, by decide +kernel, by decide +kernel, by decide +kernel⟩
  · unfold State.Settled
    decide +kernel
  · unfold State.Alone
    decide +kernel
/-- A section in a Damper, sent by a group of this device. -/
def sectioned : State :=
  let r : SecReq :=
    { sender := { dev := base.myId, gid := 1, launch := 0, gidx := 0, thread := 0, ctx := 0, k := 3, pend := 7, tag := 0 }
      entry := 0x1000, lock := 0xC000000000000000, args := [], nres := 2 }
  let g : Group := { unit := .damper 5 0, gid := 9, live := true, n0 := 1, m := [(0, 1)], sec := some r }
  let w : Pend := { id := 7, flag := none, addr := 0, ipc := 0, writes := [(.v 2 0, none), (.v 3 0, none)], sect := true }
  { base with
    g := g
    parked := [({ base.g with pend := [w] } : Group).kSet 3 { kind := .sect, pending := true, left := 1 }] }
theorem witness_SectionsRefuse : sectioned.g.unit = .damper 5 0 ∧ sectioned.g.pend = [] ∧ sectioned.homeQ = [] ∧
    (0x3FF : BitVec 15).toNat < 0x400 := by decide +kernel

/-- An MMA of one row and K of 32, with frames of zeros. -/
def mma0 : Mma :=
  { mmaFrames base 0 [0, 0, 0, 0] with ascale := [], bscale := [] }
def withArr (a : Arr) : State := { base with arrays := tblSet {} base.arrays 0 a }
/-- MatrixControl: the array idle, streaming, and frozen; and a group without the matrix right. -/
theorem witness_MatrixControl :
    let f := withArr { base.arr 0 with stream := some mma0, frozen := true, manual := true }
    let r := withArr { base.arr 0 with stream := some mma0 }
    let n := withArr {}
    let z (k : Nat) := withArr { base.arr 0 with stream := some mma0, freezing := true, kdone := k }
    (base.isMatrix = true ∧ (base.arr 0).stream = none ∧ (base.arr 0).conv = none ∧ (base.arr 0).frozen = false) ∧
      (f.isMatrix = true ∧ (f.arr 0).frozen = true ∧ (f.arr 0).manual = true ∧ f.g.handler = false) ∧
      (r.isMatrix = true ∧ (r.arr 0).stream = some mma0 ∧ (r.arr 0).frozen = false) ∧ n.isMatrix = false ∧ n.MayTrap ∧
      ((z 0).isMatrix = true ∧ ((z 0).arr 0).freezing = true ∧ ((z 0).arr 0).frozen = false ∧ 0 + mma0.step < mma0.K ∧
        ((z 31).arr 0).stream = some mma0 ∧ mma0.K ≤ 31 + mma0.step) := by
  unfold State.MayTrap State.Settled Group.OnCore
  decide +kernel
/-- MmaIssue: a marker that names too large a value; a format there is not; and a good MMA. -/
theorem witness_MmaIssue :
    let p : PBlock := ⟨.lit 0, .lit 0, .lit 0, .lit 0⟩
    let q : PBlock := ⟨.sub 3, .lit 0, .lit 0, .lit 0⟩
    let s := regs [(3, 0x40000000)]
    let bad := base.writeClean (cellsOf (span (keyCore 0 4) 4) (leBytes 4 0x70))
    (s.Calm ∧ (pbFits s.g q && wfMma (pbLit s.g q)) = false) ∧
      ((pbFits base.g p && wfMma (pbLit base.g p)) = true ∧
        mmaCheck base.g.pc (spaceSize base base.who .core) (mmaFrames base 0 (pbVals base.g p)) = .ok () ∧
        ∀ k, base.psn k = false) ∧
      ∃ e, mmaCheck bad.g.pc (spaceSize bad bad.who .core) (mmaFrames bad 0 (pbVals bad.g p)) = .error e :=
  ⟨⟨calm_of (by decide +kernel), by decide +kernel⟩, ⟨by decide +kernel, ok_of (by decide +kernel), clean_of (by decide +kernel)⟩,
    ⟨0x11, 0x1000, 0x17⟩, err_of (by decide +kernel)⟩
/-- MatrixExact: an MMA that has not begun, with the largest dot product and one beyond it. -/
theorem witness_MatrixExact :
    let s := withArr { base.arr 0 with stream := some mma0 }
    ((s.arr 0).stream = some mma0 ∧ (s.arr 0).conv = none ∧ (s.arr 0).frozen = false ∧ (s.arr 0).freezing = false ∧ (s.arr 0).kdone = 0 ∧ (s.arr 0).res = [] ∧
      mma0.acc < 2 ∧ mma0.computes 0 255 = true) ∧
      ((List.range mma0.K).foldl (fun acc k => acc + mma0.aPort s 0 0 k * mma0.bPort s 0 k 255) (0 : Int)).natAbs ≤ 4294966271 ∧
      (-4294966271 : Int).natAbs ≤ 4294966271 ∧ mma0.computes 1 0 = false := by decide +kernel
/-- AccumulatorImages: half a row of acc0, to and from the chip scratchpad. -/
theorem witness_AccumulatorImages :
    let s := regs [(5, 0xC000000000000100), (6, 4)]
    let m := mselOf (s.g.sGet 6)
    let ks := span (keyChip 256) 512
    (s.Calm ∧ ∀ k, s.psn k = false) ∧
      (windowAcc s s.who .store bulkWindow (s.g.sGet 5 + dDisp .one) (4 * (m.nrow * m.ncol)) 8 = .ok ⟨false, ks⟩ ∧
        windowAcc s s.who .load bulkWindow (s.g.sGet 5 + dDisp .one) (4 * (m.nrow * m.ncol)) 8 = .ok ⟨false, ks⟩) ∧
      ks.Nodup ∧ (s.isMatrix = true ∧ (s.arr 0).accPsn = [] ∧ m.img < 2 ∧ ks.length = 4 * (m.nrow * m.ncol) ∧ m.ncol = 128) :=
  ⟨⟨calm_of (by decide +kernel), clean_of (by decide +kernel)⟩, ⟨ok_of (by decide +kernel), ok_of (by decide +kernel)⟩, span_nodup _ _,
    by decide +kernel⟩
/-- A device with a copy's record at offset 64 of the core scratchpad, and records before it in the engine's queue. -/
def withRecord (ty n : Nat) : State :=
  let s := (regs [(5, 0x40)]).writeClean (cellsOf (span (keyCore 0 64) 64)
    ([ty, 0, 0, 0, 0x2000, 0, 0x3040, 0, 4, 0, 0, 0, 0, 0, 0, 0].flatMap (leBytes 4)))
  let o : EngOp := { id := 1, rcd := [], by_ := issuerOf base.g }
  { s with cores := tblSet {} s.cores 0 { s.core 0 with engQ := List.replicate n o } }
/-- EngineInstructions: room for one more, the queue full, a type there is not; another producer; and idle, or not. -/
theorem witness_EngineInstructions :
    let s := withRecord 0 15
    let f := withRecord 0 16
    let b := withRecord 7 0
    let n := base.setG { base.g with producer := some 1 }
    let r (ty : W32) : List W32 := [ty, 0, 0, 0, 0x2000, 0, 0x3040, 0, 4, 0, 0, 0, 0, 0, 0, 0]
    (s.Calm ∧ f.Calm ∧ b.Calm ∧ n.Calm) ∧ (∀ k, s.psn k = false) ∧
      (s.g.producer = some s.g.localNum ∧ (s.g.sGet 5).toNat + 64 ≤ spaceSize s s.who .core ∧ (s.g.sGet 5).toNat % 64 = 0 ∧
        s.words (keyCore 0 64) 16 = r 0 ∧ readFrames s 0 (r 0) = [] ∧ crCheck s s.who (r 0) [] = none ∧
        (s.core 0).engQ.length < 16) ∧
      16 ≤ (f.core 0).engQ.length ∧
      (b.words (keyCore 0 64) 16 = r 7 ∧ readFrames b 0 (r 7) = [] ∧ crCheck b b.who (r 7) [] = some (1, 0)) ∧
      n.g.producer ≠ some n.g.localNum ∧
      ((base.core 0).engQ = [] ∧ (base.core 0).engRun = [] ∧ base.riddle = [] ∧ (s.core 0).engQ ≠ []) :=
  ⟨⟨calm_of (by decide +kernel), calm_of (by decide +kernel), calm_of (by decide +kernel), calm_of (by decide +kernel)⟩,
    clean_of (by decide +kernel), by decide +kernel, by decide +kernel, by decide +kernel, by decide +kernel, by decide +kernel⟩
/-- RiddleInstructions: an element to gather, with a token that is free; a space there is not; indices beyond the end. -/
theorem witness_RiddleInstructions :
    let s := regs [(4, 0x2000)]
    let p (i z : Nat) : PBlock := ⟨.lit (BitVec.ofNat 30 i), .lit 0, .lit (BitVec.ofNat 30 z), .lit 0x100000⟩
    let o (i : Nat) : RidOp :=
      { id := s.nextId, kind := .gather, by_ := issuerOf s.g, core := 0, base := s.g.sGet 4, p := pbVals s.g (p i 0x2000000)
        doneAddr := complAddr s.g (.tok 7), done := .tok 7, todo := [0] }
    s.Calm ∧ ((o 0).count = 1 ∧ (pbFits s.g (p 0 0x2000000) && wfRid (.tok 7) false (pbLit s.g (p 0 0x2000000))) = true ∧
      (pbFits s.g (p 0 0) && wfRid (.tok 7) false (pbLit s.g (p 0 0))) = false ∧ ridFail s (o 0) (.tok 7) = none ∧
      ridProbe s (o 0) = none ∧ (s.g.kGet 7).pending = false ∧ (ridFail s (o 0xFFFFC) (.tok 7)).isSome = true) :=
  ⟨calm_of (by decide +kernel), by decide +kernel⟩
/-- SectionInstructions: SHIP from one thread to a lock in the chip scratchpad. -/
theorem witness_Ship :
    let s := (base.setG { (base.g.sSet 20 0x1000) with m := [(0, 0x80000000)] })
    let s := s.setG (s.g.vSet 8 31 0xC000000000000040)
    let p : PBlock := ⟨.lit 0x3008, .lit 0x2C0A, .lit 0, .lit 0⟩
    (s.Calm ∧ s.MayVector 0 [] [] ∧ s.g.Has (shipRegs s.g 2 1 p).all) ∧
      (activeOf (s.g.govern 0) = [31] ∧ (pbFits s.g p && wfShip 2 1 (pbLit s.g p)) = true ∧
        (∀ v ∈ shipLits s.g 2 1 p, v.val < s.g.nv)) ∧
      ((s.g.sGet 20).toNat % 4 = 0 ∧ (s.g.sGet 20).toNat < 2 ^ 63 ∧ s.g.vGet 8 31 = 0xC000000000000040 ∧
        lockFail s 0xC000000000000040 = none ∧ lockHere s 0xC000000000000040 = true ∧ (s.g.kGet 3).pending = false) ∧
      (let D := s.damper (s.homeDamper (lockHash 0xC000000000000040))
       D.isClosed 0xC000000000000040 = false ∧ D.queue.length < 4096 ∧ D.refusal = [] ∧ (shipRegs s.g 2 1 p).res ≠ []) :=
  ⟨⟨calm_of (by decide +kernel), mayVector_of (by decide +kernel), has_of (by decide +kernel)⟩, by decide +kernel,
    by decide +kernel, by decide +kernel⟩
/-- SectionInstructions: a token pending or not, and a section that returns two values. -/
theorem witness_Sections :
    ((base.g.kGet (3 : KReg).val).pending = false ∧ ((busy.setG (busy.g.kSet 3 { pending := true })).g.kGet 3).pending = true) ∧
      (let s := sectioned
       let G := { base.g with pend := [{ id := 7, flag := none, addr := 0, ipc := 0, writes := [(.v 2 0, none), (.v 3 0, none)], sect := true }] }
       (s.Quiet ∧ s.Alone) ∧ s.findGid 1 = some (Group.kSet G 3 { kind := .sect, pending := true, left := 1 }) ∧
         (s.g.pend = [] ∧ s.g.priv = [] ∧ s.g.fences = [] ∧ (∀ e ∈ s.g.k, e.2.pending = false) ∧ s.g.gid ≠ 1)) ∧
      (base.MayTrap ∧ base.g.sec = none) := by
  refine ⟨by decide +kernel, ⟨?_, by decide +kernel, by decide +kernel⟩, base_mayTrap, by decide +kernel⟩
  unfold State.Quiet State.Alone
  decide +kernel

/-! ## Witnesses for the events. -/

/-- GroupEvents: results that have come, one of them poisoned; a wait that is over, and one that is not; a signal. -/
theorem witness_GroupEvents_results :
    let p : Pend := { id := 5, flag := some 2, addr := 0, ipc := 0x1000, writes := [(.s 7, some (99, false)), (.v 3 1, some (98, false))] }
    let q : Pend := { p with writes := [(.s 7, some (99, true))] }
    let s := base.setG { base.g with f := [(2, 3)], pend := [{ p with id := 4 }, p] }
    let d := base.setG { base.g with f := [(2, 3)], pend := [q] }
    let b := base.setG { base.g with block := some (.flags 4) }
    let e := base.setG { base.g with block := some .replay }
    let x := base.setG { base.g with preempting := true }
    (s.g.live = true ∧ s.Settled ∧ s.g.unit = .core 0 0 ∧ s.g.pend[1]? = some p ∧ p.ready = true ∧ p.poisoned = false ∧ p.sync = false) ∧
      (d.g.live = true ∧ d.g.pend = [q] ∧ q.ready = true ∧ q.poisoned = true ∧ q.sync = false ∧ d.g.isSection = false ∧
        d.g.handler = false ∧ d.Settled ∧ d.g.suspended = none) ∧
      (b.g.block = some (.flags 4) ∧ b.Settled ∧ b.g.fences = [] ∧ b.waitOver (.flags 4) = true) ∧
      (e.g.block = some .replay ∧ e.g.block ∈ [some Block.engineFull, some .launchFull, some .array, some .room, some .replay]) ∧
      (x.g.preempting = true ∧ x.MayTrap ∧
        x.g.suspended = none ∧ x.g.block = none ∧ x.g.det = none) := by
  unfold State.MayTrap State.Settled Group.OnCore
  refine ⟨?_, ?_, ?_, ?_, ?_⟩ <;> decide +kernel
/-- GroupEvents: one fence, and a second unit that the state holds parked. -/
theorem witness_GroupEvents_others :
    (let s := base.setG { base.g with
        fences := [{ k := (15 : Fin 16).val, scope := .fab, cover := privates, published := false, waits := [] }] }
     (s.Quiet ∧ s.Alone) ∧ s.g.fences = [{ k := (15 : Fin 16).val, scope := .fab, cover := privates, published := false, waits := [] }] ∧
       tblWf none privates = true ∧ ∀ j, isPeerKey j = true → tblGet none privates j = none) ∧
      (let g : Group := { base.g with unit := .core 2 1, gid := 8, block := some .engineFull }
       let s : State := { base with parked := [g] }
       s.findUnit (.core 2 1) = some g ∧ (s.swapTo g.gid).g = g ∧
         ∃ t, exec (.refusedRequestRetry (.core 2 1)) (s.swapTo g.gid) = .next t ∧ t.g.gid = g.gid) := by
  refine ⟨⟨?_, by decide +kernel, privates_wf, ownNone_of (by decide)⟩, by decide +kernel, by decide +kernel, _, rfl, by decide +kernel⟩
  unfold State.Quiet State.Alone
  decide +kernel
/-- GroupEvents: a claim on its way, a turn to grant, and a quantum's end. -/
theorem witness_GroupEvents_rest :
    let d : Det := { quant := 10, atEnd := false, turn := false, leaving := false }
    let c : Delivery := { launch := 0, clus := base.sys.fuse.clusterOf 0, gids := [1], gid := 1, pend := 3, val := some 77 }
    let s : State := { base with disp := { base.disp with deliveries := [c] } }
    let t := base.setG { base.g with det := some d, block := some .turn }
    let q := ({ base with disp := { base.disp with doms := [{ launch := 0, quant := 10, snap := [(3, some (4, false))], late := [(5, true)] }] } }).setG
      { base.g with priv := privates, det := some { d with atEnd := true }, block := some .quantum }
    (s.disp.deliveries = [c] ∧ c.val = some 77 ∧ (s.everyGroup.map Group.gid).Nodup ∧ c.gids.Nodup) ∧
      (t.g.live = true ∧ t.g.launch = 0 ∧ t.g.det = some d ∧ t.g.block = some .turn ∧ t.turnHeld 0 = false ∧
        t.shipsOut 0 = false ∧ t.smallest 0 (t.g.retired.toNat, t.g.gidx.toNat) = true) ∧
      ((q.everyGroup = [q.g] ∧ q.g.det = some { d with atEnd := true } ∧ q.own = {} ∧ q.fab.reqs = [] ∧ q.g.fences = [] ∧
        q.disp.doms = [{ launch := 0, quant := 10, snap := [(3, some (4, false))], late := [(5, true)] }] ∧ tblWf none q.g.priv = true) ∧ q.Quiet ∧
        ∀ j, isPeerKey j = true → tblGet none q.g.priv j = none) := by
  refine ⟨by decide +kernel, by decide +kernel, by decide +kernel, ?_, ownNone_of (by decide)⟩
  unfold State.Quiet
  decide +kernel
/-- GroupEvents: a core saved, and another of the same share that is free. -/
theorem witness_GroupEvents_restore :
    let e : SavedCore := { core := 0, carve := 0, scratch := [(0, 1), (8, 2), (786431, 3)], scratchPsn := [], loadMap := [], parked := [], arr := none }
    let s : State := { base with
      g := Group.empty
      ctxs := tblSet {} base.ctxs 0 { base.ctx 0 with saved := [base.g, { base.g with gid := 5, unit := .core 0 3 }], savedCores := [e] } }
    (s.ctx 0).savedCores = [e] ∧ e.core = 0 ∧ e.loadMap = [] ∧ destOf [(0, 2)] 0 = some 2 ∧
      (∀ g ∈ (s.ctx 0).saved, g.ctx = 0 ∧ unitCore g.unit = some 0) ∧ s.restoreFits 0 [(0, 2)] = true ∧
      tblWf 0 e.scratch = true ∧ ∀ x ∈ e.scratch, x.1 < 786432 := by decide +kernel

/-- A device whose core 0 is changed. -/
def coreIs (f : Core → Core) : State := { base with cores := tblSet {} base.cores 0 (f (base.core 0)) }
/-- MemoryEvents: a miss, a publication, and a store at a core's port. -/
theorem witness_MemoryEvents_core :
    let m := coreIs fun c => { c with missQ := [⟨0x202000 / 64, 50, 0, 0x2000⟩, ⟨3, 4, 0, 0⟩] }
    let n := coreIs fun c => { c with narrow := privates }
    let a : BankAcc := { keys := span (keyCore 0 16) 8, data := 0x8877665544332211, gid := 1 }
    let b := coreIs fun c => { c with bankQ := [a, a] }
    (m.Quiet ∧ m.own = {} ∧ m.fab.reqs = [] ∧ (m.core 0).missQ = [⟨0x202000 / 64, 50, 0, 0x2000⟩, ⟨3, 4, 0, 0⟩] ∧ isPeerKey (64 * (0x202000 / 64)) = false) ∧
      ((tblWf none (n.core 0).narrow = true ∧ (n.core 0).narrow ≠ [] ∧ n.own = {} ∧ n.disp.doms = [] ∧ n.fab.reqs = [] ∧
        n.sys.allUp = true) ∧
        ∀ j, isPeerKey j = true → tblGet none (n.core 0).narrow j = none) ∧
      ((b.core 0).bankQ = [a, a] ∧ (b.core 0).bankQ ≠ [] ∧ a.op = none ∧ a.load = none ∧ a.after = [] ∧
        a.keys = span (keyCore 0 16) 8 ∧ 8 ≤ 8) := by
  refine ⟨⟨?_, by decide +kernel, by decide +kernel, by decide +kernel, by decide +kernel⟩, ⟨by decide +kernel, ownNone_of (by decide +kernel)⟩,
    by decide +kernel⟩
  unfold State.Quiet
  decide +kernel
/-- MemoryEvents: an operation at its home, for an atomic and for each change of a barrier. -/
theorem witness_MemoryEvents_home :
    let h (a : HomeAct) : HomeOp :=
      { act := a, place := ⟨false, keyCore 0 16⟩, addr := 0, ctx := 0, gid := 1, pend := some 5, dest := some (.v 3 1) }
    let s (a : HomeAct) : State :=
      ({ base with homeQ := [h a] } : State).setG { base.g with
        pend := [{ id := 5, flag := none, addr := 0, ipc := 0x1000, writes := [(.v 3 1, none)] }] }
    (∀ a ∈ [HomeAct.rmw .cas .d 1 2, .arrive .plain, .expect 0xFFFFFFFF, .bytes 4 true 7],
      (s a).homeQ = [h a] ∧ (h a).gid = (s a).g.gid ∧ (s a).g.live = true ∧ (s a).g.priv = [] ∧ (s a).g.fences = [] ∧
        (h a).pend = some 5 ∧ (h a).dest = some (.v 3 1) ∧ (s a).poison = [] ∧
        (h a).after = [] ∧ (h a).own = [] ∧ (s a).disp.deliveries = []) ∧
      (({ s (.arrive .plain) with homeQ := [] } : State).Quiet ∧ (s (.arrive .plain)).Alone ∧
        (s (.arrive .plain)).RoomForTag) := by
  refine ⟨by decide +kernel, ?_⟩
  unfold State.Quiet State.Alone State.RoomForTag
  decide +kernel
/-- MemoryEvents: a counter in the chip scratchpad; walks that end with a page and without one; an invalidation. -/
theorem witness_MemoryEvents_rest :
    (let h : HomeOp := { act := .count 7 5, place := ⟨false, keyChip 32⟩, addr := 0xC000000000000020, ctx := 0 }
     let s : State := { base with homeQ := [h] }
     s.homeQ = [h] ∧ h.place.key = keyChip 32 ∧ h.after = [] ∧ (∀ j ∈ span (keyChip 32) 16, isPeerKey j = false) ∧ s.poison = [] ∧
       (({ s with homeQ := [] } : State).Quiet ∧ s.Alone ∧ s.RoomForTag) ∧ s.num (span (keyChip 32 + 8) 4) = 0) ∧
      (let s : State := { base with walks := [⟨[0, 0x100], 0, 0x12345⟩] }
       s.walks = [⟨[0, 0x100], 0, 0x12345⟩] ∧ (∃ l, walk s 0 0x12345 = .ok l) ∧ (∃ e, walk s 0 0x2212345 = .error e) ∧
         ∀ e ∈ s.tlb, ∀ n ∈ [0, 0x100], e.hits n 0 0x12345 = false) ∧
      (let s : State := { base with invals := [⟨0, 0, 4096, true⟩] }
       s.invals = [⟨0, 0, 4096, true⟩] ∧ s.homeQ = [] ∧ s.invalWaits 0 0 4096 = false) :=
  ⟨by unfold State.Quiet State.Alone State.RoomForTag; decide +kernel, ⟨by decide +kernel, ⟨_, rfl⟩, ⟨_, rfl⟩, by decide +kernel⟩, by decide +kernel⟩

/-- The issuer of an operation of launch 4. -/
def by4 : Issuer := { unit := .core 0 0, gid := 1, ctx := 0, launch := 4, team := 0, W := 0, gts := 0 }
/-- A launch that awaits one operation. -/
def launch4 : Launch :=
  { id := 4, ctx := 0, queue := 0, index := 0, devl := false, set := 0, carve := 0, task := false, tq := 0, donen := 0, done := 0, ops := 1 }
def launched (s : State) : State := { s with disp := { s.disp with launches := [launch4] } }
/-- A record of words, the rest zero. -/
def recordOf (l : List Nat) : List W32 := (l ++ List.replicate (16 - l.length) 0).map (BitVec.ofNat 32)
/-- A copy of 64 bytes from 0x2000 to 0x3040. -/
def copyOp : EngOp := { id := 5, by_ := by4, rcd := recordOf [0, 0, 0, 0, 0x2000, 0, 0x3040, 0, 64] }
/-- EngineEvents: a record that may begin, one that finds four running, and a stage record; a copy that is performed. -/
theorem witness_EngineEvents_start :
    let s := coreIs fun c => { c with engQ := [copyOp] }
    let f := coreIs fun c => { c with engQ := [copyOp], engRun := [copyOp, copyOp, copyOp, copyOp] }
    let b := coreIs fun c => { c with engQ := [{ copyOp with rcd := recordOf [3] }] }
    let l := coreIs fun c => { c with engQ := [{ copyOp with rcd := recordOf [2, 0, 0, 0, 0, 0, 0, 0, 0, 0, 0, 0, 0, 9, 3] }] }
    let r := coreIs fun c => { c with engRun := [copyOp] }
    ((s.core 0).engQ = [copyOp] ∧ ((s.core 0).engRun.filter fun y => y.of_.isNone).length < 4 ∧ crType copyOp.rcd = 0) ∧
      ((f.core 0).engQ = [copyOp] ∧ 4 ≤ ((f.core 0).engRun.filter fun y => y.of_.isNone).length) ∧
      ((l.core 0).engQ ≠ [] ∧ (l.core 0).engRun = []) ∧
      (crType (recordOf [3]) = 3 ∧ bsCore (recordOf [3]) 0 = 0 ∧
        (((b.core 0).loadMap.filter fun e => !(e.within (bsEntry { copyOp with rcd := recordOf [3] }))).length + b.bsRunning 0 < 64)) ∧
      ((r.runOf 5 = some (0, copyOp) ∧ copyOp.plan = none ∧ copyOp.wrote = false ∧ copyOp.code = 0 ∧ crType copyOp.rcd = 0 ∧
        crCkind copyOp.rcd ≠ 1 ∧ crW copyOp.rcd 8 = 64 ∧
        (r.core 0).engRun = [copyOp] ∧ 64 ≤ pageLeft (crSrc copyOp.rcd) ∧ 64 ≤ pageLeft (crDst copyOp.rcd) ∧
        isOk (engAcc r by4 .load (crSrc copyOp.rcd) 64) ⟨true, span 0x202000 64⟩ = true ∧
        isOk (engAcc r by4 .store (crDst copyOp.rcd) 64) ⟨true, span 0x203040 64⟩ = true ∧
        (∀ x ∈ span 0x202000 64 ++ span 0x203040 64, isPeerKey x = false) ∧ r.poison = [] ∧ copyOp.framePsn = []) ∧
        r.Quiet ∧ r.Alone) := by
  refine ⟨by decide +kernel, by decide +kernel, by decide +kernel, by decide +kernel, by decide +kernel, ?_⟩
  unfold State.Quiet State.Alone
  decide +kernel
/-- EngineEvents: the last element of a GATHER. -/
theorem witness_EngineEvents_gather :
    let o : RidOp :=
      { id := 5, kind := .gather, by_ := by4, core := 0, base := 0x2000, p := [0, 0, 3 * 2 ^ 25 + 0x800, 0x100000], done := .tok 3
        todo := [0] }
    let s : State := { base with riddle := [o] }
    (s.runOf 5 = none ∧ s.riddle = [o] ∧ o.esz = 4 ∧ 0 / o.perElem = 0 ∧ o.page s (o.elemAddr s 0) = none ∧
      (o.pieces (o.elemAddr s 0))[0 % o.perElem]? = some (0, 4) ∧
      isOk (o.elem s 0) (span 0x202000 o.esz) = true ∧ o.locKeys s (0 * o.esz + 0) 4 = span (keyCore 0 0x800) 4 ∧
      (∀ x ∈ span 0x202000 o.esz ++ span (keyCore 0 0x800) 4, isPeerKey x = false)) ∧ (s.Quiet ∧ s.Alone) ∧ o.pages = [] ∧ s.poison = [] ∧ 0 + 4 ≤ o.esz := by
  unfold State.Quiet State.Alone
  decide +kernel
/-- EngineEvents: completions with nothing to tell, with a counter, and with a token; a loop with a round to begin. -/
theorem witness_EngineEvents_complete :
    let d : EngOp := { copyOp with wrote := true }
    let n : EngOp := { d with rcd := recordOf [0x20, 0, 0x40, 0xC0000000, 0x2000, 0, 0x3040, 0, 64] }
    let s := launched (coreIs fun c => { c with engRun := [d] })
    let t := launched (coreIs fun c => { c with engRun := [n] })
    let o : RidOp :=
      { id := 5, kind := .scatter, by_ := by4, core := 0, base := 0x2000, p := [0, 0, 3 * 2 ^ 25, 0x100000], done := .tok 3
        wrote := true, faults := [(0, 2)] }
    let r := launched { base with riddle := [o] }
    ((s.core 0).engRun = [d] ∧ d.wrote = true ∧ d.sent = false ∧ d.of_ = none ∧ s.homeQ = [] ∧ d.clock = none ∧ s.fab.reqs = [] ∧ s.launchOf 4 = some launch4 ∧
        crType d.rcd ≠ 2 ∧ crType d.rcd ≠ 3 ∧ crCkind d.rcd = 0) ∧
      ((t.core 0).engRun = [n] ∧ t.launchOf 4 = some launch4 ∧ crType n.rcd = 0 ∧ crCkind n.rcd = 2 ∧ n.code = 0 ∧
        isOk (cntAcc t (hwWho by4.ctx) .cntAdd (crDone n.rcd)) ⟨false, span (keyChip 64) 16⟩ = true ∧
        (∀ j ∈ span (keyChip 64) 16, isPeerKey j = false) ∧ t.poison = [] ∧ t.Quiet ∧ t.Alone ∧ t.RoomForTag) ∧
      (r.riddle = [o] ∧ o.wrote = true ∧ o.sent = false ∧ r.homeQ = [] ∧ o.clock = none ∧ r.fab.reqs = [] ∧ o.kind ≠ .mcst ∧ o.nobm = true ∧ r.g.live = true ∧
        o.by_.gid = r.g.gid ∧ r.launchOf 4 = some launch4) := by
  unfold State.Quiet State.Alone State.RoomForTag
  decide +kernel
theorem witness_EngineEvents_loop :
    let o : EngOp :=
      { id := 5, by_ := by4, rcd := recordOf [2, 0, 0, 0xE0000000, 0, 0, 0, 0, 0x100, 0xE0000000, 0, 0, 0, 2, 1], rounds := [false], nexts := [1] }
    let s := coreIs fun c => { c with engRun := [o] }
    let t := coreIs fun c => { c with engRun := [{ o with rounds := [true] }] }
    let u := coreIs fun c => { c with engRun := [{ o with nexts := [2] }] }
    ((s.core 0).engRun = [o] ∧ crType o.rcd = 2 ∧ o.of_ = none ∧ s.emptyRound o 0 = some (o.rounds.getD 0 false)) ∧
      (0 < o.nexts.length ∧ o.nexts.getD 0 2 < crW o.rcd 13 ∧ crW o.rcd 13 = 2 ∧
        t.emptyRound { o with rounds := [true] } 0 = some false) ∧ ¬ ([2].getD 0 2 < crW o.rcd 13) ∧ (u.core 0).engRun ≠ [] := by
  decide +kernel
/-- EngineEvents: a section that waits at a Damper with a free context. -/
theorem witness_EngineEvents_section :
    let r : SecReq :=
      { sender := { dev := 0, gid := 1, launch := 4, gidx := 0, thread := 0, ctx := 0, k := 3, pend := 7, tag := 0 }
        entry := 0x1000, lock := 0xC000000000000040, args := [1, 2, 3, 4, 5, 6], nres := 0 }
    let s : State := { base with dampers := [(5, { queue := [r] })] }
    (s.damper 5).queue = [r] ∧ (s.damper 5).refusal = [] ∧ (s.damper 5).retry = [] ∧ s.freeContext 5 = some 0 ∧
      s.lockHeld 5 r.lock = false ∧ r.args.length ≤ 6 ∧ (s.ctx 0).exists_ = true ∧
      (let u : State := ({ s with ctxs := [] } : State).setG (s.g.kSet 3 { kind := .sect, pending := true, left := 1 })
       (u.damper 5).queue = [r] ∧ (u.ctx 0).exists_ = false ∧ r.far = false ∧ u.g.live = true ∧ u.g.gid = r.sender.gid ∧
         u.g.pend = [] ∧ (u.g.kGet 3).pending = true ∧ (u.g.kGet 3).kind = .sect) := by decide +kernel
/-- EngineEvents: a pair that a signal reaches while an MMA streams, and one that it does not; the power states. -/
theorem witness_EngineEvents_power :
    let s := (withArr { base.arr 0 with stream := some mma0 }).setG { base.g with preempting := true }
    let i : State := { base with g := Group.empty, arrays := [] }
    let p (x : Power) : State := coreIs fun c => { c with power := x }
    (s.pairSignalled 0 = true ∧ (s.arr 0).stream = some mma0 ∧ (s.arr 0).frozen = false ∧ (s.arr 0).freezing = false ∧ base.pairSignalled 0 = false) ∧
      ((i.core 0).power = .active ∧ i.residents 0 = [] ∧ (i.core 0).engQ = [] ∧ (i.core 0).engRun = [] ∧ i.riddle = [] ∧
        (i.arr 0).stream = none ∧ (i.arr 0).conv = none ∧ (i.core 0).narrow = []) ∧
      ∀ x ∈ [Power.entering, .gated, .waking], ((p x).core 0).power = x := by decide +kernel

/-- DispatchEvents: a queue's descriptor at 0x300000 with one packet, at offset 0x8000, in slot 5. -/
def packed (fields : List (Nat × Nat × Nat)) : State :=
  let put (s : State) (a n v : Nat) : State := s.writeClean (cellsOf (span (keyPhys a) n) (leBytes n v))
  let s := put (put (put base 0x300000 8 0x8000) 0x300008 8 4) 0x300010 8 1
  let s := fields.foldl (fun s f => put s (0x208000 + f.1) f.2.1 f.2.2) s
  { s with
    g := Group.empty
    disp := { s.disp with
      slots := [(5, { queue := 7, ctx := 0, prio := 2, valid := true, qdesc := 0x300000 })], queues := [(7, some 0x300000)]
      ready := [(7, true)] } }
def zeros (n : Nat) : List Byte := List.replicate n 0
def eventPacket : List Byte := [2] ++ zeros 55 ++ leBytes 8 0x30 ++ zeros 24 ++ leBytes 8 0x11 ++ zeros 160
def launchPacket : List Byte :=
  [1] ++ zeros 7 ++ leBytes 8 0x1000 ++ leBytes 8 0x77 ++ zeros 32 ++ leBytes 8 0x30 ++ zeros 56 ++ leBytes 4 32 ++
    leBytes 4 (2 + 2 ^ 16 + 4 * 2 ^ 20 + 2 ^ 23) ++ zeros 24 ++ leBytes 2 16 ++ zeros 102
def headOf (b : List Byte) : Head := { ctx := 0, queue := 7, index := 0, devl := false, b := some b }
/-- DispatchEvents: an event packet, a packet of no kind, and a launch packet that fits, or does not. -/
theorem witness_DispatchEvents_slot :
    let s := packed [(0, 1, 2), (56, 8, 0x30), (88, 8, 0x11)]
    s.slotOrder = [5] ∧ s.disp.marks = [] ∧ (s.Quiet ∧ s.Alone) ∧ s.slotHead [] 5 = .head (headOf eventPacket) := by
  unfold State.Quiet State.Alone
  decide +kernel
theorem witness_DispatchEvents_event :
    (packed []).headCheck (headOf eventPacket) = none ∧ (packed []).headWants (headOf eventPacket) = none ∧
      pk eventPacket 0 1 = 2 ∧ pkDone eventPacket = 0 ∧
      (packed []).headCheck (headOf ([9] ++ zeros 255)) = some (7, 9) ∧ pkDone ([9] ++ zeros 255) = 0 := by decide +kernel
theorem witness_DispatchEvents_launch :
    (packed []).headCheck (headOf launchPacket) = none ∧ (packed []).headWants (headOf launchPacket) = none ∧
      pk launchPacket 0 1 = 1 ∧ (packed []).headFits (headOf launchPacket) launchPacket = true := by decide +kernel
theorem witness_DispatchEvents_unfit :
    let s := { packed [] with parked := [{ base.g with ctx := 1 }] }
    s.headFits (headOf launchPacket) launchPacket = false ∧ (s.ctx 0).devList = [] := by decide +kernel
/-- DispatchEvents: slots bound, free, skipped, reserved; slices with a queue that may take over, and without; a queue
that has nothing, and one to bind. -/
theorem witness_DispatchEvents_slots :
    let s := packed []
    let x : State := { s with disp := { s.disp with skips := [(true, 9), (false, 7)] } }
    let l (p : BitVec 2) : State := ({ s with disp := { s.disp with
      queues := [(7, some 0x300000), (8, some 0x300000)], ready := [(7, true), (8, true)] } } : State).setSlot 5
        { s.slot 5 with slice := 1, prio := p }
    let f : State := { s with disp := { s.disp with slots := [] } }
    let i : State := { s with disp := { s.disp with queues := [] } }
    (x.disp.skips = [(true, 9)] ++ (false, 7) :: [] ∧ (false, 7) ∉ x.disp.marks ∧ x.nameSlot (false, 7) = some 5 ∧
        x.nameSlot (true, 9) ≠ some 5 ∧ s.disp.skips = [] ∧ (x.slot 5).valid = true ∧ (s.slot 6).valid = false) ∧
      (((l 0).slot 5).valid = true ∧ ((l 0).slot 5).slice ≠ 0 ∧
        (∃ q ∈ (l 0).readyQueues, ((l 0).slot 5).prio.toNat ≤ (l 0).queuePrio q) ∧ (s.slot 5).slice = 0 ∧
        ∀ q ∈ (l 1).readyQueues, (l 1).queuePrio q < ((l 1).slot 5).prio.toNat) ∧
      ((i.slot 5).valid = true ∧ i.queueBusy (i.slot 5).queue.toNat = false ∧ s.queueBusy (s.slot 5).queue.toNat = true) ∧
      (f.nextQueue = some 7 ∧ f.queueDesc 7 = some 0x300000 ∧ (f.slot 63).valid = false ∧ (f.slot 63).unacked = false) := by
  decide +kernel
/-- DispatchEvents: a core of the next launch with no group, of the launch's context or of another. -/
theorem witness_DispatchEvents_clear :
    let s := packed [(0, 1, 1), (8, 8, 0x1000), (16, 8, 0x77), (56, 8, 0x30), (152, 2, 16), (120, 4, 32),
      (124, 4, 2 + 2 ^ 16 + 4 * 2 ^ 20 + 2 ^ 23)]
    let b := launchPacket
    s.nextLaunch s.slotOrder = some (headOf b, b) ∧ s.residents 0 = [] ∧ (s.core 0).ctx = some 0 ∧ (s.core 1).ctx ≠ some 0 ∧ s.residents 1 = [] ∧
      (takenCores s.sys.fuse (pkShared b)
        (launchCores s.sys.fuse (spotsOf s.sys.fuse (s.shareOf b) ((pkLevels b).getD [])))).contains 0 = true := by
  decide +kernel
/-- DispatchEvents: launches that are over, or wait for an operation, or for a context's end. -/
theorem witness_DispatchEvents_ends :
    let s := launched (base.setG { base.g with launch := 4 })
    let o : State := { base with disp := { base.disp with launches := [{ launch4 with ops := 0 }] } }
    let d : State := { base with ctxs := tblSet {} base.ctxs 3 { exists_ := true, busy := true } }
    (s.launchOf 4 = some launch4 ∧ s.homeQ = [] ∧ launch4.done = 0 ∧ s.launchOver launch4 = false) ∧
      (o.launchOf 4 = some { launch4 with ops := 0 } ∧ o.launchOver { launch4 with ops := 0 } = true) ∧
      ((d.ctx 3).busy = true ∧ d.homeQ = [] ∧ d.sectionsOf 3 = [] ∧ d.disp.queues = [] ∧ (d.ctx 3).devList = [] ∧ (∀ l ∈ d.disp.launches, l.ctx ≠ 3) ∧
        (d.ctx 0).busy = false) := by decide +kernel
/-- DispatchEvents: a task queue at 0xA000 with a task at its head, and what the tail says of a commit and the end. -/
def queued (head tail commit : Nat) (c : List (W64 × W64)) : State :=
  let put (s : State) (a v : Nat) : State := s.writeClean (cellsOf (span (keyPhys a) 8) (leBytes 8 v))
  let s : State := { base with
    g := { base.g with launch := 9, task := .idle }
    disp := { base.disp with launches := [{ taskLaunchRec with id := 9, tq := 0xA000, commits := c }] }
    arrays := [] }
  put (put (put (put (put (put (put s 0x20A000 0xB000) 0x20A008 4) 0x20A010 head) 0x20A018 tail) 0x20A020 commit)
    (0x20B000 + 128) 0x1000) (0x20B000 + 136) 0x55
theorem witness_DispatchEvents_tasks :
    let L : Launch := { taskLaunchRec with id := 9, tq := 0xA000 }
    let ks := span 0x20A000 64
    let s := queued 2 7 3 []
    let c := queued 2 7 3 [(3, 4)]
    let e := queued 7 7 7 []
    ((s.launchOf 9 = some L ∧ L.task = true ∧ s.launchTq L = .keys ks ∧ isPeerKey 0x20A000 = false ∧
        isPeerKey (0x20A000 + 63) = false ∧ s.idlers 9 = [s.g] ∧ s.g.live = true ∧ s.g.handler = false ∧ s.Quiet ∧ s.Alone) ∧
      ((s.tqWord ks 16).toNat < (s.tqWord ks 32).toNat ∧ s.tqSlot ks (s.tqWord ks 16) = 0xB080 ∧
        hwKeys s 0 .load 0xB080 64 = some (span 0x20B080 64) ∧ (∀ x ∈ span 0x20B080 64, isPeerKey x = false) ∧
        s.poison = [] ∧ taskFail (s.bytes (span 0x20B080 64)) = none)) ∧
      findFirst (fun x : W64 × W64 => decide (x.1 = c.tqWord ks 32)) [(3, 4)] = some (c.tqWord ks 32, 4) ∧
      ((L.ended = false ∧ L.commits = [] ∧ e.everyGroup = [e.g] ∧ e.g.launch = 9 ∧ e.g.task = .idle) ∧ e.arrays = [] ∧
        e.tqWord ks 16 = e.tqWord ks 32 ∧ e.tqWord ks 24 = e.tqWord ks 32 ∧ e.g.preempting = false) := by
  unfold State.Quiet State.Alone
  decide +kernel

/-- A command submitted to the mailbox: its code, and its fields by offset, length and value. -/
def told (s : State) (code : Nat) (fields : List (Nat × Nat × Nat)) : State :=
  let put (t : List (Nat × Byte)) (f : Nat × Nat × Nat) : List (Nat × Byte) :=
    tblSetMany 0 t ((from_ f.1 f.2.1).zip (leBytes f.2.1 f.2.2))
  { s with hif := { s.hif with busy := true, pending := true, sub := fields.foldl put (put [] (0, 1, code)) } }
theorem told_command {s : State} {code : Nat} (h : (s.hif.busy && s.hif.pending && s.hif.code == code) = true) :
    s.HasCommand code := by
  simpa [State.HasCommand, and_assoc] using h
/-- MailboxCommands: SET_ID before and after training, and a code that is no command's. -/
theorem witness_Mailbox_id : (told base 1 [(8, 2, 5)]).HasCommand 0x01 ∧ (told base 1 []).fab.trained = false ∧
    (told { base with fab := { base.fab with trained := true } } 1 []).fab.trained = true ∧
    (told base 0x11 []).HasCommand (told base 0x11 []).hif.code ∧
    ¬ (1 ≤ (told base 0x11 []).hif.code ∧ (told base 0x11 []).hif.code ≤ 0x10) ∧ ¬ base.HasCommand 0x01 :=
  ⟨told_command (by decide +kernel), by decide +kernel, by decide +kernel, told_command (by decide +kernel), by decide +kernel,
    by unfold State.HasCommand; decide +kernel⟩
/-- MailboxCommands: CTX_CREATE of a new context, of one that exists or ends, and of a window too large. -/
theorem witness_Mailbox_create :
    let r : State := { base with hif := { base.hif with fringSet := true, fringLog := 4 } }
    let s := told r 2 [(8, 2, 3), (16, 8, 0x4000), (24, 4, 496 + 2 ^ 16 * 16)]
    let d : State := { s with ctxs := tblSet {} s.ctxs 3 { exists_ := true, busy := true } }
    (s.HasCommand 0x02 ∧ (s.ctx 3).busy = false ∧ (s.ctx 3).exists_ = false ∧ s.hif.ringOk = true ∧
        s.hif.arg 8 2 % 1024 = 3 ∧ field (s.hif.arg 24 4) 0 10 + field (s.hif.arg 24 4) 16 10 = 512 ∧
        ¬ ∃ e ∈ s.ctxs, e.2.exists_ = true ∧ 0 < 16 ∧ 0 < e.2.gsize ∧ 496 < e.2.gbase + e.2.gsize ∧ e.2.gbase < 512) ∧
      ((d.ctx 3).busy = true ∧ (base.ctx 0).exists_ = true ∧ (base.ctx 0).busy = false ∧ base.hif.ringOk = false) := by
  unfold State.HasCommand
  decide +kernel
/-- MailboxCommands: CTX_TEARDOWN of no context, of one that ends already, and of one with a group. -/
theorem witness_Mailbox_teardown :
    let s := told base 3 [(8, 2, 0)]
    let d : State := { s with ctxs := tblSet {} s.ctxs 0 { s.ctx 0 with busy := true } }
    (s.HasCommand 0x03 ∧ (s.ctx 0).exists_ = true ∧ (s.ctx 0).busy = false ∧ (∀ e ∈ s.cores, e.2.engRun = [] ∧ e.2.engQ = []) ∧
        s.riddle = [] ∧ s.dampers = [] ∧ s.homeQ = [] ∧ (∀ g ∈ s.groups, g.isSection = false) ∧ (s.ctx 0).savedCores = [] ∧
        (s.everyGroup.map Group.gid).Nodup) ∧
      ((d.ctx 0).exists_ = true ∧ (d.ctx 0).busy = true ∧ (s.ctx 1).exists_ = false) := by
  unfold State.HasCommand
  decide +kernel
/-- MailboxCommands: QUEUE_REG of a good descriptor, and of none; QUEUE_UNREG of a bound queue, and of none; SHOOTDOWN. -/
theorem witness_Mailbox_queues :
    let put (s : State) (a v : Nat) : State := s.writeClean (cellsOf (span (keyPhys a) 8) (leBytes 8 v))
    let s := told (put (put base 0x300000 0x8000) 0x300008 4) 4 [(8, 2, 16383), (16, 8, 0x300000)]
    let u : State := { told base 5 [(8, 2, 7)] with disp := { base.disp with
      queues := [(7, some 0x300000)], slots := [(5, { queue := 7, valid := true })] } }
    (s.HasCommand 0x04 ∧ s.queueDesc 16383 = none ∧ s.queueBad 0x300000 = false ∧ s.queueBad 0x300040 = true) ∧
      (u.HasCommand 0x05 ∧ u.queueDesc 7 = some 0x300000 ∧ (u.slot 5).valid = true ∧ (u.slot 5).queue.toNat = 7 ∧
        base.queueDesc 7 = none) ∧
      ((told base 6 [(8, 2, 0)]).HasCommand 0x06 ∧ ((told base 6 [(8, 2, 0)]).ctx 0).exists_ = true ∧
        ((told base 6 [(8, 2, 1)]).ctx 1).exists_ = false) := by
  unfold State.HasCommand
  decide +kernel
/-- MailboxCommands: RESOLVE of a suspended group's record, for each action, and of a section's. -/
theorem witness_Mailbox_resolve :
    let rec_ (src cause : Nat) (res : Bool) (gid : Nat) : RecLog := ⟨3, src, cause, res, gid, 0⟩
    let s (act : Nat) (r : RecLog) : State :=
      let s := told (base.setG { base.g with suspended := some 9, handler := true }) 7 [(8, 8, 3), (16, 1, act)]
      { s with hif := { s.hif with log := [r] } }
    let x : SecReq :=
      { sender := { dev := base.myId + 1, gid := 1, launch := 0, gidx := 0, thread := 0, ctx := 0, k := 3, pend := 7, tag := 0 }
        entry := 0x1000, lock := 0xC000000000000000, args := [], nres := 0, far := true }
    let g : Group := { unit := .damper 5 0, gid := 9, live := true, n0 := 1, sec := some x, suspended := some 9 }
    let a : State :=
      let s := told { base with g := g, parked := [base.g] } 7 [(8, 8, 3), (16, 1, 3)]
      { s with hif := { s.hif with log := [rec_ 1 0x17 true 9] } }
    (∀ act ∈ [0, 1, 2, 3], ∀ r ∈ [rec_ 0 0x21 true 1, rec_ 0 0x03 false 1],
      (s act r).hif.busy = true ∧ (s act r).hif.pending = true ∧ (s act r).hif.code = 7 ∧ (s act r).g.live = true ∧
        (s act r).recOf ((s act r).hif.arg 8 8) = some r ∧ r.gid = (s act r).g.gid ∧ (s act r).g.suspended.isSome = true ∧
        (s act r).hif.arg 16 1 % 4 = act ∧ ((s act r).ctx r.ctx).exists_ = true ∧ ((s act r).ctx r.ctx).busy = false) ∧
      ((rec_ 0 0x21 true 1).resumable = true ∧ (rec_ 0 0x21 true 1).isNext = true ∧ (rec_ 0 0x03 false 1).resumable = false ∧
        (rec_ 0 0x03 false 1).isNext = false ∧ (rec_ 0 0x21 true 1).src ≠ 1) ∧
      ((a.recOf (a.hif.arg 8 8) = some (rec_ 1 0x17 true 9) ∧ a.g.gid = 9 ∧ a.g.suspended.isSome = true ∧ a.g.isSection = true ∧
        (∀ h ∈ a.parked, h.gid ≠ a.g.gid) ∧ a.g.sec = some x ∧ x.far = true ∧
        a.g.priv = [] ∧ a.g.fences = []) ∧ a.Quiet ∧ a.Alone) := by
  unfold State.Quiet State.Alone
  decide +kernel
/-- MailboxCommands: MIGRATE of the mapped page to another device, and without a ring. -/
theorem witness_Mailbox_migrate :
    let r : State := { base with hif := { base.hif with fringSet := true, fringLog := 4 } }
    let s := told r 8 [(8, 2, 0), (16, 8, 0x2000 + 2 ^ 53 * base.myId), (24, 2, base.myId + 1), (32, 8, 0x40000)]
    s.HasCommand 0x08 ∧ s.migStatus 0 (BitVec.ofNat 64 (s.hif.arg 16 8)) (s.hif.arg 24 2 % 1024) = 0 ∧
      (walkEntry s 4 0 (s.ctx 0).ptroot.toNat ((BitVec.ofNat 64 (s.hif.arg 16 8)).toNat % 2 ^ 53)).isSome = true ∧
      (told base 8 []).migStatus 0 0 0 = 3 := by
  unfold State.HasCommand
  decide +kernel
/-- MailboxCommands: ROUTE_WRITE and GROUP_WRITE, good and bad. -/
theorem witness_Mailbox_tables :
    let s := told base 9 [(8, 2, 1023), (12, 4, 0x9B)]
    let g := told base 0x0A [(8, 2, 4095), (24, 4, 2 ^ 27)]
    let b := told base 0x0A [(24, 4, 2 ^ 28)]
    (s.HasCommand 0x09 ∧ s.routeBad 1023 (s.hif.arg 12 4) = false ∧ s.routeBad 1023 0x8C = true) ∧
      (g.HasCommand 0x0A ∧ g.groupStatus 4095 ((from_ 16 32).map fun k => tblGet 0 g.hif.sub k) = 0 ∧
        b.groupStatus 0 ((from_ 16 32).map fun k => tblGet 0 b.hif.sub k) ≠ 0) := by
  unfold State.HasCommand
  decide +kernel
/-- MailboxCommands: HCOPY in both directions, of a mapped range and of one that is not; and a copy's end. -/
theorem witness_Mailbox_copy :
    let s (d : Nat) : State := told base 0x0B [(8, 8, 0x100), (16, 8, 0x2000), (24, 8, 64), (32, 1, d)]
    let x (h : Bool) : HCopy := ⟨0x100, 0x2000, 64, h, 0, 0⟩
    let c (h : Bool) : State := { base with hif := { base.hif with hcopies := [x h] } }
    (∀ d ∈ [0, 1], (s d).HasCommand 0x0B ∧ (s d).hif.arg 32 1 % 2 = d) ∧
      ((s 1).hostCtx .load 0x2000 64 = some 0 ∧ (s 0).hostCtx .store 0x2000 64 = some 0 ∧ base.hostCtx .load 0x200000 64 = none) ∧
      ((c true).hif.hcopies[0]? = some (x true) ∧ (c false).hif.hcopies[0]? = some (x false) ∧ (x true).counter = 0 ∧
        hwKeys (c true) 0 .load 0x2000 64 = some (span 0x202000 64) ∧ hwKeys (c false) 0 .store 0x2000 64 = some (span 0x202000 64) ∧
        (∀ y ∈ span 0x202000 64, isPeerKey y = false) ∧ (c true).poison = []) ∧ (c true).Quiet ∧ (c true).Alone := by
  unfold State.HasCommand State.Quiet State.Alone
  decide +kernel
/-- MailboxCommands: STUB_FREE, NBR_READ, MIG_ABORT, LINK_RETRAIN and GROUP_DRAIN. -/
theorem witness_Mailbox_rest :
    let f := { told base 0x0C [(8, 8, 0x2000)] with own := { base.own with stubs := [⟨1, 3⟩] } }
    let m (n : Nat) : Mig := { page := 1, ctx := 0, owner := 3, frame := 0, step := n, waiting := 0 }
    let n4 : State := told { base with fab := { base.fab with links := tblSet {} base.fab.links 4 { base.flink 4 with st := .up16, nbr := some (9, 2) } } } 0x0F [(8, 1, 4)]
    let a (n : Nat) : State := { told base 0x0E [(8, 2, 0), (16, 8, 0x2000)] with own := { base.own with migs := [m n] } }
    let e : MGroup := { v := true, ov := true, oldVer := 3, root := BitVec.ofNat 10 base.myId }
    let c : Mcast := { id := 1, group := 7, ver := 3, parent := none, op := 0, ports := [0], ok := 0, fail := 0, first := 0xFFFF }
    let g (l : List Mcast) : State := { told base 0x10 [(8, 2, 7)] with fab := { base.fab with groups := [(7, e)], mcasts := l } }
    (f.HasCommand 0x0C ∧ (∃ x ∈ f.own.stubs, onPage x.page (BitVec.ofNat 64 (f.hif.arg 8 8)) = true)) ∧
      (told base 0x0D [(8, 8, 0x100)]).HasCommand 0x0D ∧
      (∀ n ∈ [2, 3], (a n).HasCommand 0x0E ∧
        findFirst (fun m : Mig => m.ctx == 0 && onPage m.page (BitVec.ofNat 64 ((a n).hif.arg 16 8))) (a n).own.migs = some (m n)) ∧
      (a 2).own.held = [] ∧ (a 2).dampers = [] ∧
      ((told base 0x0F [(8, 1, 11)]).HasCommand 0x0F ∧ (base.flink 11).st ≠ .absent) ∧
      (n4.HasCommand 0x0F ∧ (n4.flink 4).up = true ∧ (n4.flink 4).nbr = some (9, 2) ∧ (n4.flink 4).st ≠ .absent) ∧
      ((g []).HasCommand 0x10 ∧ ((g []).mgroup 7).v = true ∧ ((g []).mgroup 7).root.toNat = base.myId ∧
        ((g [c]).fab.mcasts.any fun m => m.group == 7 && decide (m.ver = ((g [c]).mgroup 7).oldVer)) = true ∧
        ((g [c]).mgroup 7).ov = true ∧ (base.mgroup 7).v = false) := by
  unfold State.HasCommand
  decide +kernel

/-! ## Witnesses for the events of the fabric. -/

/-- Device 0 with link 3 up, and a route to device 5 over it; a packet stands at the router's input. -/
def linkUp : FLink := { st := .up16, rxExp := 7, txSeq := 9 }
def onNet (p : Packet) : State :=
  { base with fab := { base.fab with
    devId := some 0, routes := [(5, { port := 3, hops := 1, v := true })], links := [(3, linkUp)], outbox := [p] } }
/-- A request of device 5 to a page of device 0, and one to a page whose anchor is another device. -/
def asks : Packet := { dst := 0, src := 5, unit := 3, seqn := 44, addr := 0x2048, opnd := 0xF5, data := List.replicate 16 0xAA }
def strays : Packet := { asks with addr := 0x0020000000002048 }
/-- MemoryEvents: a window with one update, and one with two. -/
theorem witness_combineWindow :
    let p : Packet := { asks with dst := 5, src := 0 }
    let w (l : List Packet) : Window := { addr := p.addr, parts := l, sent := none, answers := [] }
    let s (l : List Packet) : State := { onNet p with fab := { (onNet p).fab with combine := [w l] } }
    (∀ l ∈ [[], [p]], (s (p :: l)).fab.combine = [w (p :: l)] ∧ (s (p :: l)).fab.heldTx = [] ∧ (w (p :: l)).sent = none ∧ (s (p :: l)).Leaves p 3) ∧
      p.hop = 0 := by
  unfold State.Leaves
  decide +kernel
/-- FabricEvents: a page that moves; a page that is not here; a page that is. -/
theorem witness_FabricEvents_requests :
    let m : State := (onNet asks).writeClean (cellsOf (span 0x8000 8) (leBytes 8 (0x200067 + 16)))
    ((m.ownLeaf asks.addr).map (·.mig) = some true ∧ m.own.refused = [] ∧ m.own.held.length < 1024) ∧
      ((onNet strays).ownLeaf strays.addr = none ∧ anchorOf strays.addr ≠ (onNet strays).myId ∧ (onNet strays).own.stubs = []) ∧
      ∃ l, (onNet asks).AtOwner asks l ∧ (∀ j, j < asks.data.length → isPeerKey (leafKey l asks.addr + j) = false) ∧
        (∀ j, j < 64 → isPeerKey (64 * lineOf ((lineKeys l asks.addr).headD 0) + j) = false) ∧
        ∀ g ∈ (onNet asks).groups, g.block = none := by
  refine ⟨by decide +kernel, by decide +kernel, _, ⟨rfl, ?_⟩, by decide +kernel, by decide +kernel, by decide +kernel⟩
  decide +kernel
/-- FabricEvents: an atomic that has been done already, and one that has not. -/
theorem witness_FabricEvents_atomics :
    let f : FiltEnt := { alu := 7, tag := tagOf asks, val := 9, psn := false }
    let d (s : State) : State := { s with fab := { s.fab with filter := [f] } }
    let q : Packet := { asks with data := [BitVec.ofNat 8 AtomOp.cas.code, 1, 0, 0] }
    findFirst (fun e : FiltEnt => decide (e.tag = tagOf asks)) (d (onNet asks)).fab.filter = some f ∧
      (onNet q).fab.filter = [] ∧ (onNet q).filterFull 7 = false ∧ q.data.getD 3 0 = 0 ∧
      q.data.getD 2 0 = 0 ∧ (onNet q).poison = [] ∧
      ∃ l, (onNet q).AtOwner q l ∧ ∀ x ∈ span (leafKey l q.addr) 8, isPeerKey x = false := by
  refine ⟨by decide +kernel, by decide +kernel, by decide +kernel, by decide +kernel, by decide +kernel, by decide +kernel, _,
    ⟨rfl, ?_⟩, by decide +kernel⟩
  decide +kernel
/-- FabricEvents: invalidations, conditional and not, of a shared line and of one held alone; a SHIP request. -/
theorem witness_FabricEvents_invals :
    let q : Packet := { asks with typ := 6, data := leBytes 8 5 }
    let h (x : Bool) : State := { onNet asks with own := { base.own with
      peers := [(asks.addr.toNat / 64, { held := true, excl := x, dirty := 6 })] } }
    (isMarked q = true ∧ (onNet q).own.held.length < 1024) ∧
      (isMarked asks = false ∧ (tblGet {} (h false).own.peers (asks.addr.toNat / 64)).wb = false ∧ (tblGet {} (h false).own.peers (asks.addr.toNat / 64)).excl = false ∧
        (tblGet {} (h true).own.peers (asks.addr.toNat / 64)).excl = true ∧ (∀ e ∈ (h true).cores, e.2.narrow = []) ∧
        ({ h true with own := { (h true).own with
          peers := [(asks.addr.toNat / 64, { held := true, excl := true, dirty := 0 })] } } : State).own.pubs = []) ∧
      (anchorOf strays.addr ≠ (onNet strays).myId ∧ anchorOf asks.addr = (onNet asks).myId) ∧
      ((onNet asks).ownLeaf asks.addr).isSome = true ∧
      (let x := (onNet asks).damper ((onNet asks).homeDamper (shipHash asks))
       x.closed = [] ∧ x.queue.length < 4096 ∧ x.refusal = []) := by decide +kernel
/-- FabricEvents: a multicast of 16 bytes for this device alone. -/
theorem witness_FabricEvents_mcast :
    let q : Packet := { asks with addr := 0x40 * 2 ^ 12 + 3, opnd := 0, data := List.replicate 16 0xAA, aux := 6 }
    let e : MGroup := { ver := 6, loc := true, v := true, dst := 0x2000, dlen := 100, mapv := true }
    let s : State := { onNet q with fab := { (onNet q).fab with groups := [(3, e)] } }
    (e.root.toNat = s.myId ∨ q.aux = e.ver) ∧ s.fab.mcasts = [] ∧ s.mgroup (mcGroup q) = e ∧ e.v = true ∧ e.ports = 0 ∧ e.loc = true ∧
      s.mcKeys e q = some (span 0x202040 q.data.length) ∧
      (∀ j, j < q.data.length → isPeerKey (0x202040 + j) = false) ∧ s.Quiet ∧ s.Alone := by
  refine ⟨by decide +kernel, by decide +kernel, by decide +kernel, by decide +kernel, by decide +kernel, by decide +kernel,
    by rfl, by decide +kernel, ?_⟩
  unfold State.Quiet State.Alone
  decide +kernel
/-- A request of device 0 that waits for its answer, and the answer at the router's input. -/
def waits (use : ReqFor) (q p : Packet) : State :=
  { onNet p with fab := { (onNet p).fab with reqs := [{ tag := replyTag p, pkt := q, use := use, sent := true }] } }
/-- FabricEvents: answers that nothing waits for, and answers to each kind of request. -/
theorem witness_FabricEvents_answers :
    let q : Packet := { dst := 5, src := 0, unit := 3, seqn := 44, addr := 0x0020000000002048, typ := 1 }
    let line := q.addr.toNat / 64
    let page := (onNet asks).pageBase q.addr
    let c : Packet := { asks with data := [0] }
    (onNet asks).reqOf (replyTag asks) = none ∧ isAtomAck asks = false ∧ (isAtomAck c = true ∧ (onNet c).fab.combine = []) ∧
      (∀ u ∈ [ReqFor.owner page, .fill line, .none, .element 3 3], ∃ r : Req, (waits u q asks).fab.reqs = [r] ∧
        r.tag = replyTag asks ∧ r.use = u ∧ (waits u q asks).fab.combine = [] ∧ r.pkt = q ∧
        r.asked = false ∧ r.pkt.cls = 0 ∧ r.again = false) ∧
      asks.redir = false ∧ (anchorOf q.addr ≠ base.myId ∧ isMarked q = false) ∧ (waits (.owner page) q asks).pageBase page = page ∧
      (waits (.fill line) q asks).own.held = [] ∧ (∀ g ∈ (waits .none q asks).groups, g.block ≠ some (.peer waitPage)) :=
  ⟨by decide +kernel, by decide +kernel, by decide +kernel,
    fun u _ => ⟨{ tag := replyTag asks, pkt := _, use := u, sent := true }, rfl, rfl, rfl, rfl, rfl, rfl, rfl, rfl⟩,
    by decide +kernel, by decide +kernel, by decide +kernel, by decide +kernel, by decide +kernel⟩
/-- FabricEvents: an answer to the last port of a multicast, and to one of two; a section's result. -/
theorem witness_FabricEvents_results :
    let q : Packet := { dst := 5, src := 0, unit := 3, seqn := 44 }
    let m (l : List Nat) : Mcast :=
      { id := 4, group := 0, ver := 9, parent := some q, op := 0, ports := l, ok := 3, fail := 0, first := 0xFFFF }
    let s (l : List Nat) : State :=
      { waits (.mcast 4 2) q asks with fab := { (waits (.mcast 4 2) q asks).fab with mcasts := [m l] } }
    let x : SecReq :=
      { sender := { dev := 0, gid := base.g.gid, launch := 4, gidx := 3, thread := 7, ctx := 0, k := 2, pend := 0, tag := 0 }
        entry := 0x1000, lock := 0x40, args := [], nres := 0 }
    let t : State := (waits (.ship x) q asks).setG (base.g.kSet 2 { kind := .sect, pending := true, left := 2 })
    ((s [2]).fab.mcasts = [m [2]] ∧ (m [2]).ports = [2] ∧ (s [2]).fab.reqs.length = 1 ∧
        (m [2, 7]).ports.filter (fun y => y != 2) = [7]) ∧
      (asks.redir = false ∧ x.nres = 0 ∧ x.sender.gid = t.g.gid ∧ t.g.live = true ∧ t.g.pend = [] ∧
        (t.g.kGet 2).pending = true ∧ (t.g.kGet 2).kind = .sect ∧ (t.fab.reqs.map Req.use) = [.ship x]) := by decide +kernel
/-- FabricEvents: the Stoker's messages, markers, and packets to forward. -/
theorem witness_FabricEvents_router :
    let g (op : Nat) : Packet := { asks with
      typ := 0x30, cls := 2, addr := 0x40001, data := ({ op := op, page := 0x40001, a := 9 } : Msg).bytes }
    let o : Packet := { asks with dst := 5, src := 0, typ := 1 }
    let h : State := { onNet asks with fab := { (onNet asks).fab with heldTx := [o], markers := [5, 6] } }
    let r : Packet := { o with hop := 7 }
    let z : State := { onNet r with fab := { (onNet r).fab with outbox := [], relay := [r, r] } }
    (∀ op ∈ [3, 5, 10, 11], (g op).typ = 0x30 ∧ (g op).cls = 2 ∧ mgmtAnswer (g op) = false ∧ (msgOf (g op)).op = op) ∧
      ((onNet asks).fab.heldTx = [] ∧ h.fab.combine = [] ∧ combinable o = false ∧ h.fab.heldTx = [o] ∧
        o.dst.toNat = ({ asks with addr := 5 } : Packet).addr.toNat ∧
        ({ h with fab := { h.fab with markers := [] } } : State).Leaves o 3) ∧
      (o ∈ (onNet o).fab.outbox ∧ (onNet o).fab.combine = [] ∧ combinable o = false ∧ (onNet o).Leaves o 3) ∧
      (r ∉ z.fab.outbox ∧ r ∈ z.fab.relay ∧ z.fab.combine = [] ∧ combinable r = false ∧ r.hop = 7 ∧ r.cls = 0) := by
  unfold State.Leaves
  decide +kernel
/-- FabricEvents: a migration at each of its steps, of a page whose anchor is here and of one whose anchor is not. -/
theorem witness_FabricEvents_migrations :
    let m (n page : Nat) : Mig := { page := BitVec.ofNat 64 page, ctx := 0, owner := 6, frame := 0x600000, step := n, waiting := 0 }
    let s (x : Mig) : State := { onNet asks with own := { base.own with migs := [x] } }
    (∀ n ∈ [0, 1, 3, 4], ∀ page ∈ [1, 0x0020000000000001], (s (m n page)).own.migs = [m n page] ∧
        (m n page).waiting = 0 ∧ ((s (m n page)).entryOf (m n page).ctx (BitVec.ofNat 64 page)).isSome = true) ∧
      (let t := s (m 1 1)
       t.fab.reqs = [] ∧ t.own.sharers = [] ∧ t.own.excl = [] ∧
         t.own.invq = [] ∧ ∀ e ∈ t.cores, e.2.narrow = []) ∧
      6 ≠ base.myId ∧ anchorOf 0x0020000000000001 ≠ (onNet asks).myId := by decide +kernel
/-- FabricEvents: a reclamation that starts, one whose members have all answered, and one of which a member failed. -/
theorem witness_FabricEvents_reclaims :
    let r (b : Bool) (f : Option Nat) : Reclaim :=
      { page := 0x200001, old := 6, members := [3, 9], started := b, waiting := [], failed := f }
    let s (x : Reclaim) : State := { base with own := { base.own with reclaims := [x] } }
    (∀ x ∈ [r false none, r true none, r true (some 3)], (s x).own.reclaims = [x] ∧ x.page = 0x200001 ∧ x.waiting = [] ∧
        x.old ≠ (s x).myId) ∧
      let q : Packet := { asks with typ := 6, addr := 0x200001, data := leBytes 8 6 }
      let y : State := { onNet asks with own := { base.own with held := [q] } }
      let e : Req := { tag := 1, pkt := { strays with typ := 1, dst := 6, addr := 0x200001 }, use := .none, sent := true }
      (findFirst (isCond 0x200001 6) (onNet q).fab.outbox = some q ∧ (onNet q).own.held.length < 1024) ∧
        findFirst (isCond 0x200001 6) y.own.held = some q ∧ y.fab.reqs = [] ∧
        pageReq e.pkt = true ∧ e.sent = true ∧ e.pkt.dst.toNat = 6 ∧ onPage 0x200001 e.pkt.addr = true := by decide +kernel

/-! ## Witnesses for the events of the links, of the system and of errors. -/

/-- A device whose link 3 is given. -/
def linked (l : FLink) : State := { base with fab := { base.fab with devId := some 0, links := [(3, l)] } }
/-- The flit of a packet without payload, under a number. -/
def oneFlit (p : Packet) (seq : Nat) (last : Bool) : List Byte :=
  flitBytes (leBytes 64 (headerNum p)) (BitVec.ofNat 16 seq) 0 last false false 0
/-- LinkEvents: flits that are in order, repeated, missed and broken; an acknowledgement. -/
theorem witness_LinkEvents_flits :
    let p : Packet := { dst := 0, src := 5, unit := 3, seqn := 44, addr := 0x2048, typ := 1 }
    let e (b : List Byte) : Nat := leNat ((b.drop 64).take 5)
    let good (b : List Byte) : Bool := b.length == 72 && crc24 (b.take 69) == leNat (b.drop 69)
    let a := flitBytes [] 0 7 false true false 2
    (∀ b ∈ [oneFlit p 7 true, oneFlit p 7 false, oneFlit p 6 true, oneFlit p 8 true], good b = true ∧
        (e b / 2 ^ 20) % 2 = 0 ∧ (e b / 2 ^ 21) % 2 = 0 ∧ field (e b) 16 3 = 0) ∧
      (BitVec.ofNat 16 (e (oneFlit p 7 true)) = linkUp.rxExp ∧ linkUp.rxFlits = [] ∧ linkUp.unacked < 31 ∧ linkUp.txq = [] ∧
        packetFrom [(oneFlit p 7 true).take 64] = some p ∧ e (oneFlit p 7 true) / 2 ^ 19 % 2 = 1 ∧
        e (oneFlit p 7 false) / 2 ^ 19 % 2 = 0) ∧
      ((linkUp.rxExp - BitVec.ofNat 16 (e (oneFlit p 6 true))).toNat = 1 ∧
        1024 < (linkUp.rxExp - BitVec.ofNat 16 (e (oneFlit p 8 true))).toNat ∧ good ((oneFlit p 7 true).take 71) = false) ∧
      (good a = true ∧ field (e a) 16 3 = 7 ∧ e a / 2 ^ 20 % 2 = 1 ∧ e a / 2 ^ 21 % 2 = 0) ∧
      (linkUp.up = true ∧ linkUp.retraining = false) := by decide +kernel
/-- LinkEvents: links with packets unacknowledged, with an acknowledgement due, and down. -/
theorem witness_LinkEvents_timers :
    let r : FLink := { linkUp with replay := [(8, asks)], ackDue := true }
    ((linked r).flink 3 = r ∧ r.up = true ∧ r.retraining = false ∧ r.replay ≠ [] ∧ r.ackDue = true) ∧
      (linked linkUp).flink 3 = linkUp ∧ linkUp.replay = [] ∧ linkUp.ackDue = false ∧ linkUp.nak = false ∧
      ((linked {}).flink 3).up = false := by decide +kernel
/-- LinkEvents: time limits of requests, of packets held, and of a multicast's child. -/
theorem witness_LinkEvents_limits :
    let q : Packet := { asks with dst := 5, src := 0, typ := 2 }
    let r (u : ReqFor) (b : Bool) : Req := { tag := tagOf q, pkt := q, use := u, sent := b }
    let s (x : Req) : State := { linked linkUp with fab := { (linked linkUp).fab with reqs := [x] } }
    let h : State := { linked linkUp with own := { base.own with held := [asks] } }
    let m : Mcast := { id := 4, group := 0, ver := 9, parent := some asks, op := 0, ports := [2], ok := 3, fail := 0, first := 0xFFFF }
    let c : State := { linked linkUp with fab := { (linked linkUp).fab with mcasts := [m] } }
    ((linked linkUp).reqOf 5 = none ∧ (∀ x ∈ [r .none false, r (.mgmt 3 0x40001) true, r (.fill 0x81) true],
        (s x).fab.reqs = [x] ∧ x.tag = tagOf q ∧ (s x).fab.combine = []) ∧ q.cls = 0 ∧ isMarked q = false ∧
        (r (.fill 0x81) true).wait = false) ∧
      (h.heldList[0]? = some asks ∧ h.heldList[1]? = none ∧ asks.cls = 0) ∧
      (c.fab.mcasts = [m] ∧ m.ports.contains 3 = false ∧ m.ports = [2] ∧ m.parent = some asks) := by decide +kernel
/-- LinkEvents: training of a link that is down, with good and bad lanes, and with a neighbour that another port has. -/
theorem witness_LinkEvents_training :
    let d : FLink := { st := .down }
    let x : State := { linked d with fab := { (linked d).fab with links := [(3, d), (4, { nbr := some (9, 1) })] } }
    ((linked d).flink 3 = d ∧ (linked d).fab.devId ≠ none ∧ d.byHost = false ∧ d.txq = []) ∧
      (∀ b ∈ [0, 0x8000, 1, 0x101], (b % 256 = 0 ∨ b / 256 = 0) ↔ b ≠ 0x101) ∧
      ((linked d).nbrConflict 3 9 = false ∧ x.nbrConflict 3 9 = true ∧ (x.flink 3).st = .down) ∧
      (base.fab.devId = none ∨ (linked linkUp).flink 3 = linkUp) := by decide +kernel
/-- LinkEvents: the exchange of neighbours, without and with a conflict, on a link with nothing to replay. -/
theorem witness_LinkEvents_exchange :
    let q : Packet := { dst := 0, src := 9, unit := 3, typ := 0x32, cls := 2, data := leBytes 8 (9 + 2 ^ 16 * 1) }
    let x : State := { linked linkUp with fab := { (linked linkUp).fab with links := [(3, linkUp), (4, { nbr := some (9, 1) })] } }
    q.typ = 0x32 ∧ q.unit.toNat = 3 ∧ field (leNat (q.data.take 8)) 0 10 = 9 ∧ (linked linkUp).nbrConflict 3 9 = false ∧
      x.nbrConflict 3 9 = true ∧ (x.flink 3).up = true ∧ (x.flink 3).replay = [] ∧ (x.flink 3).txq = [] := by decide +kernel
/-- LinkEvents: a lane that fails on a link of 16, of 8 and not in use; retraining that does not end; die links. -/
theorem witness_LinkEvents_lanes :
    let h (l : List (BitVec 16 × Packet)) : FLink := { st := .up8, half := true, replay := l }
    let r (b : Bool) (x : LinkSt) : FLink := { st := x, retraining := true, byHost := b }
    let s : State := { linked linkUp with sys := { base.sys with errThresh := 5, dlinks := [(19, (.half, true))] } }
    let q : Packet := { asks with dst := 5, src := 0 }
    ((s.flink 3).st = .up16 ∧ s.sys.errThresh ≠ tblGet 0 s.sys.errcnt 3 + 1 ∧ tblGet 0 s.sys.errcnt 3 ≠ 0xFFFFFFFF ∧
        (h []).laneLive 0 = false) ∧
      ((h []).half = decide (8 ≤ 15) ∧ (h []).byHost = false ∧ (h [(8, q)]).replay = [(8, q)] ∧ (h [(8, q)]).txq = [] ∧ q.cls = 0) ∧
      ((r false .up8).up = true ∧ (r true .up8).up = true ∧ (r false .down).up = false ∧ linkUp.retraining = false) ∧
      ((s.sys.dlink 0).1 = .full ∧ (s.sys.dlink 19).1 = .half ∧ (s.sys.dlink 19).2 = decide (8 ≤ 15) ∧
        (s.sys.dlink 19).2 ≠ decide (8 ≤ 7) ∧ s.sys.errThresh ≠ tblGet 0 s.sys.errcnt 2 + 1 ∧
        tblGet 0 s.sys.errcnt 2 ≠ 0xFFFFFFFF) := by decide +kernel
/-- SystemEvents: the aperture within memory, and past its end. -/
theorem witness_SystemEvents_aperture :
    let s : State := { base with hif := { base.hif with apbase := 0x200000 } }
    let p : State := s.poisonWords [0x2FFFF8 / 8]
    let o : State := { base with hif := { base.hif with apbase := 0xFFFFFFFFFFFF0000 } }
    (s.apKeys 0xFFFF8 8 = some (span 0x2FFFF8 8) ∧ s.poison = [] ∧ p.apKeys 0xFFFF8 8 = some (span 0x2FFFF8 8) ∧
        p.psn 0x2FFFF8 = true ∧ o.apKeys 0 8 = none) ∧ (s.Quiet ∧ s.Alone) ∧ p.Quiet ∧ p.Alone := by
  unfold State.Quiet State.Alone
  decide +kernel
/-- SystemEvents: a write of the host's that waits for a page that moves, and ready bits behind it. -/
theorem witness_SystemEvents_queue :
    let m : Mig := { page := 0, ctx := 0, owner := 6, frame := 0x600000, step := 2, waiting := 0 }
    let ks := span 0x203000 1
    let b : State := base.writeClean (cellsOf (span 0x8000 8) (leBytes 8 (0x200067 + 16)))
    let s : State := { b with own := { b.own with migs := [m] }, hif := { b.hif with hostQ := [.write ks [7]] } }
    s.hif.hostQ = [.write ks [7]] ∧ s.homeQ = [] ∧ s.hostWait true ks = .stay ∧ base.hif.hostQ = [] := by
  refine ⟨by decide +kernel, by decide +kernel, by rfl, by decide +kernel⟩
/-- SystemEvents: writes to the doorbells and to the snapshot trigger. -/
theorem witness_SystemEvents_writes :
    (base.sys.boot = .running ∧ base.hif.busy = false ∧ (told base 1 []).hif.busy = true ∧ base.sys.attBusy = false ∧
        ({ base with sys := { base.sys with attBusy := true } } : State).sys.attBusy = true) ∧
      (let s : State := { base with sys := { base.sys with snapCtl := 1 } }
       s.sys.snapCtl.getLsbD 0 = true ∧ s.sys.snapPend = [] ∧ base.sys.snapCtl.getLsbD 0 = false ∧
         base.sys.snapMissed ≠ 0xFFFFFFFF ∧
         (let c (n : W64) : State := { s with sys := { s.sys with snapPend := [(n, 2, some 7)] } }
          (c s.sys.cycle).sys.snapPend = [((c s.sys.cycle).sys.cycle, 2, some 7)] ∧ (c 5).sys.snapPend = [(5, 2, some 7)] ∧
            (c 5).sys.cycle ≠ 5)) ∧
      (State.reset.sys.boot ≠ .running) := by decide +kernel
/-- SystemEvents: a record that waits, with room for it, with the ring full, and with no ring. -/
theorem witness_SystemEvents_records :
    let r : Record := { words := [0x305, 2, 3, 0xFFFFFFFFFFFFFFFF], log := none }
    let s (w : W64) : State := { base with hif := { base.hif with
      records := [r], fringSet := true, fringLog := 4, fringBase := 0x1000, fringWptr := w, fringRptr := 2 } }
    ((s 17).hif.records = [r] ∧ r.words.length = 4 ∧ (s 17).hif.ringOk = true ∧
        ((s 17).hif.fringWptr - (s 17).hif.fringRptr).toNat < 2 ^ (s 17).hif.fringLog.toNat) ∧
      ¬ ((s 18).hif.fringWptr - (s 18).hif.fringRptr).toNat < 2 ^ (s 18).hif.fringLog.toNat ∧ base.hif.ringOk = false := by
  decide +kernel
/-- SystemEvents: each step of booting, and a machine that does not boot. -/
theorem witness_SystemEvents_boot :
    let s (n : Nat) (ok : Bool) (v m : Nat) : State := { State.reset with sys := { State.reset.sys with
      bootStep := n, image := { State.reset.sys.image with sigOk := ok, svn := BitVec.ofNat 32 v }
      fuse := { State.reset.sys.fuse with minSvn := BitVec.ofNat _ m } } }
    (∀ n ∈ [1, 2, 3, 4, 5], (s n true 3 3).sys.powered = true ∧ (s n true 3 3).sys.boot ≠ .running ∧
        (s n true 3 3).sys.boot ≠ .failed ∧ (s n true 3 3).sys.bootStep = n) ∧
      ((s 2 false 3 3).sys.image.sigOk = false ∧
        (s 2 true 3 4).sys.image.svn.toNat < (s 2 true 3 4).sys.fuse.minSvn.toNat ∧
        (s 2 true 3 3).sys.fuse.minSvn.toNat ≤ (s 2 true 3 3).sys.image.svn.toNat) ∧
      base.sys.boot = .running := by decide +kernel
/-- ErrorCounters: a correctable error at the threshold, one below it, one saturated; another kind of error. -/
theorem witness_ErrorCounters :
    let e : ErrInfo := { kind := 15, correctable := true, die := 0, inst := 0, addr := 0, tag := 0, words := [] }
    let f : ErrInfo := { e with kind := 255, words := [.mem 0x40000, .l1 0 3 7, .narrow 0 5, .packet 0 1] }
    let s (c : W32) : State := { base with sys := { base.sys with errThresh := 5, errcnt := [(15, c)] } }
    (e.correctable = true ∧ e.kind < 16 ∧ tblGet 0#32 (s 4).sys.errcnt 15 + 1 = (s 4).sys.errThresh ∧
        15 ∉ (s 4).sys.reported ∧ tblGet 0#32 (s 3).sys.errcnt 15 + 1 ≠ (s 3).sys.errThresh ∧
        tblGet 0#32 (s 0xFFFFFFFF).sys.errcnt 15 = 0xFFFFFFFF) ∧
      (16 ≤ f.kind ∧ f.kind < 256 ∧ BadWord.mem 0x40000 ∈ f.words) := by decide +kernel

/-! ## Witnesses for the statements about steps and encodings. -/

/-- StepRunsDecoded: a word of code at the pc, a unit that may issue, and an event. -/
theorem witness_StepRunsDecoded :
    let s : State := { code [0x1FE0000C] with sched := [.unit (code [0x1FE0000C]).g.unit] }
    fetchWord s (s.g.pc + BitVec.ofNat 64 (4 * 0)) = .word (BitVec.ofNat 32 0x1FE0000C) ∧
      decode ([0x1FE0000C].flatMap wordBytes ++ []) = .ok (.clause 0 none none false false false, []) ∧
      (s.sys.powered = true ∧ s.g.mayIssue = true ∧ s.unitOn s.g.unit = true ∧ s.atFirmware = false ∧ s.g.atEntry = false) ∧
      (({ code [0x1FE0000C] with sched := [] } : State).tick.front = .instr (.clause 0 none none false false false)) ∧
      (({ code [0x000001FC] with sched := [] } : State).tick.front = .illegal) := by
  refine ⟨by rfl, by rfl, by decide +kernel, by rfl, by rfl⟩
/-- RoundTrip: an instruction of one word, and one of two. -/
theorem witness_RoundTrip :
    wellFormed (.brc .eq 5 9 0x0C) = true ∧ encode (.brc .eq 5 9 0x0C) = [0x08048A15, 0x0000000C] ∧
      wellFormed (.add 5 5 (.r1 6)) = true ∧ encode (.add 5 5 (.r1 6)) = [0x00C28A44] := by decide +kernel
/-- StepKeepsWf: the state after reset, and a state with memory and a step to take. -/
theorem witness_StepKeepsWf :
    State.reset.wf = true ∧ base.wf = true ∧ ∃ t, step State.reset = .next t :=
  ⟨by decide +kernel, by decide +kernel, _, rfl⟩

end Sys2Proof.Tests
end

section
/-!
SUPPORT. Entering an exception when nothing of the group's is on its way (10 R217 to R219): the operations that wait for
outstanding work change nothing, and what `raise` and `raiseAt` then answer.
-/
namespace Sys2Proof.Machine

/-- A table's value is its default or that of an entry. -/
theorem tblGet_default_or_mem {α : Type} (d : α) (t : List (Nat × α)) (k : Nat) :
    tblGet d t k = d ∨ ∃ e ∈ t, tblGet d t k = e.2 := by
  induction t with
  | nil => exact .inl rfl
  | cons e t ih =>
    obtain ⟨a, v⟩ := e
    unfold tblGet
    split
    · exact .inr ⟨(a, v), List.mem_cons_self .., rfl⟩
    · exact ih.imp_right fun ⟨e, he, h⟩ => ⟨e, List.mem_cons_of_mem _ he, h⟩

/-- An access at a core's port is one of a listed core's. -/
theorem State.mem_bankQ_core {s : State} {c : Nat} {a : BankAcc} (h : a ∈ (s.core c).bankQ) :
    ∃ e ∈ s.cores, a ∈ e.2.bankQ := by
  unfold State.core at h
  rcases tblGet_default_or_mem {} s.cores c with hd | ⟨e, he, hd⟩ <;> rw [hd] at h
  · cases h
  · exact ⟨e, he, h⟩

theorem State.drainHome_of_empty {s : State} (h : s.homeQ = []) (p : HomeOp → Bool) : s.drainHome p = s := by
  simp [State.drainHome, h]

theorem State.settle_of_empty {s : State} (h : s.homeQ = []) (ks : List Nat) : s.settle ks = s :=
  State.drainHome_of_empty h _

/-- No update or load of a settled group's stands at a core's port. -/
theorem State.Settled.bankQ_none {s : State} (h : s.Settled) (c : Nat) :
    ((s.core c).bankQ.any fun a => a.gid == s.g.gid && (a.op.isSome || a.load.isSome)) = false := by
  obtain ⟨-, -, hbank⟩ := h
  rw [List.any_eq_false]
  intro a ha
  obtain ⟨e, he, hae⟩ := State.mem_bankQ_core ha
  by_cases hg : a.gid = s.g.gid
  · obtain ⟨hop, hload⟩ := hbank e he a hae hg
    simp [hop, hload]
  · simp [hg]

theorem State.Settled.settleGroup_own {s : State} (h : s.Settled) : s.settleGroup s.g.gid = s := by
  unfold State.settleGroup
  rw [State.drainHome_of_empty h.1]
  dsimp only
  split
  · rfl
  · next c _ => simp [h.bankQ_none c]

theorem State.Settled.settleOwn {s : State} (h : s.Settled) : s.settleOwn = s := by
  have hloads : s.g.loads = [] := h.2.1
  simp [State.settleOwn, h.settleGroup_own, hloads]

/-- With no pending result nothing is written back. -/
theorem Group.writebackAll_of_noPend {g : Group} (h : g.pend = []) : g.writebackAll = g := by
  simp [Group.writebackAll, h, Group.retirePends, Group.clearPends]

theorem State.MayTrap.onCore {s : State} (h : s.MayTrap) : s.g.OnCore := h.1
theorem State.MayTrap.noPend {s : State} (h : s.MayTrap) : s.g.pend = [] := h.2.2.1

theorem State.MayTrap.writeback {s : State} (h : s.MayTrap) : s.writeback = s := by
  obtain ⟨-, -, hpend, hset⟩ := h
  simp only [State.writeback, hset.settleOwn, Group.writebackAll_of_noPend hpend]
  rfl

/-- Nothing stands before handler entry. -/
theorem State.MayTrap.entering {s : State} (h : s.MayTrap) (k : State → Out) : s.entering k = k s := by
  simp [State.entering, h.writeback, h.noPend, Group.poisonDue, findFirst]

/-- The snapshot trigger of a trap touches only the record of triggers. -/
theorem State.trapSnap_eq (s : State) (cause : Nat) :
    ∃ p n, s.trapSnap cause = { s with sys := { s.sys with snapPend := p, snapMissed := n } } := by
  unfold State.trapSnap State.fireSnap
  split
  · split <;> exact ⟨_, _, rfl⟩
  · exact ⟨_, _, rfl⟩

/-- A trap of a group on a core, outside handler mode, enters handler mode (10 R219). -/
theorem State.MayTrap.takes_trap {s : State} (h : s.MayTrap) (v : TrapV) : Takes s s.g (.next (s.trap v)) v := by
  obtain ⟨hcore, hhandler, hpend, -⟩ := h
  obtain ⟨p, n, hsnap⟩ := s.trapSnap_eq v.cause
  have ht : s.trap v = ({ s with sys := { s.sys with snapPend := p, snapMissed := n } } : State).setG
      { ((s.g.setTrap v false).mSet 0 s.g.present) with
        handler := true, pc := s.sys.tvec, block := none, atEntry := false
        preempting := s.g.preempting && v.cause != 0x20 } := by
    unfold State.trap
    rw [Group.writebackAll_of_noPend hpend, show s.setG s.g = s from rfl, hsnap]
    simp only [show s.g.isSection = false from hcore, hhandler]
    rfl
  rw [ht]
  refine ⟨_, rfl, rfl, rfl, rfl, rfl, rfl, rfl, rfl, rfl, rfl, fun r => ?_, rfl, fun _ => ⟨rfl, rfl⟩, rfl⟩
  calc ((s.g.setTrap v false).mSet 0 s.g.present).mGet r
      = if r = 0 then (if (0 : MReg) = 0 then s.g.present &&& s.g.present else s.g.present) else s.g.mGet r :=
        Group.mGet_mSet _ _ _ _
    _ = if r = 0 then s.g.present else s.g.mGet r := by simp

/-- An exception of a uniform instruction is taken at once; it names no thread (10 R217). -/
theorem State.MayTrap.takes_raise {s : State} (h : s.MayTrap) (cause : Nat) (addr info : W64) :
    Takes s s.g (s.raise cause addr info) { cause := cause, addr := addr, info := info, pc := s.g.pc } := by
  unfold State.raise
  rw [h.entering]
  exact h.takes_trap _

/-- An exception of a vector instruction is taken at once; it names the thread given and the failing ones (10 R217). -/
theorem State.MayTrap.takes_raiseAt {s : State} (h : s.MayTrap) (cause : Nat) (addr info : W64) (thread : Nat) (fmask : W32) :
    Takes s s.g (s.raiseAt cause addr info thread fmask)
      { cause := cause, addr := addr, info := info, thread := thread, fmask := fmask, pc := s.g.pc } := by
  unfold State.raiseAt
  rw [h.entering]
  exact h.takes_trap _

end Sys2Proof.Machine
end

section
/-!
SUPPORT. The checks of the active threads (02 R36, 10 R217): which threads a mask names, and what `checkThreads` answers.
-/
namespace Sys2Proof.Machine

theorem upTo_eq_range (n : Nat) : upTo n = List.range n := by
  induction n with
  | zero => rfl
  | succ n ih => rw [upTo, ih, List.range_succ]

/-- The active threads are listed in ascending order (08 R166). -/
theorem activeOf_ascending (m : W32) : (activeOf m).Pairwise (· < ·) := by
  unfold activeOf bitsOn
  rw [upTo_eq_range]
  exact List.pairwise_lt_range.filter _

/-- Adding the bits of ascending threads, all above what is there, sets just these bits. -/
theorem testBit_foldL_twoPow (ts : List Nat) (n j : Nat) (hasc : ts.Pairwise (· < ·)) (hn : ∀ t ∈ ts, n < 2 ^ t) :
    (foldL (fun n t => n + 2 ^ t) n ts).testBit j = true ↔ n.testBit j = true ∨ j ∈ ts := by
  induction ts generalizing n with
  | nil => simp [foldL]
  | cons t ts ih =>
    obtain ⟨hlt, hasc⟩ := List.pairwise_cons.1 hasc
    have hnt : n < 2 ^ t := hn t (List.mem_cons_self ..)
    have hrest : ∀ u ∈ ts, n + 2 ^ t < 2 ^ u := fun u hu =>
      calc n + 2 ^ t < 2 ^ (t + 1) := by omega
        _ ≤ 2 ^ u := Nat.pow_le_pow_right (by decide) (hlt u hu)
    have hor : n + 2 ^ t = 2 ^ t ||| n := by
      have := Nat.two_pow_add_eq_or_of_lt hnt 1
      rwa [Nat.mul_one, Nat.add_comm] at this
    rw [foldL, ih _ hasc hrest, hor, Nat.testBit_or, Nat.testBit_two_pow]
    simp only [Bool.or_eq_true, decide_eq_true_eq, List.mem_cons, eq_comm (a := t)]
    rw [or_comm (a := j = t), or_assoc]

/-- The mask of some ascending threads holds exactly these threads. -/
theorem getLsbD_threadMask {ts : List Nat} (hasc : ts.Pairwise (· < ·)) {j : Nat} (hj : j < 32) :
    (threadMask ts).getLsbD j = true ↔ j ∈ ts := by
  unfold threadMask
  rw [BitVec.getLsbD_ofNat, decide_eq_true hj, Bool.true_and, testBit_foldL_twoPow ts 0 j hasc fun t _ => Nat.two_pow_pos t]
  simp

/-- Where every thread passes, the instruction goes on. -/
theorem checkThreads_pass (s : State) (uni : Bool) {ts : List Nat} {chk : Nat → Option Fail} (k : Out)
    (h : ∀ t ∈ ts, chk t = none) : checkThreads s uni ts chk k = k := by
  have hbad : (ts.filter fun t => (chk t).isSome) = [] := by
    rw [List.filter_eq_nil_iff]; intro t ht; simp [h t ht]
  unfold checkThreads
  rw [hbad]

/-- A uniform instruction whose check fails raises its cause. -/
theorem checkThreads_uniform_fail (s : State) {chk : Nat → Option Fail} {e : Fail} (k : Out) (h : chk 0 = some e) :
    checkThreads s true [0] chk k = s.raise e.cause e.addr e.info := by
  simp [checkThreads, h]

/-- A vector instruction raises the cause of its lowest failing thread, and names every failing one (02 R36). -/
theorem checkThreads_vector_fail (s : State) {ts : List Nat} {chk : Nat → Option Fail} {e : Fail} {th : Nat} (k : Out)
    (hasc : ts.Pairwise (· < ·)) (hth : th ∈ ts) (he : chk th = some e) (hfirst : ∀ t ∈ ts, t < th → chk t = none) :
    checkThreads s false ts chk k =
      s.raiseAt e.cause e.addr e.info th (threadMask (ts.filter fun t => (chk t).isSome)) := by
  have hbad : th ∈ ts.filter fun t => (chk t).isSome := List.mem_filter.2 ⟨hth, by simp [he]⟩
  unfold checkThreads
  cases hl : ts.filter fun t => (chk t).isSome with
  | nil => rw [hl] at hbad; cases hbad
  | cons u r =>
    have hu : u ∈ ts ∧ (chk u).isSome = true := List.mem_filter.1 (hl ▸ List.mem_cons_self ..)
    have hle : u ≤ th := by
      have hpw := hl ▸ hasc.filter fun t => (chk t).isSome
      rw [hl] at hbad
      rcases List.mem_cons.1 hbad with h | h
      · exact Nat.le_of_eq h.symm
      · exact Nat.le_of_lt ((List.pairwise_cons.1 hpw).1 th h)
    have hge : ¬ u < th := fun h => by simp [hfirst u hu.1 h] at hu
    obtain rfl : u = th := by omega
    simp [he]

end Sys2Proof.Machine
end

section
/-!
SUPPORT. Failing accesses of loads and stores (02 R32, R35, R36, 14 R304), and local loads on a quiet device (05 R103).
-/
namespace Sys2Proof.Machine

/-! ## The checks of a specific offset. -/

/-- The check of a specific offset fails. -/
def SpecificBad (s : State) (w : Who) (sp : Space) (o : W64) (n : Nat) : Prop :=
  spaceSize s w sp < o.toNat + n ∨ o.toNat % n ≠ 0

theorem specificAcc_range {s : State} {w : Who} {sp : Space} {o : W64} {n : Nat} (t : Nat)
    (h : spaceSize s w sp < o.toNat + n) :
    specificAcc s w t sp o n = .error ⟨0x0C, o, BitVec.ofNat 64 (spaceSize s w sp)⟩ := by
  simp [specificAcc, checkSpecific, h]

theorem specificAcc_misaligned {s : State} {w : Who} {sp : Space} {o : W64} {n : Nat} (t : Nat)
    (h : o.toNat + n ≤ spaceSize s w sp) (ha : o.toNat % n ≠ 0) :
    specificAcc s w t sp o n = .error ⟨0x05, o, BitVec.ofNat 64 n⟩ := by
  simp [specificAcc, checkSpecific, Nat.not_lt.2 h, ha]

theorem specificAcc_ok {s : State} {w : Who} {sp : Space} {o : W64} {n : Nat} (t : Nat)
    (h : o.toNat + n ≤ spaceSize s w sp) (ha : o.toNat % n = 0) :
    specificAcc s w t sp o n = .ok ⟨false, spaceKeys s w t sp o.toNat n⟩ := by
  simp [specificAcc, checkSpecific, Nat.not_lt.2 h, ha]

theorem failOf_specificAcc_isSome (s : State) (w : Who) (t : Nat) (sp : Space) (o : W64) (n : Nat) :
    (failOf (specificAcc s w t sp o n)).isSome = true ↔ SpecificBad s w sp o n := by
  unfold SpecificBad
  by_cases hr : spaceSize s w sp < o.toNat + n
  · simp [specificAcc_range t hr, failOf, hr]
  · by_cases ha : o.toNat % n = 0
    · simp [specificAcc_ok t (Nat.not_lt.1 hr) ha, failOf, hr, ha]
    · simp [specificAcc_misaligned t (Nat.not_lt.1 hr) ha, failOf, ha]

/-- LDG and STG refuse an address with bit 63 set (14 R304). -/
theorem globalAcc_bit63 (s : State) (w : Who) (k : Kind) {a : W64} (n : Nat) (h : 2 ^ 63 ≤ a.toNat) :
    globalAcc s w k a n = .error ⟨0x0C, a, 0x8000000000000000⟩ := by
  unfold globalAcc
  rw [if_pos h]

/-! ## A failing access is taken before anything else happens. -/

/-- A uniform memory instruction whose registers are at hand runs once, as thread 0 (14 R303). -/
theorem memInstr_uniform {s : State} {a b : SReg} (m : MReg) (words : Nat) {sec : Option Nat} (k : State → List Nat → Out)
    (hs : sec = none ∨ s.g.OnCore) (hr : s.Readable [useS a, useS b]) : memInstr s (.u a b) m words sec k = k s [0] :=
  uniform_run s none sec _ _ rfl hs hr

/-- A vector one runs for its active threads (14 R303). -/
theorem memInstr_vector {s : State} {a b : VReg} {m : MReg} (words : Nat) {sec : Option Nat} (k : State → List Nat → Out)
    (hs : sec = none ∨ s.g.OnCore) (hv : s.MayVector m [a, b] []) :
    memInstr s (.v a b) m words sec k = k s (activeOf (s.g.govern m)) := by
  obtain ⟨hhas, hread, hact⟩ := hv
  exact vector_run s _ sec [] m words k hhas hs hact hread

theorem State.syncPend_of_noPend {s : State} (h : s.g.pend = []) : s.syncPend = none := by
  simp [State.syncPend, h, findFirst]

/-- A uniform load whose access fails its checks takes the cause of the failing one. -/
theorem State.MayTrap.takes_loadOp {s : State} (h : s.MayTrap) {z : Size} {a b : SReg} {d : Sys2Proof.Disp} (f : Bool)
    (sec : Option Nat) {acc : AccFn} {e : Fail} (hr : s.Readable [useS a, useS b])
    (he : acc s 0 (moEa s.g z (.u a b) d 0) = .error e) :
    Takes s s.g (loadOp z (.u a b) d f sec acc s) { cause := e.cause, addr := e.addr, info := e.info, pc := s.g.pc } := by
  have hfail : failOf (acc s 0 (moEa s.g z (.u a b) d 0)) = some e := by rw [he]; rfl
  unfold loadOp
  rw [memInstr_uniform _ _ _ (.inr h.onCore) hr, State.syncPend_of_noPend h.noPend]
  dsimp only [moUni]
  rw [checkThreads_uniform_fail s _ hfail]
  exact h.takes_raise _ _ _

/-- A uniform store whose access fails its checks takes the cause of the failing one. -/
theorem State.MayTrap.takes_storeOp {s : State} (h : s.MayTrap) {z : Size} {a b : SReg} {d : Sys2Proof.Disp}
    (sec : Option Nat) {acc : AccFn} {e : Fail} (hr : s.Readable [useS a, useS b])
    (he : acc s 0 (moEa s.g z (.u a b) d 0) = .error e) :
    Takes s s.g (storeOp z (.u a b) d sec acc s) { cause := e.cause, addr := e.addr, info := e.info, pc := s.g.pc } := by
  have hfail : failOf (acc s 0 (moEa s.g z (.u a b) d 0)) = some e := by rw [he]; rfl
  unfold storeOp
  rw [memInstr_uniform _ _ _ (.inr h.onCore) hr]
  dsimp only [moUni]
  rw [checkThreads_uniform_fail s _ hfail]
  exact h.takes_raise _ _ _

/-- A vector store takes the cause of its lowest failing thread, and its mask names every failing one (02 R36). -/
theorem State.MayTrap.takes_storeOp_vector {s : State} (h : s.MayTrap) {z : Size} {a b : VReg} {d : Sys2Proof.Disp}
    (sec : Option Nat) {acc : AccFn} {e : Fail} {th : Nat} (hv : s.MayVector (dispMask d) [a, b] [])
    (hth : th ∈ activeOf (s.g.govern (dispMask d))) (he : acc s th (moEa s.g z (.v a b) d th) = .error e)
    (hfirst : ∀ t ∈ activeOf (s.g.govern (dispMask d)), t < th → failOf (acc s t (moEa s.g z (.v a b) d t)) = none) :
    Takes s s.g (storeOp z (.v a b) d sec acc s)
      { cause := e.cause, addr := e.addr, info := e.info, thread := th, pc := s.g.pc
        fmask := threadMask ((activeOf (s.g.govern (dispMask d))).filter fun t =>
          (failOf (acc s t (moEa s.g z (.v a b) d t))).isSome) } := by
  have hfail : failOf (acc s th (moEa s.g z (.v a b) d th)) = some e := by rw [he]; rfl
  unfold storeOp
  rw [memInstr_vector _ _ (.inr h.onCore) hv]
  dsimp only [moUni]
  rw [checkThreads_vector_fail s _ (activeOf_ascending _) hth hfail hfirst]
  exact h.takes_raiseAt _ _ _ _ _

/-! ## A local load on a quiet device. -/

theorem State.Quiet.noHomeQ {s : State} (h : s.Quiet) : s.homeQ = [] := h.1

theorem State.Quiet.bankQ_core {s : State} (h : s.Quiet) (c : Nat) : (s.core c).bankQ = [] := by
  obtain ⟨-, -, hcores, -⟩ := h
  rw [List.eq_nil_iff_forall_not_mem]
  intro a ha
  obtain ⟨e, he, hae⟩ := State.mem_bankQ_core ha
  rw [(hcores e he).1] at hae
  cases hae

theorem State.Quiet.drainBefore {s : State} (h : s.Quiet) (ks : List Nat) : s.drainBefore ks = s := by
  unfold State.drainBefore
  split
  · next c _ _ => simp [State.drainShared, h.bankQ_core c, splitBanks, State.passBanks]
  · rfl

/-- Bytes outside global memory can be read at once. -/
theorem State.Quiet.loadsReady_local {s : State} (h : s.Quiet) (ks : List Nat) : loadsReady s [⟨false, ks⟩] = true := by
  have hwait : s.loadWait ⟨false, ks⟩ none = .go := by simp [State.loadWait, h.noHomeQ]
  have hbank : s.bankBusy ks = false := by
    unfold State.bankBusy
    split
    · next c _ _ => simp [h.bankQ_core c]
    · simp [State.unsettled, h.noHomeQ]
  simp [loadsReady, hwait, hbank]

/-- They are read as their homes hold them. -/
theorem State.Quiet.load_local {s : State} (h : s.Quiet) (ks : List Nat) :
    s.load ⟨false, ks⟩ = (s, ks.map s.atHome) := by
  have hup : s.sys.allUp = true := h.2.1
  simp [State.load, State.loadBank, State.cutBytes, hup, h.drainBefore]

theorem gotPsn_atHome (s : State) (ks : List Nat) : gotPsn (ks.map s.atHome) = ks.any s.psn := by
  simp [gotPsn, State.atHome, List.any_map, Function.comp_def]

/-- The same through the walk over the threads, for one of them. -/
theorem State.Quiet.loadThreads_local {s : State} (h : s.Quiet) (t : Nat) (a : W64) (ks : List Nat) :
    loadThreads s [(t, a, ⟨false, ks⟩)] =
      (s, [(t, a, BitVec.ofNat 64 (gotNum (ks.map s.atHome)), ks.any s.psn)]) := by
  simp [loadThreads, h.load_local, gotPsn_atHome]

/-- A local access needs no translation. -/
theorem State.fillTlbs_local (s : State) (a : W64) (ks : List Nat) : s.fillTlbs [(a, ⟨false, ks⟩)] = s := rfl

/-- Without a flag to take there is nothing to wait for (11 R244). -/
theorem withFlag_none {s : State} {f : Bool} {k : State → Option Nat → Out} (h : s.g.selFlag f = none) :
    withFlag s f k = k s none := by
  simp [withFlag, h, Group.flagFull]

/-- A uniform local load without a flag of poisoned bytes takes POISON_CONSUMED at its address (10 R460). -/
theorem State.MayTrap.takes_loadOp_poison {s : State} (h : s.MayTrap) (hq : s.Quiet) {z : Size} {a b : SReg}
    {d : Sys2Proof.Disp} {f : Bool} (sec : Option Nat) {acc : AccFn} {ks : List Nat} (hr : s.Readable [useS a, useS b])
    (hf : s.g.selFlag f = none) (hok : acc s 0 (moEa s.g z (.u a b) d 0) = .ok ⟨false, ks⟩) (hpsn : ks.any s.psn = true) :
    Takes s s.g (loadOp z (.u a b) d f sec acc s) { cause := 0x30, addr := moEa s.g z (.u a b) d 0, pc := s.g.pc } := by
  have hpass : ∀ t ∈ [0], failOf (acc s t (moEa s.g z (.u a b) d t)) = none := by
    intro t ht
    rw [List.mem_singleton.1 ht, hok]; rfl
  have hraise : loadOp z (.u a b) d f sec acc s = s.raise 0x30 (moEa s.g z (.u a b) d 0) 0 := by
    unfold loadOp
    rw [memInstr_uniform _ _ _ (.inr h.onCore) hr, State.syncPend_of_noPend h.noPend]
    dsimp only [moUni]
    rw [checkThreads_pass s _ _ hpass, withFlag_none hf]
    simp [hok, accD, State.settle_of_empty hq.noHomeQ, State.fillTlbs_local, hq.drainBefore, hq.loadsReady_local,
      hq.loadThreads_local, hpsn]
  rw [hraise]
  exact h.takes_raise _ _ _

end Sys2Proof.Machine
end

section
/-!
THEOREM. A failing access traps and changes nothing (02 R32, R35, R36, 14 R304, 10 R460).
-/
namespace Sys2Proof.Machine

/-- A uniform access by a space-specific instruction that fails its checks takes the cause of the failing one. -/
theorem State.MayTrap.takes_specific {s : State} (h : s.MayTrap) {z : Size} {a b : SReg} {d : Sys2Proof.Disp} {f : Bool}
    {sp : Space} {i : Instr} {e : Fail} (hr : s.Readable [useS a, useS b])
    (hi : (sp, i) ∈ [(Space.core, Instr.lds z (.u a b) d f), (.cluster, .ldc z (.u a b) d f), (.lane, .ldl z (.u a b) d f),
      (.chip, .ldx z (.u a b) d f), (.core, .sts z (.u a b) d), (.cluster, .stc z (.u a b) d),
      (.lane, .stl z (.u a b) d), (.chip, .stx z (.u a b) d)])
    (he : specificAcc s s.who 0 sp (s.g.sGet b + dispVal z d) (zBytes z) = .error e) :
    Takes s s.g (exec i s) { cause := e.cause, addr := e.addr, info := e.info, pc := s.g.pc } := by
  simp only [List.mem_cons, Prod.mk.injEq, List.not_mem_nil, or_false] at hi
  rcases hi with ⟨rfl, rfl⟩ | ⟨rfl, rfl⟩ | ⟨rfl, rfl⟩ | ⟨rfl, rfl⟩ | ⟨rfl, rfl⟩ | ⟨rfl, rfl⟩ | ⟨rfl, rfl⟩ | ⟨rfl, rfl⟩
  · exact h.takes_loadOp f (some 0x17) (acc := accSpace .core z) hr he
  · exact h.takes_loadOp f (some 0x17) (acc := accSpace .cluster z) hr he
  · exact h.takes_loadOp f (some 0x17) (acc := accSpace .lane z) hr he
  · exact h.takes_loadOp f none (acc := accSpace .chip z) hr he
  · exact h.takes_storeOp (some 0x17) (acc := accSpace .core z) hr he
  · exact h.takes_storeOp (some 0x17) (acc := accSpace .cluster z) hr he
  · exact h.takes_storeOp (some 0x17) (acc := accSpace .lane z) hr he
  · exact h.takes_storeOp none (acc := accSpace .chip z) hr he

/-- A vector STS whose lowest failing thread is misaligned takes MISALIGNED, and its mask names every failing thread. -/
theorem State.MayTrap.takes_sts_misaligned {s : State} (h : s.MayTrap) {z : Size} {a b : VReg} {d : Sys2Proof.Disp}
    {th : Nat} (hv : s.MayVector (dispMask d) [a, b] []) (hth : th ∈ activeOf (s.g.govern (dispMask d)))
    (hrange : (s.g.vGet b th + dispVal z d).toNat + zBytes z ≤ spaceSize s s.who .core)
    (halign : (s.g.vGet b th + dispVal z d).toNat % zBytes z ≠ 0)
    (hfirst : ∀ t ∈ activeOf (s.g.govern (dispMask d)), t < th →
      ¬ SpecificBad s s.who .core (s.g.vGet b t + dispVal z d) (zBytes z)) :
    ∃ fm : W32, (∀ t, t < 32 → (fm.getLsbD t = true ↔ t ∈ activeOf (s.g.govern (dispMask d)) ∧
        SpecificBad s s.who .core (s.g.vGet b t + dispVal z d) (zBytes z))) ∧
      Takes s s.g (exec (.sts z (.v a b) d) s)
        { cause := 0x05, addr := s.g.vGet b th + dispVal z d, info := BitVec.ofNat 64 (zBytes z), thread := th, fmask := fm
          pc := s.g.pc } := by
  refine ⟨_, fun t ht => ?_, h.takes_storeOp_vector (some 0x17) (acc := accSpace .core z) hv hth
    (specificAcc_misaligned th hrange halign) fun t ht hlt => ?_⟩
  · rw [getLsbD_threadMask ((activeOf_ascending _).filter _) ht, List.mem_filter]
    exact and_congr_right fun _ => failOf_specificAcc_isSome ..
  · rw [← Option.not_isSome_iff_eq_none]
    exact fun hbad => hfirst t ht hlt ((failOf_specificAcc_isSome ..).1 hbad)

/-- Settles O26: each failing check is raised before the access has any effect, and `State.MayTrap` lets the exception be
entered at once. -/
theorem accessTraps : Obligations.AccessTraps := by
  unfold Obligations.AccessTraps
  refine ⟨?specific, ?generic, ?vector, ?poison⟩
  case specific =>
    intro s z a b d f sp i h hr _ ea S trap hi
    exact ⟨fun hrange => (h.takes_specific hr hi (specificAcc_range 0 hrange) :),
      fun hrange halign => (h.takes_specific hr hi (specificAcc_misaligned 0 hrange halign) :)⟩
  case generic =>
    intro s z a b d f e h hr _ ea trap
    refine ⟨fun he => h.takes_loadOp f none (acc := accGeneric .load z) hr he,
      fun he => h.takes_storeOp none (acc := accGeneric .store z) hr he, ?_⟩
    rintro hbit rfl
    exact ⟨h.takes_loadOp f none (acc := accGlobal .load z) hr (globalAcc_bit63 s _ _ _ hbit),
      h.takes_storeOp none (acc := accGlobal .store z) hr (globalAcc_bit63 s _ _ _ hbit)⟩
  case vector =>
    intro s z a b d th h hv ea bad active hth hrange halign hfirst
    simp only [active, ← mem_activeOf] at hth hfirst ⊢
    exact h.takes_sts_misaligned hv hth hrange halign fun t ht hlt => hfirst t hlt ht
  case poison =>
    intro s z a b d f h hq hr hf ea hrange halign hpsn
    exact h.takes_loadOp_poison hq (some 0x17) (acc := accSpace .core z) hr hf (specificAcc_ok 0 hrange halign)
      (List.any_eq_true.2 hpsn)

end Sys2Proof.Machine
end

section
/-!
SUPPORT. Sparse tables as data: which entries a canonical table lists, and several writes at once.
-/
namespace Sys2Proof.Machine

/-- An entry of a written table is an old one or the one written. -/
theorem mem_of_mem_tblSet {α : Type} [DecidableEq α] {d : α} {t : List (Nat × α)} {k : Nat} {v : α} {e : Nat × α}
    (h : e ∈ tblSet d t k v) : e ∈ t ∨ e = (k, v) := by
  have hput : ∀ t : List (Nat × α), e ∈ tblPut t k v → e ∈ t ∨ e = (k, v) := by
    intro t
    induction t with
    | nil => exact fun h => .inr (List.mem_singleton.1 h)
    | cons x t ih =>
      intro h
      unfold tblPut at h
      split at h
      · exact (List.mem_cons.1 h).symm
      · split at h
        · exact (List.mem_cons.1 h).symm.imp_left (List.mem_cons_of_mem x)
        · rcases List.mem_cons.1 h with rfl | h
          · exact .inl (List.mem_cons_self ..)
          · exact (ih h).imp_left (List.mem_cons_of_mem x)
  unfold tblSet at h
  split at h
  · exact .inl (List.mem_filter.1 h).1
  · exact hput t h

/-- Keys of a canonical table are at or above its bound. -/
theorem tblWfFrom_le {α : Type} [DecidableEq α] {d : α} {lo : Nat} {t : List (Nat × α)} (w : tblWfFrom d lo t = true)
    {e : Nat × α} (h : e ∈ t) : lo ≤ e.1 := by
  induction t generalizing lo with
  | nil => cases h
  | cons x t ih =>
    obtain ⟨a, v⟩ := x
    simp only [tblWfFrom, Bool.and_eq_true, decide_eq_true_eq] at w
    obtain ⟨⟨hlo, -⟩, hrest⟩ := w
    rcases List.mem_cons.1 h with rfl | h
    · exact hlo
    · have := ih hrest h
      omega

/-- A canonical table lists exactly its values other than the default. -/
theorem mem_iff_tblGet {α : Type} [DecidableEq α] {d : α} {t : List (Nat × α)} (w : tblWf d t = true) (k : Nat)
    (v : α) : (k, v) ∈ t ↔ tblGet d t k = v ∧ v ≠ d := by
  have above : ∀ (t : List (Nat × α)) (lo : Nat), tblWfFrom d lo t = true →
      ((k, v) ∈ t ↔ tblGet d t k = v ∧ v ≠ d) := by
    intro t
    induction t with
    | nil => intro _ _; simp [tblGet]; exact fun h => h.symm
    | cons x t ih =>
      intro lo w
      obtain ⟨a, b⟩ := x
      simp only [tblWfFrom, Bool.and_eq_true, decide_eq_true_eq] at w
      obtain ⟨⟨-, hb⟩, hrest⟩ := w
      rw [List.mem_cons, tblGet, ih _ hrest]
      split
      · next hak =>
        subst hak
        have hnot : ¬ (tblGet d t a = v ∧ v ≠ d) := fun h =>
          absurd (tblWfFrom_le hrest ((ih _ hrest).2 h)) (by simp)
        constructor
        · rintro (h | h)
          · cases h; exact ⟨rfl, hb⟩
          · exact absurd h hnot
        · rintro ⟨rfl, -⟩; exact .inl rfl
      · next hak => simp [Ne.symm hak]
  exact above t 0 w

/-- Its keys are those with a value other than the default. -/
theorem mem_keys_iff_tblGet {α : Type} [DecidableEq α] {d : α} {t : List (Nat × α)} (w : tblWf d t = true) (k : Nat) :
    k ∈ t.map (·.1) ↔ tblGet d t k ≠ d := by
  constructor
  · intro h
    obtain ⟨⟨_, v⟩, he, rfl⟩ := List.mem_map.1 h
    obtain ⟨hget, hv⟩ := (mem_iff_tblGet w _ _).1 he
    exact hget ▸ hv
  · exact fun h => List.mem_map.2 ⟨_, (mem_iff_tblGet w _ _).2 ⟨rfl, h⟩, rfl⟩

/-- Writing behind every key appends. -/
theorem tblSet_append {α : Type} [DecidableEq α] {d v : α} {k : Nat} (hv : v ≠ d) (t : List (Nat × α))
    (h : ∀ e ∈ t, e.1 < k) : tblSet d t k v = t ++ [(k, v)] := by
  rw [tblSet, if_neg hv]
  induction t with
  | nil => rfl
  | cons x t ih =>
    have hx : x.1 < k := h x (List.mem_cons_self ..)
    rw [tblPut, if_neg (by omega), if_neg (by omega), ih fun e he => h e (List.mem_cons_of_mem _ he)]
    rfl

/-- Writing a canonical table's entries to the empty table gives the table back. -/
theorem tblSetMany_nil {α : Type} [DecidableEq α] {d : α} {t : List (Nat × α)} (w : tblWf d t = true) :
    tblSetMany d [] t = t := by
  have behind : ∀ (t a : List (Nat × α)) (lo : Nat), tblWfFrom d lo t = true → (∀ e ∈ a, e.1 < lo) →
      tblSetMany d a t = a ++ t := by
    intro t
    induction t with
    | nil => intro a _ _ _; simp [tblSetMany]
    | cons x t ih =>
      intro a lo w ha
      obtain ⟨k, v⟩ := x
      simp only [tblWfFrom, Bool.and_eq_true, decide_eq_true_eq] at w
      obtain ⟨⟨hlo, hv⟩, hrest⟩ := w
      rw [tblSetMany, tblSet_append hv a fun e he => Nat.lt_of_lt_of_le (ha e he) hlo, ih _ _ hrest]
      · simp
      · intro e he
        rcases List.mem_append.1 he with he | he
        · have := ha e he
          omega
        · rw [List.mem_singleton.1 he]; exact Nat.lt_succ_self k
  exact behind t [] 0 w (by simp)

/-- A key that several writes do not name keeps its value. -/
theorem tblGet_tblSetMany_of_notMem {α : Type} [DecidableEq α] {d : α} {r : List (Nat × α)} {k : Nat}
    (h : k ∉ r.map (·.1)) (t : List (Nat × α)) : tblGet d (tblSetMany d t r) k = tblGet d t k := by
  induction r generalizing t with
  | nil => rfl
  | cons e r ih =>
    obtain ⟨hne, hr⟩ := not_or.1 (mt List.mem_cons.2 h)
    rw [tblSetMany, ih hr, tblGet_tblSet_other d t e.2 hne]

/-- A key to which several writes give one value holds it. -/
theorem tblGet_tblSetMany_of_mem {α : Type} [DecidableEq α] {d v : α} {r : List (Nat × α)} {k : Nat}
    (hk : k ∈ r.map (·.1)) (hv : ∀ w, (k, w) ∈ r → w = v) (t : List (Nat × α)) :
    tblGet d (tblSetMany d t r) k = v := by
  induction r generalizing t with
  | nil => cases hk
  | cons e r ih =>
    rw [tblSetMany]
    by_cases hr : k ∈ r.map (·.1)
    · exact ih hr (fun w hw => hv w (List.mem_cons_of_mem _ hw)) _
    · obtain rfl : k = e.1 := (List.mem_cons.1 hk).resolve_right hr
      rw [tblGet_tblSetMany_of_notMem hr, tblGet_tblSet_same, hv e.2 (List.mem_cons_self ..)]

/-- The same, the value written to each key being one and the same. -/
theorem tblGet_tblSetMany_const {α : Type} [DecidableEq α] (d v : α) (ks : List Nat) (t : List (Nat × α)) (k : Nat) :
    tblGet d (tblSetMany d t (ks.map fun k => (k, v))) k = if k ∈ ks then v else tblGet d t k := by
  split
  · next h => exact tblGet_tblSetMany_of_mem (by simpa using h) (by simp +contextual) t
  · next h => exact tblGet_tblSetMany_of_notMem (by simpa using h) t

end Sys2Proof.Machine
end

section
/-!
SUPPORT. Publishing held bytes where no peer is concerned (03 R54, 05 R99): what it writes, and the stamp that the
lines get.
-/
namespace Sys2Proof.Machine

theorem State.putBytes_eq (s : State) (cells : List (Nat × Byte)) :
    s.putBytes cells = { s with mem := tblSetMany memDefault s.mem cells } := by
  induction cells generalizing s with
  | nil => rfl
  | cons e r ih => exact ih _

theorem State.clearCovered_frame (s : State) (ks ws : List Nat) : ∃ q, s.clearCovered ks ws = { s with poison := q } := by
  induction ws generalizing s with
  | nil => exact ⟨_, rfl⟩
  | cons w ws ih =>
    unfold State.clearCovered
    dsimp only
    split
    · obtain ⟨q, hq⟩ := ih (s.setPsn (8 * w) false)
      exact ⟨q, hq⟩
    · exact ih s

theorem State.poisonWords_frame (s : State) (ws : List Nat) : ∃ q, s.poisonWords ws = { s with poison := q } := by
  induction ws generalizing s with
  | nil => exact ⟨_, rfl⟩
  | cons w ws ih =>
    obtain ⟨q, hq⟩ := ih (s.setPsn (8 * w) true)
    exact ⟨q, hq⟩

theorem State.writeClean_frame (s : State) (cells : List (Nat × Byte)) :
    ∃ q, s.writeClean cells = { s with mem := tblSetMany memDefault s.mem cells, poison := q } := by
  unfold State.writeClean
  rw [State.putBytes_eq]
  exact State.clearCovered_frame _ _ _

theorem State.writePoisoned_frame (s : State) (cells : List (Nat × Byte)) :
    ∃ q, s.writePoisoned cells = { s with mem := tblSetMany memDefault s.mem cells, poison := q } := by
  unfold State.writePoisoned
  rw [State.putBytes_eq]
  exact State.poisonWords_frame _ _

/-- The held bytes of one kind are those that the table holds so. -/
theorem mem_heldCells {t : List (Nat × Held)} (w : tblWf none t = true) (q : Bool) (k : Nat) (b : Byte) :
    (k, b) ∈ heldCells q t ↔ tblGet none t k = some (b, q) := by
  have hent : (k, b) ∈ heldCells q t ↔ (k, some (b, q)) ∈ t := by
    unfold heldCells
    rw [List.mem_filterMap]
    constructor
    · rintro ⟨⟨j, x⟩, he, hx⟩
      rcases x with - | ⟨c, r⟩
      · cases hx
      · simp only [Option.ite_none_right_eq_some, beq_iff_eq, Option.some.injEq, Prod.mk.injEq] at hx
        obtain ⟨rfl, rfl, rfl⟩ := hx
        exact he
    · exact fun he => ⟨_, he, by simp⟩
  rw [hent, mem_iff_tblGet w]
  simp

theorem mem_keys_heldCells {t : List (Nat × Held)} (w : tblWf none t = true) (q : Bool) (k : Nat) :
    k ∈ (heldCells q t).map (·.1) ↔ ∃ b, tblGet none t k = some (b, q) := by
  simp only [List.mem_map, Prod.exists, exists_and_right, exists_eq_right, mem_heldCells w]

theorem mem_linesOf (ks : List Nat) (l : Nat) : l ∈ linesOf ks ↔ ∃ k ∈ ks, lineOf k = l := by
  simp [linesOf, List.mem_eraseDups]

theorem any_lineOf_iff (t : List (Nat × Held)) (l : Nat) :
    (t.any fun e => lineOf e.1 == l) = true ↔ l ∈ linesOf (t.map (·.1)) := by
  rw [mem_linesOf, List.any_eq_true]
  constructor
  · rintro ⟨e, he, hl⟩
    exact ⟨e.1, List.mem_map_of_mem he, beq_iff_eq.1 hl⟩
  · rintro ⟨_, hk, hl⟩
    obtain ⟨e, he, rfl⟩ := List.mem_map.1 hk
    exact ⟨e, he, beq_iff_eq.2 hl⟩

theorem le_maxOf {l : List Nat} {n : Nat} (h : n ∈ l) : n ≤ maxOf l := by
  induction l with
  | nil => cases h
  | cons a l ih =>
    rcases List.mem_cons.1 h with rfl | h
    · exact Nat.le_max_left ..
    · exact Nat.le_trans (ih h) (Nat.le_max_right ..)

theorem State.gts_lt_stampAbove (s : State) (ls : List Nat) (gts : Nat) : gts < s.stampAbove ls gts :=
  Nat.lt_succ_of_le (Nat.le_max_left ..)

/-- The stamp of a publication is above both stamps of its lines (03 R54). -/
theorem State.stamps_lt_stampAbove (s : State) {ls : List Nat} {l : Nat} (h : l ∈ ls) (gts : Nat) :
    s.wtsOf l < s.stampAbove ls gts ∧ s.rtsOf l < s.stampAbove ls gts := by
  have hw : s.wtsOf l ≤ maxOf (ls.map s.wtsOf) := le_maxOf (List.mem_map_of_mem h)
  have hr : s.rtsOf l ≤ maxOf (ls.map s.rtsOf) := le_maxOf (List.mem_map_of_mem h)
  unfold State.stampAbove
  simp only [Nat.max_def]
  split <;> split <;> omega

theorem State.setWts_eq (s : State) (p : Nat) (ls : List Nat) :
    s.setWts p ls = { s with wts := tblSetMany 0 s.wts (ls.map fun l => (l, p)) } := by
  induction ls generalizing s with
  | nil => rfl
  | cons l ls ih => exact ih _

/-! ## What a publication tells other devices, where no byte is a peer's and no peer holds a line. -/

theorem State.dirtyPeers_of_noPeerKey (s : State) {ks : List Nat} (h : ∀ k ∈ ks, isPeerKey k = false) :
    s.dirtyPeers ks = s := by
  induction ks with
  | nil => rfl
  | cons k ks ih =>
    rw [State.dirtyPeers, if_neg (by simp [h k (List.mem_cons_self ..)])]
    exact ih fun j hj => h j (List.mem_cons_of_mem _ hj)

theorem State.noteOver_of_noExcl {s : State} (h : s.own.excl = []) (ks : List Nat) : s.noteOver ks = s := by
  induction ks with
  | nil => rfl
  | cons k ks ih =>
    rw [State.noteOver, if_neg (by simp [h])]
    exact ih

theorem State.noteSharers_of_noSharers {s : State} (h : s.own.sharers = []) (ls : List Nat) : s.noteSharers ls = s := by
  simp [State.noteSharers, h]

theorem State.partWords_of_noPeerKey (s : State) {ks : List Nat} (h : ∀ k ∈ ks, isPeerKey k = false) :
    s.partWords ks = [] :=
  if_neg (by simpa using h)

theorem State.Alone.own {s : State} (h : s.Alone) : s.own = {} := h.1
theorem State.Alone.noReqs {s : State} (h : s.Alone) : s.fab.reqs = [] := h.2.1
theorem State.Alone.noDoms {s : State} (h : s.Alone) : s.disp.doms = [] := h.2.2.1
theorem State.Alone.noDet {s : State} (h : s.Alone) : s.g.det = none := h.2.2.2

theorem State.Alone.noteSnap {s : State} (h : s.Alone) (ks : List Nat) : s.noteSnap ks = s := by
  simp [State.noteSnap, h.noDoms]

/-- No line is a peer's, held by a peer or being invalidated. -/
theorem State.Alone.lineOpen {s : State} (h : s.Alone) (l : Nat) : s.lineOpen l = false := by
  simp [State.lineOpen, Own.openLine, Own.heldByPeer, State.invalOut, h.own, h.noReqs, tblGet]

theorem State.Alone.notePub {s : State} (h : s.Alone) (ls : List Nat) : s.notePub ls = s := by
  simp [State.notePub, h.lineOpen]

/-- A publication of bytes that are no peer's concerns nobody else. -/
theorem State.Alone.tellsNobody {s : State} (h : s.Alone) {ks : List Nat} (hpeer : ∀ k ∈ ks, isPeerKey k = false)
    (ls : List Nat) : (((s.dirtyPeers ks).noteOver ks).noteSharers ls).notePub ls = s := by
  rw [s.dirtyPeers_of_noPeerKey hpeer, State.noteOver_of_noExcl (by rw [h.own]),
    State.noteSharers_of_noSharers (by rw [h.own]), h.notePub]

theorem State.Alone.dropHolder {s : State} (h : s.Alone) (c : Nat) : s.dropHolder c = s := by
  simp [State.dropHolder, h.own]

/-! ## A publication. -/

/-- Some byte of a table lies in a line. -/
def Touches (t : List (Nat × Held)) (l : Nat) : Prop := ∃ k, tblGet none t k ≠ none ∧ lineOf k = l

/-- What a state differs in once held bytes are published under a stamp (05 R99): their homes hold them, their lines have
the stamp, which is above the stamps that they had and the writer's clock, and PCLK is not below it. -/
structure Published (s u : State) (t : List (Nat × Held)) (gts p : Nat) : Prop where
  frame : u = { s with mem := u.mem, poison := u.poison, wts := u.wts, pclk := u.pclk }
  held : ∀ k b q, tblGet none t k = some (b, q) → u.byte k = b
  other : ∀ k, tblGet none t k = none → u.byte k = s.byte k
  unstamped : ∀ l, ¬ Touches t l → u.wtsOf l = s.wtsOf l
  stamped : ∀ l, Touches t l → u.wtsOf l = p ∧ s.wtsOf l < p ∧ s.rtsOf l < p ∧ gts < p ∧ p ≤ u.pclk
  clock : gts ≤ p
  unmoved : t = [] → p = gts

theorem mem_linesOf_keys {t : List (Nat × Held)} (w : tblWf none t = true) (l : Nat) :
    l ∈ linesOf (t.map (·.1)) ↔ Touches t l := by
  rw [mem_linesOf]
  exact exists_congr fun k => and_congr_left fun _ => mem_keys_iff_tblGet w k

/-- A publication where no peer is concerned writes the clean bytes, then the poisoned ones, and stamps their lines. -/
theorem State.Alone.publish_eq {s : State} (h : s.Alone) {t : List (Nat × Held)} (ht : t ≠ [])
    (hpeer : ∀ k ∈ t.map (·.1), isPeerKey k = false) (gts : Nat) :
    ∃ q, s.publish t gts =
      ({ s with
          mem := tblSetMany memDefault (tblSetMany memDefault s.mem (heldCells false t)) (heldCells true t), poison := q
          wts := tblSetMany 0 s.wts
            ((linesOf (t.map (·.1))).map fun l => (l, s.stampAbove (linesOf (t.map (·.1))) gts))
          pclk := Nat.max s.pclk (s.stampAbove (linesOf (t.map (·.1))) gts) },
        s.stampAbove (linesOf (t.map (·.1))) gts) := by
  have hne : t.isEmpty = false := by simpa using ht
  obtain ⟨q, hclean⟩ := s.writeClean_frame (heldCells false t)
  obtain ⟨r, hpoisoned⟩ := (s.writeClean (heldCells false t)).writePoisoned_frame (heldCells true t)
  rw [hclean] at hpoisoned
  refine ⟨r, ?_⟩
  unfold State.publish
  simp only [hne, Bool.false_eq_true, if_false, h.noteSnap, hclean, hpoisoned, State.partWords_of_noPeerKey _ hpeer,
    State.poisonWords, State.setWts_eq]
  rw [State.Alone.tellsNobody ?_ hpeer]
  exact h

/-- Writing the clean bytes of a table and then its poisoned ones leaves each held byte at its home. -/
theorem byte_of_heldCells {s u : State} {t : List (Nat × Held)} (w : tblWf none t = true)
    (hmem : u.mem = tblSetMany memDefault (tblSetMany memDefault s.mem (heldCells false t)) (heldCells true t)) (k : Nat) :
    u.byte k = match tblGet none t k with
      | some (b, _) => b
      | none => s.byte k := by
  unfold State.byte
  rw [hmem]
  have written (q : Bool) (b : Byte) (hk : tblGet none t k = some (b, q)) (m : List Host.Cell) :
      tblGet memDefault (tblSetMany memDefault m (heldCells q t)) k = b :=
    tblGet_tblSetMany_of_mem ((mem_keys_heldCells w q k).2 ⟨b, hk⟩)
      (fun c hc => by simpa [hk, eq_comm] using (mem_heldCells w q k c).1 hc) m
  have kept (q : Bool) (hk : ∀ b, tblGet none t k ≠ some (b, q)) (m : List Host.Cell) :
      tblGet memDefault (tblSetMany memDefault m (heldCells q t)) k = tblGet memDefault m k :=
    tblGet_tblSetMany_of_notMem (fun h => ((mem_keys_heldCells w q k).1 h).elim hk) m
  match hk : tblGet none t k with
  | none => rw [kept true (by simp [hk]), kept false (by simp [hk])]
  | some (b, true) => exact written true b hk _
  | some (b, false) => rw [kept true (by simp [hk])]; exact written false b hk _

/-- Publishing a canonical table of bytes that are no peer's. -/
theorem State.Alone.publish {s : State} (h : s.Alone) {t : List (Nat × Held)} (w : tblWf none t = true)
    (hpeer : ∀ k, isPeerKey k = true → tblGet none t k = none) (gts : Nat) :
    Published s (s.publish t gts).1 t gts (s.publish t gts).2 := by
  by_cases ht : t = []
  · subst ht
    exact {
      frame := rfl
      held := fun _ _ _ hk => by cases hk
      other := fun _ _ => rfl
      unstamped := fun _ _ => rfl
      stamped := fun _ ⟨_, hk, _⟩ => absurd rfl hk
      clock := Nat.le_refl _
      unmoved := fun _ => rfl }
  · have hkeys : ∀ k ∈ t.map (·.1), isPeerKey k = false := fun k hk =>
      Bool.eq_false_iff.2 fun hp => (mem_keys_iff_tblGet w k).1 hk (hpeer k hp)
    obtain ⟨q, heq⟩ := h.publish_eq ht hkeys gts
    rw [heq]
    generalize hp : s.stampAbove (linesOf (t.map (·.1))) gts = p
    have hwts (l : Nat) : tblGet 0 (tblSetMany 0 s.wts ((linesOf (t.map (·.1))).map fun l => (l, p))) l =
        if l ∈ linesOf (t.map (·.1)) then p else s.wtsOf l := tblGet_tblSetMany_const ..
    exact {
      frame := rfl
      held := fun k b _ hk => by rw [byte_of_heldCells (s := s) w rfl, hk]
      other := fun k hk => by rw [byte_of_heldCells (s := s) w rfl, hk]
      unstamped := fun l hl => (hwts l).trans (if_neg fun h => hl ((mem_linesOf_keys w l).1 h))
      stamped := fun l hl => by
        have hmem := (mem_linesOf_keys w l).2 hl
        obtain ⟨hw, hr⟩ := s.stamps_lt_stampAbove hmem gts
        rw [hp] at hw hr
        exact ⟨(hwts l).trans (if_pos hmem), hw, hr, hp ▸ s.gts_lt_stampAbove _ _, Nat.le_max_right ..⟩
      clock := hp ▸ Nat.le_of_lt (s.gts_lt_stampAbove _ _)
      unmoved := fun h => absurd h ht }

end Sys2Proof.Machine
end

section
/-!
SUPPORT. A device on which nothing is on its way: releases, acquires and fences wait for nothing (05 R102 to R108).
-/
namespace Sys2Proof.Machine

/-! ## A device on which nothing is on its way. -/

/-- Nothing of the group's is outstanding, no core's port holds an access, and nothing is owed to a peer or asked of one:
whatever waits for such things goes on at once. -/
structure State.AtRest (s : State) : Prop where
  homeQ : s.homeQ = []
  ports : ∀ e ∈ s.cores, e.2.bankQ = []
  loads : s.g.loads = []
  pend : s.g.pend = []
  det : s.g.det = none
  reqs : s.fab.reqs = []
  own : s.own = { holders := s.own.holders }

/-- Outside a section a scope acts as it is given (05 R94). -/
theorem Group.scopeOf_onCore {g : Group} (h : g.OnCore) (sc : Scope) : g.scopeOf sc = sc := by
  simp [Group.scopeOf, show g.isSection = false from h]

theorem State.Quiet.atRest {s : State} (hq : s.Quiet) (ha : s.Alone) (hp : s.g.pend = []) : s.AtRest := by
  obtain ⟨hhome, -, hcores, hloads, -⟩ := hq
  exact {
    homeQ := hhome
    ports := fun e he => (hcores e he).1
    loads := hloads
    pend := hp
    det := ha.noDet
    reqs := ha.noReqs
    own := by rw [ha.own] }

namespace State.AtRest

variable {s : State} (h : s.AtRest)
include h

theorem settled : s.Settled :=
  ⟨h.homeQ, h.loads, fun e he a ha _ => by rw [h.ports e he] at ha; cases ha⟩

theorem settleOwn : s.settleOwn = s := h.settled.settleOwn

theorem bankQ_core (c : Nat) : (s.core c).bankQ = [] :=
  List.eq_nil_iff_forall_not_mem.2 fun a ha => by
    obtain ⟨e, he, hae⟩ := State.mem_bankQ_core ha
    rw [h.ports e he] at hae
    cases hae

theorem reading : s.g.reading = false := by simp [Group.reading, h.pend]

theorem unread : s.g.unread = [] := by simp [Group.unread, h.pend]

theorem atomsOut : s.atomsOut = false := by
  have hports : (s.cores.any fun e => e.2.bankQ.any fun a => a.gid == s.g.gid && a.op.isSome) = false :=
    List.any_eq_false.2 fun e he => by simp [h.ports e he]
  simp [State.atomsOut, State.opsOut, h.homeQ, h.reqs, hports]

theorem flushInvals : s.flushInvals = s := by
  unfold State.flushInvals
  rw [h.own]
  rfl

theorem noMigs : s.own.migs = [] := by rw [h.own]

theorem releaseHeld : s.releaseHeld = false := by simp [State.releaseHeld, h.noMigs]

theorem releaseBank (sc : Scope) : s.releaseBank sc = s := by
  unfold State.releaseBank State.drainOwn State.drainBanks State.passBanks
  split
  · rfl
  · split
    · next c _ _ => simp [h.bankQ_core c]
    · rfl

theorem portsBusy (sc : Scope) : s.portsBusy sc = false := by
  unfold State.portsBusy
  split
  · next c _ _ => simp [h.bankQ_core c]
  · simp

/-- A FABRIC release waits for nothing. -/
theorem fabWants : s.fabWants = none := by
  unfold State.fabWants State.notExclusive State.invalsOut
  rw [h.own, h.reqs]
  rfl

theorem acquire : s.acquire = s.setG { s.g with gts := Nat.max s.g.gts s.pclk } := by
  simp [State.acquire, h.det]

theorem acquiring (k : State → Out) : Machine.acquiring s k = k s.acquire := by
  unfold Machine.acquiring
  simp only [h.settleOwn, h.reading, Bool.false_eq_true, if_false]

theorem setG {g : Group} (hloads : g.loads = []) (hpend : g.pend = []) (hdet : g.det = none) : (s.setG g).AtRest :=
  ⟨h.homeQ, h.ports, hloads, hpend, hdet, h.reqs, h.own⟩

/-- A release goes through at once where it leaves nothing on its way (05 R104). -/
theorem releasing {v : State} {sc : Scope} (hcore : s.g.OnCore)
    (hv : s.releaseSome sc s.g.allPriv (Group.allPublished sc) = v) (hafter : v.AtRest) (k : State → Out) :
    Machine.releasing s sc k = k v := by
  have hrelease : s.release sc = v := by
    simp [State.release, Group.scopeOf_onCore hcore, h.settleOwn, h.releaseBank, State.releaseGlob, h.det, hv,
      hafter.flushInvals]
  have hstep : s.releaseStep sc = (v, none) := by
    simp [State.releaseStep, h.settleOwn, h.reading, h.atomsOut, h.releaseHeld, hrelease, hafter.portsBusy,
      hafter.fabWants]
  simp [Machine.releasing, hstep]

/-- The group's one fence, not yet published, is published and ended at once where that leaves nothing on its way
(05 R107, R108). -/
theorem finishFence {v : State} {f : FenceRec} (hcore : s.g.OnCore) (hf : s.g.fences = [f]) (hopen : f.published = false)
    (hv : (s.releaseSome f.scope (tblSetMany none [] f.cover) fun g =>
      { g with fences := markFences f.scope 1 g.fences }) = v) (hafter : v.AtRest) :
    s.finishFence f.k = v.endFence f := by
  have hfind : s.g.fenceOf f.k = some f := by simp [Group.fenceOf, hf, findFirst]
  have hearly : s.fenceEarly f = false := by simp [State.fenceEarly, h.pend, h.atomsOut, h.noMigs]
  have hrun : s.runFence f = v := by
    simp [State.runFence, Group.scopeOf_onCore hcore, h.releaseBank, State.publishFence, hopen, hf, fencesTo, foldL,
      h.det, hv, hafter.flushInvals]
  simp [State.finishFence, h.settleOwn, hfind, hearly, hrun, hafter.portsBusy, hafter.fabWants]

end State.AtRest

end Sys2Proof.Machine
end

section
/-!
SUPPORT. Releasing at a scope on a quiet device that no peer concerns (05 R99, R100, 03 R59): above the core the bytes
are published, within it they become narrow-published.
-/
namespace Sys2Proof.Machine

/-! ## A quiet device that no peer concerns. -/

theorem State.Quiet.narrow_core {s : State} (h : s.Quiet) (c : Nat) : (s.core c).narrow = [] := by
  obtain ⟨-, -, hcores, -⟩ := h
  unfold State.core
  rcases tblGet_default_or_mem {} s.cores c with hd | ⟨e, he, hd⟩ <;> rw [hd]
  exact (hcores e he).2

theorem State.Quiet.setCore_self {s : State} (h : s.Quiet) (c : Nat) : (s.setCore c (s.core c)).Quiet := by
  have hself := And.intro (h.bankQ_core c) (h.narrow_core c)
  obtain ⟨hhome, hup, hcores, hrest⟩ := h
  refine ⟨hhome, hup, fun e he => ?_, hrest⟩
  rcases mem_of_mem_tblSet he with he | rfl
  · exact hcores e he
  · exact hself

theorem State.core_setCore_self (s : State) (c d : Nat) : (s.setCore c (s.core c)).core d = s.core d := by
  unfold State.core State.setCore
  rw [tblGet_tblSet]
  split
  · next h => rw [h]
  · rfl

theorem State.Quiet.forcePublish {s : State} (h : s.Quiet) (c : Nat) : s.forcePublish c = s := by
  simp [State.forcePublish, State.forceBut, h.narrow_core c]

theorem State.Quiet.widen {s : State} (h : s.Quiet) (c : Option Nat) (ks : List Nat) : s.widen c ks = s := by
  obtain ⟨-, -, hcores, -⟩ := h
  have hnone : s.narrowHolders c (linesOf ks) = [] :=
    List.filterMap_eq_nil_iff.2 fun e he => by simp [(hcores e he).2]
  simp [State.widen, hnone, foldL]

theorem State.Quiet.overCut {s : State} (h : s.Quiet) (die : Nat) (t : List (Nat × Held)) :
    s.overCut die t = (s, t) := by
  obtain ⟨-, hup, -⟩ := h
  simp [State.overCut, hup]

theorem State.Quiet.narrowOf {s : State} (h : s.Quiet) (c gid : Nat) : s.narrowOf c gid = [] := by
  simp [State.narrowOf, h.narrow_core c]

/-! ## A release above the core. -/

/-- A release at a wide scope publishes its bytes under one stamp; the core's entry is written as it stands (05 R99). -/
theorem State.releaseSome_wide {s : State} {c x : Nat} {sc : Scope} (hu : s.g.unit = .core c x) (hq : s.Quiet) (ha : s.Alone)
    (hsc : narrowScope sc = false) {t : List (Nat × Held)} (w : tblWf none t = true) (f : Group → Group) :
    s.releaseSome sc t f =
      ((s.setCore c (s.core c)).publish t s.g.gts).1.setG
        { f s.g with gts := ((s.setCore c (s.core c)).publish t s.g.gts).2 } := by
  have hq' := hq.setCore_self c
  unfold State.releaseSome
  simp [hu, hsc, hq.narrowOf, tblSetMany_nil w, State.modCore, State.Alone.dropHolder (s := s.setCore c (s.core c)) ha,
    hq'.forcePublish, hq'.overCut, hq'.widen]

/-! ## A release within the core. -/

/-- What a state differs in once held bytes are narrow-published on a core under a group's name (05 R100): the core holds
them, and it is recorded as the one narrow holder of their lines. -/
structure NarrowPublished (s u : State) (c gid : Nat) (t : List (Nat × Held)) : Prop where
  frame : u = { s with cores := u.cores, own := { s.own with holders := u.own.holders } }
  others : ∀ d, d ≠ c → u.core d = s.core d
  atCore : u.core c = { s.core c with narrow := (u.core c).narrow, nown := (u.core c).nown }
  narrow : ∀ k, tblGet none (u.core c).narrow k = tblGet none t k
  named : ∀ k, tblGet none t k ≠ none → tblGet 0 (u.core c).nown k = gid + 1
  holders : ∀ l, tblGet [] u.own.holders l = if (t.any fun e => lineOf e.1 == l) then [c] else []
  ports : ∀ e ∈ u.cores, e.2.bankQ = []

/-- A core that holds some bytes more narrow-published, under a group's name. -/
def Core.withNarrow (x : Core) (gid : Nat) (t : List (Nat × Held)) : Core :=
  { x with
    narrow := tblSetMany none x.narrow t
    nown := tblSetMany 0 x.nown ((t.map (·.1)).map fun k => (k, gid + 1)) }

theorem State.narrowOut_eq {s : State} (h : s.fab.reqs = []) (c : Nat) {t : List (Nat × Held)} (ht : t ≠ []) :
    s.narrowOut c t = (s.setCore c ((s.core c).withNarrow s.g.gid t)).noteHolders c (linesOf (t.map (·.1))) := by
  simp [State.narrowOut, ht, h, State.modCore, Core.withNarrow]

/-- Where a line has no narrow holder but one core, that core becomes the holder of some lines and nothing is forced out
(03 R59). -/
theorem State.noteHolders_eq (s : State) (c : Nat) (ls : List Nat)
    (h : ∀ l, tblGet [] s.own.holders l = [] ∨ tblGet [] s.own.holders l = [c]) :
    ∃ H, s.noteHolders c ls = { s with own := { s.own with holders := H } } ∧
      ∀ l, tblGet [] H l = if l ∈ ls then [c] else tblGet [] s.own.holders l := by
  induction ls generalizing s with
  | nil => exact ⟨s.own.holders, rfl, fun l => by simp⟩
  | cons a ls ih =>
    rcases h a with ha | ha
    · have hstep : s.noteHolders c (a :: ls) =
          State.noteHolders { s with own := { s.own with holders := tblSet [] s.own.holders a [c] } } c ls := by
        simp [State.noteHolders, ha]
      obtain ⟨H, hH, hget⟩ := ih { s with own := { s.own with holders := tblSet [] s.own.holders a [c] } } fun l => by
        rw [tblGet_tblSet]
        split
        · exact .inr rfl
        · exact h l
      refine ⟨H, hstep.trans hH, fun l => ?_⟩
      rw [hget, tblGet_tblSet]
      by_cases hl : l = a <;> simp [hl]
    · have hstep : s.noteHolders c (a :: ls) = s.noteHolders c ls := by simp [State.noteHolders, ha]
      obtain ⟨H, hH, hget⟩ := ih s h
      refine ⟨H, hstep.trans hH, fun l => ?_⟩
      rw [hget]
      by_cases hl : l = a <;> simp [hl, ha]

theorem State.Quiet.narrowOut {s : State} (hq : s.Quiet) (ha : s.Alone) (c : Nat) {t : List (Nat × Held)}
    (w : tblWf none t = true) : NarrowPublished s (s.narrowOut c t) c s.g.gid t := by
  obtain ⟨-, -, hcores, -⟩ := id hq
  by_cases ht : t = []
  · subst ht
    exact {
      frame := rfl
      others := fun _ _ => rfl
      atCore := rfl
      narrow := fun k => congrArg (tblGet none · k) (hq.narrow_core c)
      named := fun _ hk => absurd rfl hk
      holders := fun l => by
        rw [show s.narrowOut c [] = s from rfl, ha.own]
        rfl
      ports := fun e he => (hcores e he).1 }
  · have hout := State.narrowOut_eq ha.noReqs c ht
    generalize hy : (s.core c).withNarrow s.g.gid t = y at hout
    have hnone (l : Nat) : tblGet [] (s.setCore c y).own.holders l = [] := by
      rw [State.setCore_own, ha.own]
      rfl
    obtain ⟨H, hH, hget⟩ := (s.setCore c y).noteHolders_eq c (linesOf (t.map (·.1))) fun l => .inl (hnone l)
    have hcore (d : Nat) : (s.narrowOut c t).core d = if d = c then y else s.core d := by
      rw [hout, hH]
      exact tblGet_tblSet ..
    have hcoreC : (s.narrowOut c t).core c = y := (hcore c).trans (if_pos rfl)
    exact {
      frame := by rw [hout, hH]; rfl
      others := fun d hd => (hcore d).trans (if_neg hd)
      atCore := by rw [hcoreC, ← hy]; rfl
      narrow := fun k => by
        rw [hcoreC, ← hy]
        simp only [Core.withNarrow, hq.narrow_core, tblSetMany_nil w]
      named := fun k hk => by
        rw [hcoreC, ← hy]
        exact (tblGet_tblSetMany_const ..).trans (if_pos ((mem_keys_iff_tblGet w k).2 hk))
      holders := fun l => by
        rw [hout, hH]
        simp only [hget, hnone, any_lineOf_iff]
      ports := fun e he => by
        rw [hout, hH] at he
        rcases mem_of_mem_tblSet he with he | rfl
        · exact (hcores e he).1
        · rw [← hy]; exact hq.bankQ_core c }

theorem State.releaseSome_narrow {s : State} {c x : Nat} {sc : Scope} (hu : s.g.unit = .core c x)
    (hsc : narrowScope sc = true) (t : List (Nat × Held)) (f : Group → Group) :
    s.releaseSome sc t f = (s.narrowOut c t).setG (f s.g) := by
  simp [State.releaseSome, hu, hsc]

theorem Published.atRest {s u : State} {t : List (Nat × Held)} {gts p : Nat} (h : Published s u t gts p)
    (hs : s.AtRest) : u.AtRest := by
  obtain ⟨hhome, hports, hloads, hpend, hdet, hreqs, hown⟩ := hs
  rw [h.frame]
  exact ⟨hhome, hports, hloads, hpend, hdet, hreqs, hown⟩

theorem NarrowPublished.atRest {s u : State} {c gid : Nat} {t : List (Nat × Held)} (h : NarrowPublished s u c gid t)
    (hs : s.AtRest) : u.AtRest := by
  obtain ⟨hhome, -, hloads, hpend, hdet, hreqs, hown⟩ := hs
  have hports := h.ports
  rw [h.frame] at hports ⊢
  exact ⟨hhome, hports, hloads, hpend, hdet, hreqs, by rw [hown]⟩

end Sys2Proof.Machine
end

section
/-!
THEOREM. REL, PHASE, ACQ, FENCE and FWAIT on a quiet device that no peer concerns (05 R98 to R108, 14 R315).
-/
namespace Sys2Proof.Machine

theorem Group.own_of_noFences {g : Group} (h : g.fences = []) (k : Nat) : g.own k = tblGet none g.priv k := by
  unfold Group.own
  rw [h]
  cases tblGet none g.priv k <;> rfl

theorem Group.allPriv_of_noFences {g : Group} (h : g.fences = []) (w : tblWf none g.priv = true) : g.allPriv = g.priv := by
  unfold Group.allPriv
  rw [h]
  exact tblSetMany_nil w

theorem Group.allPublished_of_noFences {g : Group} (h : g.fences = []) (sc : Scope) :
    g.allPublished sc = { g with priv := [] } := by
  unfold Group.allPublished
  rw [h]
  rfl

theorem narrowScope_eq_false_iff (sc : Scope) : narrowScope sc = false ↔ sc ≠ .grp ∧ sc ≠ .core := by
  cases sc <;> decide

theorem Group.kGet_kSet (g : Group) (r q : Nat) (t : Tok) : (g.kSet r t).kGet q = if q = r then t else g.kGet q :=
  tblGet_tblSet ..
@[simp] theorem Group.kGet_kSet_same (g : Group) (r : Nat) (t : Tok) : (g.kSet r t).kGet r = t := by
  rw [Group.kGet_kSet, if_pos rfl]
theorem Group.kGet_retire (g : Group) (n r : Nat) : (g.retire n).kGet r = g.kGet r := rfl

/-! ## What the instructions do on a device at rest. -/

theorem State.AtRest.execRel {s v : State} (h : s.AtRest) {sc : Scope} (hcore : s.g.OnCore)
    (hv : s.releaseSome sc s.g.allPriv (Group.allPublished sc) = v) (hafter : v.AtRest) :
    exec (.rel sc) s = .next (v.retire 1) :=
  h.releasing hcore hv hafter fun s => .next (s.retire 1)

theorem State.AtRest.execPhase {s v : State} (h : s.AtRest) {sc : Scope} (hcore : s.g.OnCore)
    (hv : s.releaseSome sc s.g.allPriv (Group.allPublished sc) = v) (hafter : v.AtRest) :
    exec (.phase sc) s = .next (v.acquire.retire 1) :=
  (h.releasing hcore hv hafter fun s => Machine.acquiring s fun s => .next (s.retire 1)).trans (hafter.acquiring _)

theorem State.AtRest.execAcq {s : State} (h : s.AtRest) (sc : Scope) :
    exec (.acq sc) s = .next (s.acquire.retire 1) := h.acquiring fun s => .next (s.retire 1)

/-- An acquire that retires only raises the group's clock to PCLK (05 R102). -/
theorem State.AtRest.acquire_retire {s : State} (h : s.AtRest) :
    OnlyGroup s (s.acquire.retire 1) ∧ Retired 1 s.g (s.acquire.retire 1).g ∧
      (s.acquire.retire 1).g.gts = max s.g.gts s.pclk ∧
      (s.acquire.retire 1).g = { s.g with
        gts := (s.acquire.retire 1).g.gts, pc := (s.acquire.retire 1).g.pc
        retired := (s.acquire.retire 1).g.retired, block := (s.acquire.retire 1).g.block } := by
  rw [h.acquire]
  exact ⟨⟨rfl, fun _ => ⟨rfl, rfl⟩⟩, ⟨rfl, rfl, rfl⟩, rfl, rfl⟩

/-- A FENCE whose token is free takes the group's unpublished bytes over (05 R107). -/
theorem State.AtRest.execFence {s : State} (h : s.AtRest) (sc : Scope) {k : KReg} (hk : (s.g.kGet k.val).pending = false) :
    exec (.fence sc k) s = .next ((s.setG (({ s.g with
      priv := []
      fences := s.g.fences ++ [{ k := k.val, scope := sc, cover := s.g.priv, published := false, waits := [] }] } :
        Group).kSet k.val { kind := .fence, pending := true, scope := sc })).retire 1) := by
  change Machine.execFence sc k s = _
  simp [Machine.execFence, hk, h.det, h.unread]

/-- An FWAIT whose token is not pending is an acquire (05 R108). -/
theorem State.AtRest.execFwait_free {s : State} (h : s.AtRest) {k : KReg} (hk : (s.g.kGet k.val).pending = false)
    (hf : s.g.fences = []) :
    exec (.fwait k) s = .next (s.acquire.retire 1) := by
  have hfinish : s.finishFence k.val = s := by
    unfold State.finishFence
    simp [h.settleOwn, Group.fenceOf, hf, findFirst]
  change Machine.execFwait k s = _
  cases hkind : (s.g.kGet k.val).kind <;> simp [Machine.execFwait, hkind, inTurn, h.det, hfinish, hk, h.acquiring]

/-- An FWAIT of a pending fence that comes to its end is an acquire after that (05 R108). -/
theorem execFwait_of_fence {s : State} {k : KReg} (hkind : (s.g.kGet k.val).kind = .fence)
    (hafter : (s.finishFence k.val).AtRest) (hdone : ((s.finishFence k.val).g.kGet k.val).pending = false) :
    exec (.fwait k) s = .next ((s.finishFence k.val).acquire.retire 1) := by
  change Machine.execFwait k s = _
  simp [Machine.execFwait, hkind, hdone, hafter.acquiring]

/-- What a release of a group on a core has done to the device when its clock comes to `p`: its unpublished bytes are
published under one stamp (05 R99), or narrow-published on the core (05 R100). -/
def ReleasedTo (s v : State) (sc : Scope) (c p : Nat) : Prop :=
  (narrowScope sc = false ∧ Published (s.setCore c (s.core c)) v s.g.priv s.g.gts p) ∨
    (narrowScope sc = true ∧ p = s.g.gts ∧ NarrowPublished s v c s.g.gid s.g.priv)

theorem ReleasedTo.clock {s v : State} {sc : Scope} {c p : Nat} (h : ReleasedTo s v sc c p) : s.g.gts ≤ p := by
  rcases h with ⟨-, hpub⟩ | ⟨-, hp, -⟩
  · exact hpub.clock
  · exact Nat.le_of_eq hp.symm

theorem ReleasedTo.clock_of_noPriv {s v : State} {sc : Scope} {c p : Nat} (h : ReleasedTo s v sc c p)
    (hnone : s.g.priv = []) : p = s.g.gts := by
  rcases h with ⟨-, hpub⟩ | ⟨-, hp, -⟩
  · exact hpub.unmoved hnone
  · exact hp

/-- A release on a quiet device is one or the other, and leaves the device at rest. -/
theorem State.Quiet.release {s : State} {c x : Nat} (hq : s.Quiet) (ha : s.Alone) (hpend : s.g.pend = [])
    (hu : s.g.unit = .core c x) (hf : s.g.fences = []) (w : tblWf none s.g.priv = true)
    (hpeer : ∀ k, isPeerKey k = true → tblGet none s.g.priv k = none) (sc : Scope) :
    ∃ v p, s.releaseSome sc s.g.allPriv (Group.allPublished sc) = v.setG { s.g with priv := [], gts := p } ∧
      (v.setG { s.g with priv := [], gts := p }).AtRest ∧ ReleasedTo s v sc c p := by
  have hrest := hq.atRest ha hpend
  rw [Group.allPriv_of_noFences hf w]
  cases hsc : narrowScope sc with
  | false =>
    have hpub := State.Alone.publish (s := s.setCore c (s.core c)) ha w hpeer s.g.gts
    have hv := hpub.atRest ((hq.setCore_self c).atRest ha hpend)
    refine ⟨_, _, ?_, ?_, .inl ⟨hsc, hpub⟩⟩
    · rw [State.releaseSome_wide hu hq ha hsc w, Group.allPublished_of_noFences hf]
    · exact hv.setG hrest.loads hrest.pend hrest.det
  | true =>
    have hpub := hq.narrowOut ha c w
    have hv := hpub.atRest hrest
    refine ⟨_, s.g.gts, ?_, ?_, .inr ⟨hsc, rfl, hpub⟩⟩
    · rw [State.releaseSome_narrow hu hsc, Group.allPublished_of_noFences hf]
    · exact hv.setG hrest.loads hrest.pend hrest.det

/-- REL leaves the group as the release does, and PHASE raises its clock to PCLK besides (05 R104). -/
theorem State.Quiet.rel_and_phase {s : State} {c x : Nat} (hq : s.Quiet) (ha : s.Alone) (hpend : s.g.pend = [])
    (hu : s.g.unit = .core c x) (hf : s.g.fences = []) (w : tblWf none s.g.priv = true)
    (hpeer : ∀ k, isPeerKey k = true → tblGet none s.g.priv k = none) (sc : Scope) :
    ∃ v p, ReleasedTo s v sc c p ∧
      exec (.rel sc) s = .next (v.setG (({ s.g with priv := [], gts := p } : Group).retire 1)) ∧
      exec (.phase sc) s =
        .next (v.setG (({ s.g with priv := [], gts := Nat.max p v.pclk } : Group).retire 1)) := by
  have hcore : s.g.OnCore := by rw [Group.OnCore, Group.isSection, hu]; rfl
  have hrest := hq.atRest ha hpend
  obtain ⟨v, p, heq, hafter, hto⟩ := hq.release ha hpend hu hf w hpeer sc
  refine ⟨v, p, hto, hrest.execRel hcore heq hafter, ?_⟩
  rw [hrest.execPhase hcore heq hafter, hafter.acquire]
  rfl

/-- The fence of an ended FENCE is gone and its token is no longer pending (05 R107). -/
theorem State.endFence_token (s : State) {f : FenceRec} (h : f.arv = none) :
    s.endFence f = s.setG (({ s.g with fences := dropFirst (fun x => x.k == f.k) s.g.fences } : Group).kSet f.k
      { s.g.kGet f.k with pending := false }) := by
  unfold State.endFence
  rw [h]
  rfl

/-- FWAIT of the group's one fence, at a wide scope: its bytes are published, the fence closed, the token free, and the
clock at PCLK (05 R107, R108). -/
theorem State.Quiet.fwait_fence {s : State} {c x : Nat} (hq : s.Quiet) (ha : s.Alone) (hpend : s.g.pend = [])
    (hu : s.g.unit = .core c x) {k : KReg} {f : FenceRec} (hf : s.g.fences = [f]) (hk : f.k = k.val)
    (hopen : f.published = false) (harv : f.arv = none) (hsc : narrowScope f.scope = false) (w : tblWf none f.cover = true)
    (hpeer : ∀ j, isPeerKey j = true → tblGet none f.cover j = none) (hkind : (s.g.kGet k.val).kind = .fence) :
    ∃ v p, Published (s.setCore c (s.core c)) v f.cover s.g.gts p ∧
      exec (.fwait k) s = .next (v.setG ((({ s.g with fences := [], gts := Nat.max p v.pclk } : Group).kSet k.val
        { s.g.kGet k.val with pending := false }).retire 1)) := by
  have hcore : s.g.OnCore := by rw [Group.OnCore, Group.isSection, hu]; rfl
  have hrest := hq.atRest ha hpend
  have hpub := State.Alone.publish (s := s.setCore c (s.core c)) ha w hpeer s.g.gts
  have hv := hpub.atRest ((hq.setCore_self c).atRest ha hpend)
  generalize hvp : (s.setCore c (s.core c)).publish f.cover s.g.gts = r at hpub hv
  obtain ⟨v, p⟩ := r
  have hsome : (s.releaseSome f.scope (tblSetMany none [] f.cover) fun g =>
      { g with fences := markFences f.scope 1 g.fences }) =
      v.setG { s.g with fences := [{ f with cover := [], published := true }], gts := p } := by
    rw [tblSetMany_nil w, State.releaseSome_wide hu hq ha hsc w, hvp, hf]
    simp [markFences, scopeMeets, hsc]
  have hrel : (v.setG { s.g with fences := [{ f with cover := [], published := true }], gts := p }).AtRest :=
    hv.setG hrest.loads hrest.pend hrest.det
  have hfinish : s.finishFence k.val = v.setG (({ s.g with fences := [], gts := p } : Group).kSet k.val
      { s.g.kGet k.val with pending := false }) := by
    rw [← hk, hrest.finishFence hcore hf hopen hsome hrel, State.endFence_token _ harv]
    simp [dropFirst, State.setG, Group.kGet]
  have hend : (s.finishFence k.val).AtRest := by
    rw [hfinish]
    exact hv.setG hrest.loads hrest.pend hrest.det
  have hfree : ((s.finishFence k.val).g.kGet k.val).pending = false := by
    rw [hfinish, State.setG_g, Group.kGet_kSet_same]
  refine ⟨v, p, hpub, ?_⟩
  rw [execFwait_of_fence hkind hend hfree, hend.acquire, hfinish]
  rfl

/-- Settles O31: on a quiet device a release, an acquire and a fence's release part go through at once, and the bytes are
published by `State.publish` under one stamp, or narrow-published by `State.narrowOut`. -/
theorem releaseAcquireFence : Obligations.ReleaseAcquireFence := by
  unfold Obligations.ReleaseAcquireFence
  refine ⟨?release, ?fence⟩
  case release =>
    intro s sc c x hu hq ha hpend hf w hpeer held touched wide released
    have hrest := hq.atRest ha hpend
    have hown : s.g.own = tblGet none s.g.priv := funext (Group.own_of_noFences hf)
    have htouched (l : Nat) : touched l ↔ Touches s.g.priv l := by
      simp only [touched, held, hown]
      exact Iff.rfl
    have hwide : wide ↔ narrowScope sc = false := (narrowScope_eq_false_iff sc).symm
    obtain ⟨v, p, hto, hrel, hphase⟩ := hq.rel_and_phase ha hpend hu hf w (hown ▸ hpeer) sc
    have hreleased (q : Nat) (hpq : p ≤ q) :
        released (v.setG (({ s.g with priv := [], gts := q } : Group).retire 1)) := by
      have hgts : s.g.gts ≤ q := Nat.le_trans hto.clock hpq
      rcases hto with ⟨hsc, hpub⟩ | ⟨hsc, -, hpub⟩
      · have hframe := hpub.frame
        refine ⟨rfl, ⟨rfl, rfl, rfl⟩, hgts, fun k hk => ?other, rfl, ?frame,
          fun _ => ⟨?own, ?bytes, ?cores, ?old, p, ?new⟩, fun hn => absurd (hwide.2 hsc) hn⟩
        case other => exact hpub.other k (hown ▸ Classical.not_not.1 hk)
        case frame => rw [hframe]; rfl
        case own => rw [hframe]; rfl
        case bytes => exact fun k b r hk => hpub.held k b r (hown ▸ hk)
        case cores =>
          intro d
          rw [hframe]
          exact s.core_setCore_self c d
        case old => exact fun l hl => hpub.unstamped l fun h => hl ((htouched l).2 h)
        case new =>
          intro l hl
          obtain ⟨hstamp, hw, hr, hg, hclk⟩ := hpub.stamped l ((htouched l).1 hl)
          exact ⟨hstamp, hw, hr, hg, hpq, hclk⟩
      · have hframe := hpub.frame
        have hbyte (k : Nat) : v.byte k = s.byte k := by rw [hframe]; rfl
        refine ⟨rfl, ⟨rfl, rfl, rfl⟩, hgts, fun k _ => hbyte k, rfl, ?frame, fun hn => ?notWide,
          fun _ => ⟨hbyte, ?pclk, hpub.others, hpub.atCore, ?narrow, ?named, hpub.holders⟩⟩
        case frame => rw [hframe]; rfl
        case notWide => rw [hwide.1 hn] at hsc; cases hsc
        case pclk => rw [hframe]; rfl
        case narrow => rw [hown]; exact hpub.narrow
        case named => exact fun k hk => hpub.named k (hown ▸ hk)
    exact ⟨⟨_, hrel, hreleased p (Nat.le_refl p), hto.clock_of_noPriv⟩,
      ⟨_, hphase, hreleased _ (Nat.le_max_left ..), Nat.le_max_right ..⟩, ⟨_, hrest.execAcq sc, hrest.acquire_retire⟩⟩
  case fence =>
    intro s sc k c x hu hq ha hpend
    have hrest := hq.atRest ha hpend
    refine ⟨fun hfree => ⟨⟨_, hrest.execFence sc hfree, ⟨rfl, fun _ => ⟨rfl, rfl⟩⟩, ⟨rfl, rfl, rfl⟩, fun r => ?token,
      rfl, rfl⟩, fun hf => ⟨_, hrest.execFwait_free hfree hf, hrest.acquire_retire⟩⟩, ?wait⟩
    case token =>
      rw [State.retire_g, State.setG_g, Group.kGet_retire, Group.kGet_kSet]
      rfl
    case wait =>
      intro cover hf w hpeer hgrp hcor _ hkind
      obtain ⟨v, p, hpub, hexec⟩ := hq.fwait_fence ha hpend hu hf rfl rfl rfl
        ((narrowScope_eq_false_iff sc).2 ⟨hgrp, hcor⟩) w hpeer hkind
      refine ⟨_, hexec, ⟨rfl, rfl, rfl⟩, rfl, ?free, hpub.held, hpub.other,
        Nat.le_max_right .., rfl, fun r hr => ?others, rfl, rfl, rfl⟩
      case free => rw [State.setG_g, Group.kGet_retire, Group.kGet_kSet_same]
      case others => rw [State.setG_g, Group.kGet_retire, Group.kGet_kSet, if_neg hr]; rfl

end Sys2Proof.Machine
end

section
/-!
SUPPORT. Residue arithmetic (07 R159 to R162): residues follow sums of products, their packing in the tile loses nothing,
and mixed-radix reconstruction gives the integer back.
-/
namespace Sys2Proof.Machine

/-! ## Lists, and tables from a function. -/

theorem foldL_eq_foldl {α β : Type} (f : β → α → β) (b : β) (l : List α) : foldL f b l = l.foldl f b := by
  induction l generalizing b with
  | nil => rfl
  | cons a l ih => exact ih _

theorem from_eq_range' (a n : Nat) : from_ a n = List.range' a n := by
  induction n generalizing a with
  | zero => rfl
  | succ n ih => rw [from_, ih, List.range'_succ]

theorem from_zero_eq_range (n : Nat) : from_ 0 n = List.range n := by rw [from_eq_range', List.range_eq_range']

/-- Listing only the values other than the default, a table reads the function at the keys given. -/
theorem tblGet_filterMap {α : Type} [DecidableEq α] (d : α) (f : Nat → α) (ks : List Nat) (k : Nat) :
    tblGet d (ks.filterMap fun j => if f j = d then none else some (j, f j)) k = if k ∈ ks then f k else d := by
  induction ks with
  | nil => rfl
  | cons j ks ih =>
    by_cases hd : f j = d
    · rw [List.filterMap_cons_none (by rw [if_pos hd]), ih]
      by_cases hj : k = j
      · subst hj; simp [hd]
      · simp [hj]
    · rw [List.filterMap_cons_some (by rw [if_neg hd]), tblGet, ih]
      by_cases hj : j = k
      · subst hj; simp
      · simp [hj, Ne.symm hj]

theorem tblGet_tabulate {α : Type} [DecidableEq α] (d : α) (n : Nat) (f : Nat → α) (k : Nat) :
    tblGet d (tabulate d n f) k = if k < n then f k else d := by
  rw [tabulate, tblGet_filterMap]
  simp only [List.mem_range]

/-! ## Residues (07 R160). -/

/-- One modulus: adding the product of two residues to a residue gives that of the sum. -/
theorem emod_accumulate {m : Int} (hm : m ≠ 0) (P a b : Int) :
    (((P % m).toNat : Int) + a % m * (b % m)) % m = (P + a * b) % m := by
  rw [Int.toNat_of_nonneg (Int.emod_nonneg P hm), Int.emod_add_emod, Int.add_emod, ← Int.mul_emod, ← Int.add_emod]

theorem accRes_residues (P a b : Int) : accRes (residues P) a b = residues (P + a * b) := by
  simp only [accRes, residues]
  rw [emod_accumulate (by decide), emod_accumulate (by decide), emod_accumulate (by decide)]

/-- The residues of a sum of products, accumulated product by product. -/
theorem foldl_accRes (f g : Nat → Int) (ks : List Nat) (P : Int) :
    ks.foldl (fun r k => accRes r (f k) (g k)) (residues P) = residues (ks.foldl (fun S k => S + f k * g k) P) := by
  induction ks generalizing P with
  | nil => rfl
  | cons k ks ih => rw [List.foldl_cons, List.foldl_cons, accRes_residues, ih]

/-! ## The packing of the residue tile (10 R228). -/

theorem unpackRes_packRes {r : Nat × Nat × Nat} (h1 : r.1 < 2 ^ 11) (h2 : r.2.1 < 2 ^ 11) (h3 : r.2.2 < 2 ^ 12) :
    unpackRes (packRes r) = r := by
  obtain ⟨r1, r2, r3⟩ := r
  simp only [unpackRes, packRes, field, BitVec.toNat_ofNat, Prod.mk.injEq] at h1 h2 h3 ⊢
  omega

theorem unpackRes_packRes_residues (P : Int) : unpackRes (packRes (residues P)) = residues P := by
  apply unpackRes_packRes <;> simp only [residues] <;> omega

/-! ## Reconstruction (07 R162). -/

/-- The second digit of an integer in mixed radix, from its first two residues. -/
theorem mixedRadix_second (P : Int) : (P % 2047 - P % 2048) % 2048 = P / 2047 % 2048 := by omega

/-- The third digit, from the third residue and the digits before it: 1025 inverts 2047 · 2048 modulo 2049. -/
theorem mixedRadix_third (P : Int) :
    (P % 2049 - P % 2047 - 2047 * (P / 2047 % 2048)) * 1025 % 2049 = P / 4192256 % 2049 := by
  have hrest : P - P % 2047 - 2047 * (P / 2047 % 2048) = 4192256 * (P / 4192256) := by omega
  calc (P % 2049 - P % 2047 - 2047 * (P / 2047 % 2048)) * 1025 % 2049
      = (P - P % 2047 - 2047 * (P / 2047 % 2048)) * 1025 % 2049 := by
        generalize P % 2047 = x1, P / 2047 % 2048 = x2
        omega
    _ = P / 4192256 % 2049 := by rw [hrest]; omega

/-- The digits spell the integer modulo 2047 · 2048 · 2049. -/
theorem mixedRadix_sum (P : Int) :
    P % 2047 + 2047 * (P / 2047 % 2048) + 4192256 * (P / 4192256 % 2049) = P % 8589932544 := by omega

/-- The upper half of the range stands for the negative integers. -/
theorem signed_of_emod {P U : Int} (h : P.natAbs ≤ 4294966271) (hU : U = P % 8589932544) :
    (if U ≤ 4294966271 then U else U - 8589932544) = P := by
  split <;> omega

theorem crt_residues {P : Int} (h : P.natAbs ≤ 4294966271) :
    crt (residues P).1 (residues P).2.1 (residues P).2.2 = P := by
  have hcast (m : Int) (hm : m ≠ 0) : ((P % m).toNat : Int) = P % m := Int.toNat_of_nonneg (Int.emod_nonneg P hm)
  refine signed_of_emod h ?_
  simp only [residues]
  rw [hcast _ (by decide), hcast _ (by decide), hcast _ (by decide), mixedRadix_second, mixedRadix_third, mixedRadix_sum]

end Sys2Proof.Machine
end

section
/-!
THEOREM. What the two stages of a pair's residue array leave, and that an MMA accumulates the exact sum of its port products
(07 R159 to R163, 15 R330, R335).
-/
namespace Sys2Proof.Machine

/-! ## The residue tile. -/

/-- The exact sum of output (r, n)'s port products (07 R159). -/
def Mma.dot (x : Mma) (s : State) (lead r n : Nat) : Int :=
  (List.range x.K).foldl (fun acc k => acc + x.aPort s lead r k * x.bPort s lead k n) 0

/-- From nothing, all K steps give an output the residues of its exact sum. -/
theorem Mma.sum_eq_dot (x : Mma) (s : State) (lead r n : Nat) :
    x.sum s lead r n 0 x.K 0 = packRes (residues (x.dot s lead r n)) := by
  have hzero : unpackRes 0 = residues 0 := by decide
  rw [Mma.sum, hzero, foldL_eq_foldl, Nat.sub_zero, from_zero_eq_range, foldl_accRes, Mma.dot]

theorem Mma.tile_residues {x : Mma} (s : State) (lead : Nat) {r n : Nat} (hr : r < 128) (hn : n < 256)
    (hc : x.computes r n = true) :
    unpackRes (tblGet 0 (x.tile s lead 0 x.K []) (256 * r + n)) = residues (x.dot s lead r n) := by
  have hkey : (256 * r + n) / 256 = r ∧ (256 * r + n) % 256 = n := by omega
  rw [Mma.tile, tblGet_tabulate, if_pos (by omega), hkey.1, hkey.2, if_pos hc, tblGet, Mma.sum_eq_dot,
    unpackRes_packRes_residues]

/-- An element whose residues are those of an integer in range takes its update by that integer (07 R162, R163). -/
theorem Arr.convert_of_residues {a : Arr} {P : Int} {r n : Nat} (x : Mma) (old : W32) (h : P.natAbs ≤ 4294966271)
    (ht : unpackRes (tblGet 0 a.convRes (256 * r + n)) = residues P) :
    a.convert x r n old =
      accUpdate x.mode old P (x.ascale.getD r 0).toNat (x.bscale.getD n 0).toNat x.ndith := by
  rw [Arr.convert, ht, crt_residues h]

/-! ## The two stages. -/

theorem State.setArr_arr (s : State) (p q : Nat) (a : Arr) : (s.setArr p a).arr q = if q = p then a else s.arr q :=
  tblGet_tblSet ..

/-- The streaming of an MMA that has done no step ends, with the conversion stage free (15 R330). -/
theorem State.streamEnd_frame {s : State} {p : Nat} {x : Mma} (hx : (s.arr p).stream = some x)
    (hconv : (s.arr p).conv = none) (hfrozen : (s.arr p).frozen = false) (hfreezing : (s.arr p).freezing = false)
    (hkdone : (s.arr p).kdone = 0) (hres : (s.arr p).res = []) :
    ∃ b, s.streamEnd p = s.setArr p b ∧ b.stream = none ∧ b.conv = some (x.readPsn s (2 * p) 0 x.K) ∧
      b.convRes = x.tile s (2 * p) 0 x.K [] ∧ b.acc = (s.arr p).acc := by
  simp only [State.streamEnd, hx, hconv, hfrozen, hfreezing, hkdone, hres, Bool.or_self, Option.isSome_none,
    Bool.false_eq_true, if_false]
  exact ⟨_, rfl, rfl, rfl, by dsimp only, rfl⟩

theorem State.fireSnap_frame (s : State) (src : Nat) (tag : Option (BitVec 12)) :
    ∃ y, s.fireSnap src tag = { s with sys := y } := by
  unfold State.fireSnap
  split <;> exact ⟨_, rfl⟩

/-- An error record changes only the queue of records and the snapshot triggers (18 R407, R410). -/
theorem State.errorRecord_frame (s : State) (kind src die inst : Nat) (addr tag : W64) (count : Nat) :
    ∃ h y, s.errorRecord kind src die inst addr tag count = { s with hif := h, sys := y } := by
  simp only [State.errorRecord]
  split
  · obtain ⟨y, hy⟩ := State.fireSnap_frame (s.record _) 2 none
    exact ⟨_, y, hy⟩
  · split
    · obtain ⟨y, hy⟩ := State.fireSnap_frame (s.record _) 3 none
      exact ⟨_, y, hy⟩
    · exact ⟨_, _, rfl⟩

theorem State.uncorrectable_frame (s : State) (kind die inst : Nat) (addr tag : W64) :
    ∃ h y, s.uncorrectable kind die inst addr tag = { s with hif := h, sys := y } :=
  s.errorRecord_frame kind 3 die inst addr tag 1

/-- Both accumulators after the conversion of an MMA. -/
def Arr.convertedAcc (a : Arr) (x : Mma) : List (Nat × W32) :=
  tabulate 0 65536 fun k =>
    if (k / 32768 == x.acc && x.computes (k % 32768 / 256) (k % 256)) = true then
      a.convert x (k % 32768 / 256) (k % 256) (tblGet 0 a.acc k)
    else tblGet 0 a.acc k

/-- A conversion writes each output that its MMA computes, and no other element (15 R335). -/
theorem Arr.tblGet_convertedAcc (A : Arr) (x : Mma) {a r n : Nat} (ha : a < 2) (hr : r < 128) (hn : n < 256) :
    tblGet 0 (A.convertedAcc x) (32768 * a + 256 * r + n) =
      if a = x.acc ∧ x.computes r n = true then A.convert x r n (tblGet 0 A.acc (32768 * a + 256 * r + n))
      else tblGet 0 A.acc (32768 * a + 256 * r + n) := by
  have hacc : (32768 * a + 256 * r + n) / 32768 = a := by omega
  have hrow : (32768 * a + 256 * r + n) % 32768 / 256 = r := by omega
  have hcol : (32768 * a + 256 * r + n) % 256 = n := by omega
  rw [Arr.convertedAcc, tblGet_tabulate, if_pos (by omega), hacc, hrow, hcol]
  simp only [Bool.and_eq_true, beq_iff_eq]

/-- The end of a conversion writes the accumulators and frees its stage; where an operand was read poisoned, it also
records the error (15 R330, R337). -/
theorem State.convEnd_eq {s : State} {p : Nat} {x : Mma} (hx : (s.arr p).conv = some x) :
    ∃ b, s.convEnd p = (if (x.arowPsn.isEmpty && x.bcolPsn.isEmpty) = true then s.setArr p b
        else (s.setArr p b).uncorrectable 7 (s.sys.fuse.dieOf (2 * p)) (2 * p) 0 0) ∧
      b.stream = (s.arr p).stream ∧ b.conv = none ∧ b.acc = (s.arr p).convertedAcc x := by
  simp only [State.convEnd, hx]
  exact ⟨_, rfl, rfl, rfl, by simp only [Arr.convertedAcc]⟩

theorem State.convEnd_frame {s : State} {p : Nat} {x : Mma} (hx : (s.arr p).conv = some x) :
    ∃ b h y, s.convEnd p = { s.setArr p b with hif := h, sys := y } ∧
      b.stream = (s.arr p).stream ∧ b.conv = none ∧ b.acc = (s.arr p).convertedAcc x := by
  obtain ⟨b, hend, hb⟩ := State.convEnd_eq hx
  rw [hend]
  split
  · exact ⟨b, _, _, rfl, hb⟩
  · obtain ⟨h, y, hrec⟩ := (s.setArr p b).uncorrectable_frame 7 (s.sys.fuse.dieOf (2 * p)) (2 * p) 0 0
    exact ⟨b, h, y, hrec, hb⟩

/-- The marks of what was read poisoned do not change what an MMA writes, nor where. -/
theorem Arr.convertedAcc_readPsn (a : Arr) (x : Mma) (s : State) (lead k0 k1 : Nat) :
    a.convertedAcc (x.readPsn s lead k0 k1) = a.convertedAcc x := by
  have hcomputes (r n : Nat) : (x.readPsn s lead k0 k1).computes r n = x.computes r n := rfl
  have hconvert (r n : Nat) (old : W32) : a.convert (x.readPsn s lead k0 k1) r n old = a.convert x r n old := rfl
  have hacc : (x.readPsn s lead k0 k1).acc = x.acc := rfl
  simp only [Arr.convertedAcc, hcomputes, hconvert, hacc]

/-- Both stages of an MMA that has done no step: array b streamed it, and array c is what its conversion leaves. -/
theorem State.mma_ends {s : State} {p : Nat} {x : Mma} (hx : (s.arr p).stream = some x) (hconv : (s.arr p).conv = none)
    (hfrozen : (s.arr p).frozen = false) (hfreezing : (s.arr p).freezing = false) (hkdone : (s.arr p).kdone = 0)
    (hres : (s.arr p).res = []) :
    ∃ t u, ∃ b c : Arr, exec (.mmaStreamEnd p) s = .next t ∧ exec (.mmaConversionEnd p) t = .next u ∧
      (∀ q, u.arr q = if q = p then c else s.arr q) ∧ (∀ k, u.byte k = s.byte k) ∧ u.g = s.g ∧
      c.stream = none ∧ c.conv = none ∧ c.acc = b.convertedAcc x ∧
      b.acc = (s.arr p).acc ∧ b.convRes = x.tile s (2 * p) 0 x.K [] := by
  obtain ⟨b, ht, hbstream, hbconv, hbres, hbacc⟩ := State.streamEnd_frame hx hconv hfrozen hfreezing hkdone hres
  have harr : (s.setArr p b).arr p = b := by rw [State.setArr_arr, if_pos rfl]
  obtain ⟨c, h, y, hu, hcstream, hcconv, hcacc⟩ := State.convEnd_frame (harr ▸ hbconv)
  rw [harr] at hcstream hcacc
  rw [Arr.convertedAcc_readPsn] at hcacc
  refine ⟨s.setArr p b, (s.setArr p b).convEnd p, b, c, congrArg Host.Outcome.next ht, rfl, ?arrays, ?bytes, ?group,
    hcstream.trans hbstream, hcconv, hcacc, hbacc, hbres⟩ <;> rw [hu]
  case arrays =>
    intro q
    change ((s.setArr p b).setArr p c).arr q = _
    rw [State.setArr_arr, State.setArr_arr]
    split <;> rfl
  case bytes => exact fun _ => rfl
  case group => rfl

/-- Settles O42: the residues of a sum determine it, and the stages hand each output its residues and then its update. -/
theorem matrixExact : Obligations.MatrixExact := by
  unfold Obligations.MatrixExact
  refine ⟨fun P hP => crt_residues hP, ?_⟩
  intro s p m hm hconv hfrozen hfreezing hkdone hres hacc
  obtain ⟨t, u, b, c, ht, hu, harr, hbyte, hg, hstream, hcconv, hcacc, hbacc, hbres⟩ :=
    State.mma_ends hm hconv hfrozen hfreezing hkdone hres
  have hself : u.arr p = c := by rw [harr, if_pos rfl]
  refine ⟨t, u, ht, hu, hself ▸ hstream, hself ▸ hcconv, fun q hq => by rw [harr, if_neg hq], hbyte, hg, ?computed, ?kept⟩
  case computed =>
    intro r n hr hn hc hdot k
    have hwritten := Arr.tblGet_convertedAcc b m hacc hr hn
    rw [if_pos ⟨rfl, hc⟩, hbacc] at hwritten
    rw [hself, hcacc]
    exact hwritten.trans <| Arr.convert_of_residues m _ hdot (hbres ▸ Mma.tile_residues s (2 * p) hr hn hc)
  case kept =>
    intro a r n ha hr hn hother
    have hnot : ¬ (a = m.acc ∧ m.computes r n = true) := fun ⟨hme, hc⟩ =>
      hother.elim (absurd hme) fun hno => Bool.noConfusion (hno.symm.trans hc)
    rw [hself, hcacc, Arr.tblGet_convertedAcc b m ha hr hn, if_neg hnot, hbacc]

end Sys2Proof.Machine
end

section
/-!
SUPPORT. Return from an exception (10 R219, R220): TRET's use checks, and what it leaves of the group and the arrays.
-/
namespace Sys2Proof.Machine

/-! ## Checks 5 and 6 of a group on a core (11 R245). -/

/-- Check 6 refuses nothing to a group on a core: check 5 alone decides. -/
theorem useCheck_onCore {g : Group} (h : g.OnCore) (priv : Option W64) (sec : Option Nat) :
    useCheck g priv sec = priv.map fun info => (0x03, info) := by
  rw [useCheck.eq_def, show g.isSection = false from h, if_neg Bool.false_ne_true]

/-- An instruction without v registers runs, or raises PRIVILEGE with the TRAP_INFO that check 5 gives. -/
theorem checked_noRegs {s : State} (h : s.g.OnCore) (priv : Option W64) (sec : Option Nat) (k : Out) :
    checked s [] priv sec k = priv.elim k (s.raise 0x03 0) := by
  simp only [checked, badReg, findFirst, useCheck_onCore h]
  cases priv <;> rfl

/-! ## What the return changes. -/

/-- Resuming a frozen array touches only the arrays (10 R229). -/
theorem State.thawAtTret_frame (s : State) : ∃ arrays, s.thawAtTret = { s with arrays := arrays } := by
  unfold State.thawAtTret
  split
  · exact ⟨_, rfl⟩
  · dsimp only
    split <;> exact ⟨_, rfl⟩

/-- The group after TRET: it returns, and outside handler mode TRET counts as retired (12 R275). -/
def Group.afterTret (g : Group) (fa fb : FlagSel) : Group :=
  { ({ g with retired := if g.handler then g.retired else g.retired + 1 }).trapReturn fa fb with block := none }

theorem Group.afterTret_of_handler {g : Group} (h : g.handler = true) (fa fb : FlagSel) :
    g.afterTret fa fb = { g.trapReturn fa fb with block := none } := by
  rw [Group.afterTret, if_pos h]

/-- Of the masks, TRET restores m0 alone. -/
theorem Group.mGet_afterTret (g : Group) (fa fb : FlagSel) (r : MReg) :
    (g.afterTret fa fb).mGet r = if r = 0 then g.trapMask.setWidth 32 &&& g.present else g.mGet r :=
  Group.mGet_mSet ..

/-- Where TRET is legal and the word at TRAP_HDR is a clause header, only the group and the arrays change. -/
theorem execTret_returns {s : State} {w : W32} {fa fb : FlagSel} (hcore : s.g.OnCore)
    (hlegal : s.g.handler = true ∨ s.g.ufwd = true) (halign : s.g.trapHdr.toNat % 4 = 0)
    (hglobal : s.g.trapHdr.toNat < 2 ^ 63) (hword : fetchWord s s.g.trapHdr = .word w)
    (hheader : headerFlags w = some (fa, fb)) :
    ∃ arrays, execTret s = .next { s with g := s.g.afterTret fa fb, arrays := arrays } := by
  have hpriv : (s.g.handler || s.g.ufwd) = true := Bool.or_eq_true_iff.2 hlegal
  have haddr : ¬(s.g.trapHdr.toNat % 4 ≠ 0 ∨ s.g.trapHdr.toNat ≥ 2 ^ 63) := by omega
  simp only [execTret, hpriv, if_true, checked_noRegs hcore, Option.elim_none, haddr, if_false, hword, hheader]
  by_cases hmode : s.g.handler = true
  · obtain ⟨arrays, hthaw⟩ := s.thawAtTret_frame
    rw [Group.afterTret_of_handler hmode]
    simp only [if_pos hmode, hthaw]
    exact ⟨arrays, rfl⟩
  · simp only [if_neg hmode, Group.afterTret]
    exact ⟨s.arrays, rfl⟩

/-- Outside both handlers TRET raises PRIVILEGE (10 R220, 12 R277). -/
theorem State.MayTrap.takes_tret {s : State} (h : s.MayTrap) (huser : s.g.ufwd = false) :
    Takes s s.g (execTret s) { cause := 0x03, addr := 0, info := 3, pc := s.g.pc } := by
  have hmode : s.g.handler = false := h.2.1
  have hpriv : ¬(s.g.handler || s.g.ufwd) = true := by simp [hmode, huser]
  rw [execTret, if_neg hpriv, checked_noRegs h.onCore]
  exact h.takes_raise 0x03 0 3

/-- Settles O10: where TRET is legal the clause header lets it return, and elsewhere the use check refuses it. -/
theorem exceptionReturn : Obligations.ExceptionReturn := by
  unfold Obligations.ExceptionReturn
  intro s w fa fb hcore
  refine ⟨?returns, State.MayTrap.takes_tret⟩
  case returns =>
    intro hlegal halign hglobal hword hheader
    obtain ⟨arrays, hexec⟩ := execTret_returns hcore hlegal halign hglobal hword hheader
    exact ⟨_, hexec, rfl, rfl, rfl, rfl, rfl, rfl, rfl, rfl, fun r => s.g.mGet_afterTret fa fb r,
      fun _ => ⟨rfl, rfl⟩, rfl, rfl⟩

end Sys2Proof.Machine
end
